-- ==== Sys2Proof/Word.lean ====
section
/-! DEFINITION. The word types of the QTH-2048 model and the sparse table that holds large arrays of records. -/

namespace Sys2Proof

/-- One byte of a payload, a record or the managed memory. -/
abbrev Byte := BitVec 8

/-- A register of a Torpin core (R365) and any other 32-bit word of the device. -/
abbrev Word := BitVec 32

/-- A value of device time in units of 2⁻⁶ ns (R24). -/
abbrev DT := BitVec 64

/-- A sparse array: entries with strictly rising keys, none of them equal to the array's default. -/
abbrev Tab (α : Type) := List (Nat × α)

/-- A configuration value that a command commits and that comes into force later (R38).  A read returns `committed` (R39). -/
structure Coded (α : Type) where
  /-- the last value committed -/
  committed : α
  /-- the value the block runs on -/
  inForce : α
  deriving DecidableEq, Repr

/-- A configuration value at rest: committed and in force are the same. -/
def Coded.at {α : Type} (v : α) : Coded α := ⟨v, v⟩

/-- Commit a value that waits for its takes-effect instant. -/
def Coded.commit {α : Type} (c : Coded α) (v : α) : Coded α := { c with committed := v }

/-- The takes-effect instant: what was committed comes into force. -/
def Coded.latch {α : Type} (c : Coded α) : Coded α := { c with inForce := c.committed }

end Sys2Proof
end

