-- ==== Sys2Proof/Syntax.lean ====
section
/-! DEFINITION. The commands of the QTH-2048: one constructor of `Instr` for each row of the opcode table, with the operands that its environment supplies. -/

namespace Sys2Proof.Machine

/-- A QCP command frame that passed R309, as its transport delivers it (Table 13.1).  The opcode is the constructor. DESIGN CHOICE (log 11). -/
structure Qcp where
  /-- transport number of Table 13.3 -/
  transport : Nat
  /-- source address of the datagram on EP0 and EP1; zero elsewhere -/
  addr : BitVec 32
  /-- source UDP port on EP0 and EP1; zero elsewhere -/
  port : BitVec 16
  ver : BitVec 8
  /-- [3:0] session, [7:4] kind -/
  sess : BitVec 8
  seq : BitVec 16
  flg : BitVec 8
  stat : BitVec 8
  payload : List Byte
  /-- the commit tick holds another event (R43) -/
  sameTick : Bool
  deriving DecidableEq, Repr

/-- Source or destination of a frame: address and UDP port on EP0 and EP1, zeros elsewhere (R308, R311). -/
structure Endpoint where
  addr : BitVec 32
  port : BitVec 16
  deriving DecidableEq, Repr

/-- Why a frame is rejected (Table 13.4). -/
inductive FrameFault where
  | crc | length | overflow
  deriving DecidableEq, Repr

/-- What the pins of one sample input delivered in a beat (R46–R48). DESIGN CHOICE (log 11). DEDUCED (log 23). -/
structure InputBeat where
  /-- the four nibbles of each sample position at the fixed alignment, first nibble in bits 15–12; none where no clock edge delivered it -/
  raw : List (Option (BitVec 16))
  /-- the first 8 samples of the beat that opens, for the look-back of pulse blanking -/
  ahead : List (BitVec 16)
  /-- clock cycles counted in the beat -/
  clocks : Nat
  /-- SKEW averaged over the beat, DT units -/
  skew : Nat
  deriving DecidableEq, Repr

/-- What the accumulators of a finished search hold (R70, R72).  The code-phase index of a cell counts cells of code phase at the first sample of START_BEAT. DESIGN CHOICE (log 11). -/
structure SearchResult where
  /-- hypothesis j, from −J to +J, and cell of the largest accumulated cell A -/
  hyp : Int
  cell : Nat
  /-- A, the neighbouring cells in code phase (before, after) and in hypothesis (j − 1, j + 1) -/
  peak : Nat
  before : Nat
  after : Nat
  lower : Nat
  upper : Nat
  /-- sum and number of the cells of A's hypothesis more than 1.5 chips from A -/
  noiseSum : Nat
  noiseCells : Nat
  /-- largest accumulated cell more than 1.5 chips or more than Δf from A -/
  second : Nat
  saturated : Bool
  deriving DecidableEq, Repr

/-- What a multipath fit finds (R157): τ₀ in 2⁻¹⁰ chip, echoes (delay after the line of sight in 2⁻¹⁰ chip, amplitude 2⁻⁸, phase 2⁻⁸ cycle) and the residual in 2⁻⁸ of the profile power. DESIGN CHOICE (log 32). -/
structure MpFit where
  los : Int
  echoes : List (Nat × Nat × Nat)
  quality : Nat
  deriving DecidableEq, Repr

/-- A tag of a MACK message and what its check gives (R172): satellite it authenticates, ADKD, length in bits, from another satellite, result. DESIGN CHOICE (log 34). -/
structure OsnmaTag where
  sat : Nat
  adkd : Nat
  bits : Nat
  cross : Bool
  ok : Bool
  deriving DecidableEq, Repr

/-- A complete OSNMA subframe of a satellite (R170, R172): the NMA header, and the results of the checks that the firmware runs on it.
`kroot`, `pkr`: a completed DSM-KROOT, with the PKID of its key, and DSM-PKR, with the key it carries; `key`: the chain check of the disclosed key. DESIGN CHOICE (log 34). -/
structure OsnmaSubframe where
  sat : Nat
  gst : Nat
  nmas : Nat
  cid : Nat
  pkid : Nat
  alert : Bool
  kroot : Option Bool
  pkr : Option (Bool × Nat × List Byte)
  key : Option Bool
  tags : List OsnmaTag
  deriving DecidableEq, Repr

/-- How a cipher operation went: bytes of message processed, blocks that mismatched once, and the block whose retry mismatched too (R415, R420). DESIGN CHOICE (log 11, 66). -/
structure CipherEnd where
  progress : Nat
  mismatches : List Nat
  failed : Option Nat
  deriving DecidableEq, Repr

/-- A correction of one satellite that a message carries: 0 orbit, 1 clock, 2 code bias, 3 phase bias in 0.1 mm, 4 slant delay and its σ in 0.01 TECU; satellite as 64 × system + SAT. -/
structure SatCorr where
  kind : Nat
  sat : Nat
  iod : Nat
  /-- validity in ms -/
  validMs : Nat
  value : List Int
  deriving DecidableEq, Repr

/-- A navigation data set that a message carries; fit interval in GPS ns. -/
structure SatData where
  sat : Nat
  issue : Nat
  healthy : Bool
  fitFrom : Nat
  fitTo : Nat
  data : List Byte
  deriving DecidableEq, Repr

/-- What an RTCM 3 frame says under RTCM 10403.3: reference time in GPS ns, the multiple-message bit, an ARP in 0.1 mm, satellites observed, corrections, ephemerides. PRESUMED (log 38). -/
structure RtcmInfo where
  time : Nat
  more : Bool
  arp : Option (List Int)
  sats : List Nat
  corrs : List SatCorr
  sets : List SatData
  deriving DecidableEq, Repr

/-- A vector prediction (R143). -/
structure Prediction where
  /-- unwrapped reference DT -/
  ref : Nat
  /-- code phase in chips, code rate in chips/s -/
  phi : Rat
  rate : Rat
  /-- Doppler in Hz and its rate in Hz/s -/
  dopp : Rat
  doppRate : Rat
  sigmaCode : Rat
  sigmaDopp : Rat
  deriving DecidableEq, Repr

/-- What the active navigation core knows of a channel beside its SNAP phases (R184, R191): transmit time in GPS ns of the start of the code period that is in progress,
whether the decoded time of week gave it, and the satellite's elevation in degrees. -/
structure NavObs where
  channel : Nat
  start : Rat
  known : Bool
  elev : Option Rat
  deriving DecidableEq, Repr

/-- A satellite seen by both antennas of a pair (R163): pair, the two channels, predicted difference in cycles and attitude σ in degrees. -/
structure AoaObs where
  pair : Nat
  chanA : Nat
  chanB : Nat
  predicted : Rat
  sigma : Rat
  deriving DecidableEq, Repr

/-- A normalised innovation of a satellite: ν²/s² (R197). -/
structure Innovation where
  sat : Nat
  value : Rat
  deriving DecidableEq, Repr

/-- A subset solution against the full one, in mm (R198). -/
structure SubSolution where
  dH : Rat
  dV : Rat
  sigmaH : Rat
  sigmaV : Rat
  deriving DecidableEq, Repr

/-- What the filter of R195 gives at an epoch in one mode.  Its equations are the firmware's own: the spec gives states, weights and tests, and no numbers.
Positions in 0.1 mm, velocities in mm/s, σ in mm, clock in ns; `subs`: none where a subset solution does not exist. -/
structure NavFix where
  pos : List Int
  vel : List Int
  posSig : List Rat
  velSig : Rat
  sigmaH : Rat
  sigmaV : Rat
  subs : Option (List SubSolution)
  clkBias : Rat
  clkDrift : Rat
  clkSigma : Rat
  pdop : Rat
  used : List Nat
  states : Nat
  observed : Nat
  innovations : List Innovation
  /-- normalised residuals of satellites that are out -/
  residuals : List (Nat × Rat)
  /-- ratio of the integer search, and the ambiguities it fixes -/
  ratio : Rat
  fixed : Nat
  /-- GNSS as a time source: e and y (R247) -/
  timeE : Rat
  timeY : Rat
  deriving DecidableEq, Repr

/-- Heading of the HEADING pair (R201): 0.01°, common satellites, satellites and ratio of the fix, baseline length in mm. -/
structure HeadFix where
  heading : Nat
  pitch : Int
  sigma : Nat
  common : Nat
  sats : Nat
  ratio : Rat
  length : Rat
  deriving DecidableEq, Repr

/-- RTCM 3 frames and the ATMO body that a reference station forms of an epoch (R235); ephemeris frames by satellite. DESIGN CHOICE (log 41). -/
structure RefFrames where
  msm : List (List Byte)
  arp : List Byte
  bias : List Byte
  eph : List (Nat × List Byte)
  atmo : List Byte
  deriving DecidableEq, Repr

/-- The numbers of one navigation epoch: solutions by mode, the uncorrected position with its variance in mm², fractional offsets of scales, and z of JUMP. DESIGN CHOICE (log 11). -/
structure NavInput where
  obs : List NavObs
  aoa : List AoaObs
  fixes : List (Nat × NavFix)
  spp : Option (List Int)
  heading : Option HeadFix
  attitude : Bool
  preds : List (Nat × Prediction)
  jumpZ : Option Rat
  ref : RefFrames
  deriving DecidableEq, Repr

/-- A fused record's numbers (R204). -/
structure FusedFix where
  mode : Nat
  pos : List Int
  vel : List Int
  posSig : List Rat
  velSig : Rat
  sigmaH : Rat
  sigmaV : Rat
  clkBias : Rat
  clkDrift : Rat
  heading : Nat
  pitch : Int
  headSig : Nat
  deriving DecidableEq, Repr

/-- A navigation message that a core has decoded, and what it says (R187): failed its check; a data set; an almanac block by system and number; UTC parameters
(leap seconds, δ in ns, a leap second to come); a fractional offset of a scale in ns; the polarity of a frame-synchronisation word; OSNMA; HAS; SBAS. DESIGN CHOICE (log 34). -/
inductive NavMsg where
  | failed
  | data (d : SatData)
  | almanac (system number : Nat) (block : List Byte)
  | utc (leap : Nat) (delta : Rat) (to_ : Option (Nat × Nat))
  | offset (scale : Nat) (delta : Rat)
  | frameWord (channel : Nat) (inverted : Bool)
  | osnma (f : OsnmaSubframe)
  | has (id size page : Nat) (data : List Byte) (decoded : Option (Bool × Nat × List SatCorr))
  | sbas (sat type time : Nat) (sets : List (Nat × Nat)) (corrs : List SatCorr)
  deriving DecidableEq, Repr

/-- What a card answered to a reset (R438): the ATR with its TS as read under the direct rule of R437, and whether it accepted the PPS. -/
structure CardAtr where
  bytes : List Byte
  ppsOk : Bool
  deriving DecidableEq, Repr

/-- How a card exchange ended (R438): the response data with SW1 SW2, or the CARD_EVENT kind of its failure. DESIGN CHOICE (log 11). -/
inductive CardEnd where
  | response (bytes : List Byte)
  | repeatFail | waitTimeout | resynch
  deriving DecidableEq, Repr

/-- How an I2C transfer ended (R441). DESIGN CHOICE (log 11). -/
inductive I2cEnd where
  | read (bytes : List Byte)
  | nack | stretch | stuck
  deriving DecidableEq, Repr

/-- The levels of a received character (R433): its data bits, first received in bit 0, its parity bit and its first stop bit;
`held`: its start bit came before the last write of a Char-coded setting. DESIGN CHOICE (log 69). -/
structure RxLine where
  data : Byte
  parity : Bool
  stop : Bool
  held : Bool
  deriving DecidableEq, Repr

/-- A CAN frame on the bus (R442), and the receive errors counted since the frame before it. -/
structure CanFrame where
  port : Nat
  ide : Bool
  fd : Bool
  brs : Bool
  esi : Bool
  id : Nat
  data : List Byte
  errors : Nat
  deriving DecidableEq, Repr

/-- How the transmission of a CAN frame ended (R444): acknowledged within TIMEOUT, and the transmit errors that count on the way. -/
structure CanTxEnd where
  acked : Bool
  errors : Nat
  deriving DecidableEq, Repr

/-- A write of another master through the other port of a dual-port bank in the same clock (Table 15.3): word address, master, and the byte of each lane it writes. -/
structure Clash where
  addr : Nat
  master : Nat
  bytes : List (Option Byte)
  deriving DecidableEq, Repr

/-- One instruction of a Torpin core: the core, the bytes at its pc (at least four from the lead byte where the space goes on), and, under REP, how many iterations run before the next boundary at which something else happens. DEDUCED (log 55). DESIGN CHOICE (log 57). -/
structure Fetch where
  core : Nat
  bytes : List Byte
  sameTick : Bool
  upTo : Option Nat
  clash : Option Clash
  deriving DecidableEq, Repr

/-- How a Decant ended: it reached its step 4, its duration in µs and VHOLD at its end in mV (R460, R470). -/
structure SaveEnd where
  done : Bool
  micros : Nat
  endMv : Nat
  deriving DecidableEq, Repr

/-- What the flash gives for an image slot: it could be read, its first 160 bytes, and whether the digest and the signature hold (R476). DESIGN CHOICE (log 11). -/
structure ImageRead where
  readable : Bool
  header : List Byte
  digest : Bool
  signed : Bool
  deriving DecidableEq, Repr

/-- What the pins and sources of the Percolator give in one tick (Table 20.6): edges on WT0–WT3, the six data bytes of an accelerometer read or its failure, TAMPER, VBAT in mV, temperature in 0.1 °C, EV0. -/
structure PercIn where
  edges : List Nat
  acc : Option (List Byte)
  tamper : Bool
  vbat : Nat
  temp : Int
  ev0 : Bool
  sameTick : Bool
  deriving DecidableEq, Repr

end Sys2Proof.Machine

namespace Sys2Proof
open Sys2Proof.Machine

/-- The commands and events of the device, one constructor for each row of the opcode table. -/
inductive Instr where
  /-- IDENTITY (R324). Returns part, stepping, grade, node ID, installation and epoch-saturation flags, DT epoch ID, firmware versions and serial. -/
  | identity (q : Qcp)
  /-- SESSION_OPEN (R313). Opens or rebinds a session with a privilege and notice mask, optionally forcing a rebind or clearing its history. -/
  | sessionOpen (q : Qcp)
  /-- SESSION_CLOSE (R313). Closes a session bound to the command's binding; running commands complete and their replies are cached but not sent. -/
  | sessionClose (q : Qcp)
  /-- SESSION_STATUS (R324). Returns a session's binding, privilege, LAST, executed mask, history flag and notice counts. -/
  | sessionStatus (q : Qcp)
  /-- ECHO (R324). Returns its payload unchanged. -/
  | echo (q : Qcp)
  /-- NOTICE_MASK (R324). Sets the session's notice mask of opcode groups. -/
  | noticeMask (q : Qcp)
  /-- TRANSPORT_CFG (R323). Sets a transport's enable, privilege ceiling and QCP UDP port, and stores them in MRAM. -/
  | transportCfg (q : Qcp)
  /-- UNDEFINED_OPCODE (R327). A command with an opcode not in Table 14.2, or with bit 15 set, is answered ST_BAD_OPCODE. -/
  | undefinedOpcode (opc : BitVec 16) (q : Qcp)
  /-- QCP_FRAME_REJECTED (R309). A frame with a bad LEN, a failed CRC or an overflowing receive buffer is discarded and NAKed. -/
  | qcpFrameRejected (transport : Nat) (ep : Endpoint) (cause : FrameFault)
  /-- GAP_TIMEOUT (R307). Bytes of an incomplete frame stop arriving for the gap time; the partial frame is discarded and NAKed with cause TIMEOUT. -/
  | gapTimeout (transport : Nat)
  /-- REASSEMBLY_TIMEOUT (R308). Fragments of an IPv4 datagram not reassembled within 100 ms are discarded and counted. -/
  | reassemblyTimeout (port : Nat)
  /-- NOTICE_LOST (R319). When queue space returns after discards, a NOTICE_LOST notice with the lost count is queued first. -/
  | noticeLost (session : Nat)
  /-- POWER_STATE (R453). Moves the device to RUN, WATCH or PARKED, with descent, domain changes and a planned Decant as required. -/
  | powerState (q : Qcp) (save : SaveEnd)
  /-- POWER_STATUS (R470). Returns power state, wake cause, domains, supply and temperature readings and counts. -/
  | powerStatus (q : Qcp)
  /-- DOMAIN_SET (R451). Switches masked power domains on or off in dependency order, subject to the refusals of Table 20.1. -/
  | domainSet (q : Qcp)
  /-- PERC_CFG (R469). Configures the Percolator, its accelerometer, counters, WAKE width and wake timeout, copied to MRAM. -/
  | percCfg (q : Qcp)
  /-- PERC_RULE_WRITE (R469). Writes Percolator rules, copied to MRAM; each rewritten rule restarts filter, count and arming at the next tick. -/
  | percRuleWrite (q : Qcp)
  /-- PERC_RULE_READ (R469). Returns a range of Percolator rules. -/
  | percRuleRead (q : Qcp)
  /-- PERC_STATUS (R470). Returns Percolator state, filtered source values, counters and fire counts. -/
  | percStatus (q : Qcp)
  /-- HOLDUP_STATUS (R470). Returns holdup capacitor state, voltage, capacitance and last save figures. -/
  | holdupStatus (q : Qcp)
  /-- PERC_TICK (R463). At each 1,024 Hz tick the Percolator reads its sources, filters them and evaluates its 32 rules. -/
  | percTick (p : PercIn)
  /-- PERC_HALT (R468). VBAT_AON falling below 1.9 V stops the Percolator. -/
  | percHalt
  /-- PERC_RESTART (R468). On VBAT_AON return the Percolator reloads rules and configuration from MRAM and restarts with counters at 0. -/
  | percRestart
  /-- SUPPLY_SAG (R457). PWR_FAIL low or VDD_IO33 below 3.0 V is detected as a class 1 event and starts the Decant. -/
  | supplySag (save : SaveEnd)
  /-- SUPPLY_RETURN (R456). VDD_IO33 at least 3.0 V and PWR_FAIL high for 10 ms end a wait for supplies and start the boot. -/
  | supplyReturn
  /-- WAKE_TIMEOUT (R456). A wake whose supply wait exceeds WAKE_TIMEOUT leaves the device PARKED, releases WAKE and logs WAKE_FAIL. -/
  | wakeTimeout
  /-- RESET_N (R499). RESET_N low for 26 ordering ticks resets the device after a planned Decant. -/
  | resetN (save : SaveEnd)
  /-- REFIN_LOSS (R30). No REFIN edge for 8 always-on periods records REFIN_LOSS, runs the Decant and holds domains in reset. -/
  | refinLoss (save : SaveEnd)
  /-- REFIN_RETURN (R30). REFIN running again for 1,000 always-on periods restarts the device as from power-on. -/
  | refinReturn
  /-- WATCHDOG_RESET (R356). The device-level watchdog resets the device, including 100 ms after a CC violation. -/
  | watchdogReset (save : SaveEnd)
  /-- BOOT (R473). The boot ROM powers domains, reads MRAM, starts DT, verifies and loads an image slot and starts the cores. -/
  | boot (images : List ImageRead)
  /-- HOLDUP_READY (R458). VHOLD reaching 3.1 V reports READY and, after a measuring start-up, measures the capacitance. -/
  | holdupReady (vhold : Nat)
  /-- CHARGE_TIMEOUT (R470). READY not reached within 200 ms sends HOLDUP_EVENT CHARGE_TIMEOUT. -/
  | chargeTimeout
  /-- TRIAL_TIMEOUT (R477). No commit within 600 s of RUN on a trial slot returns the boot selector to the previous slot. -/
  | trialTimeout
  /-- TEMP_HIGH (R484). Junction above 115 °C sends DIAG_EVENT TEMP_HIGH. -/
  | tempHigh (temp : Int)
  /-- WATCH_TIME_EVAL (R455). In WATCH the command core evaluates reported-time states and the servo once per second. -/
  | watchTimeEval
  /-- DT_WRAP (R28). The tick whose DT increment carries out of bit 63 increments the DT epoch ID. -/
  | dtWrap
  /-- BEAT_BOUNDARY (R41). Tick 0 of each beat performs NCO latch, dump close, Beat-coded shadow copies and the per-beat evaluations. -/
  | beatBoundary (inputs : List InputBeat) (short : List (Nat × Nat))
  /-- CLK_LOSS (R62). No SINn_CLK edge for 4 ordering ticks moves the input to LOST_CLOCK and zero-fills its ring. -/
  | clkLoss (input : Nat)
  /-- CLOCK_RESUME (R61). Clock edges resuming on a LOST_CLOCK input move it to TRAINING. -/
  | clockResume (input : Nat)
  /-- ALIGNMENT_FIXED (R47). 64 consecutive training words fix the nibble alignment; the input enters RUN at the next boundary. -/
  | alignmentFixed (input : Nat) (nibbles : List (BitVec 4))
  /-- INSTALL_WRITE (R49). Writes the installation record to MRAM while every input is OFF, installing the device. -/
  | installWrite (q : Qcp)
  /-- INSTALL_READ (R64). Returns the 576-byte installation record. -/
  | installRead (q : Qcp)
  /-- INPUT_ENABLE (R61). Moves an input to TRAINING or OFF and sets its DC_SHIFT. -/
  | inputEnable (q : Qcp)
  /-- SUBBAND_SET (R64). Enables or disables a sub-band stream with its rate, format, mixer word, ring and AGC. -/
  | subbandSet (q : Qcp)
  /-- INPUT_STATS (R64). Returns the latest statistics record of one input. -/
  | inputStats (q : Qcp)
  /-- GRINDER_CFG (R87). Configures the spectrum pool, FP3 reserve and handover age. -/
  | grinderCfg (q : Qcp)
  /-- GRINDER_STATUS (R87). Returns pipeline, pool, pending and completion figures. -/
  | grinderStatus (q : Qcp)
  /-- LEDGER_WRITE (R75). Writes host ledger entries as PENDING or HELD. -/
  | ledgerWrite (q : Qcp)
  /-- LEDGER_READ (R87). Returns a range of ledger entries. -/
  | ledgerRead (q : Qcp)
  /-- LEDGER_CANCEL (R84). Fails PENDING, HELD and FOUND host entries at once and stops ACTIVE ones at their hypothesis end. -/
  | ledgerCancel (q : Qcp)
  /-- LEDGER_FREE (R84). Returns finished host entries to FREE. -/
  | ledgerFree (q : Qcp)
  /-- ACQ_PLAN (R86). Sets the planner switch and the time and position priors. -/
  | acqPlan (q : Qcp)
  /-- ENTRY_DISPATCH (R77). An eligible ledger entry is dispatched to a free pipeline, reading and transforming its data beats. -/
  | entryDispatch (pipe : Nat)
  /-- GRINDER_ENTRY_DONE (R72). A running entry completes its search and becomes FOUND, NOT_FOUND, PENDING for retry or FAILED. -/
  | grinderEntryDone (pipe : Nat) (result : SearchResult)
  /-- ENTRY_CANCELLED (R84). A cancelled ACTIVE entry stops at the end of its current hypothesis and goes to FAILED. -/
  | entryCancelled (pipe : Nat)
  /-- HANDOVER (R81). A FOUND entry claims an IDLE channel and writes its descriptor shadow, becoming HANDED. -/
  | handover (index : Nat)
  /-- HANDOVER_EXPIRED (R83). A FOUND entry not handed over within HANDOVER_AGE beats goes to EXPIRED. -/
  | handoverExpired (index : Nat)
  /-- FABRIC_CFG (R120). Configures dump-ring placement and depth and the admission reserve. -/
  | fabricCfg (q : Qcp)
  /-- FABRIC_STATUS (R120). Returns admission, lane and clamp figures. -/
  | fabricStatus (q : Qcp)
  /-- CHAN_START (R101). Claims an IDLE channel with a full descriptor, subject to admission. -/
  | chanStart (q : Qcp)
  /-- CHAN_STOP (R115). Forces a range of channels to IDLE at the next boundary, releasing their cost. -/
  | chanStop (q : Qcp)
  /-- CHAN_READ (R120). Returns active channel descriptors. -/
  | chanRead (q : Qcp)
  /-- CHAN_MODIFY (R121). Changes TINT, CTRL and tap words of a running channel. -/
  | chanModify (q : Qcp)
  /-- CODE_LOAD (R118). Loads one component of a user signal into the code RAM. -/
  | codeLoad (q : Qcp)
  /-- DUMP_SERVICE (R126). A loop core services the dump slot of beat k−2 for its groups, updating loops, states and NCO shadows. -/
  | dumpService (core : Nat) (count : Nat) (late : Option Nat)
  /-- PULLIN_TIMEOUT (R123). PULLIN_MAX elapsed in PULL-IN moves the channel to LOST. -/
  | pullinTimeout (channel : Nat)
  /-- COAST_TIMEOUT (R123). COAST_MAX or COAST_MAX_SKY elapsed in COAST moves the channel to LOST. -/
  | coastTimeout (channel : Nat)
  /-- CHANNEL_RELEASE (R123). A LOST channel becomes IDLE at the boundary after LOST took effect. -/
  | channelRelease (channel : Nat)
  /-- MP_FIT (R160). After dump service a loop core fits the multipath model of channels whose windows closed. -/
  | mpFit (core : Nat) (fit : MpFit)
  /-- TRACK_PROFILE (R150). Replaces one tracking profile. -/
  | trackProfile (q : Qcp)
  /-- TRACK_ASSIGN (R150). Sets the profile of a range of channels. -/
  | trackAssign (q : Qcp)
  /-- TRACK_PROFILE_READ (R153). Returns one tracking profile. -/
  | trackProfileRead (q : Qcp)
  /-- TRACK_STATUS (R153). Returns tracking status records of a range of channels. -/
  | trackStatus (q : Qcp)
  /-- MP_CFG (R159). Configures the multipath estimator and its application. -/
  | mpCfg (q : Qcp)
  /-- MP_READ (R175). Returns multipath records and the skip count. -/
  | mpRead (q : Qcp)
  /-- INTERF_CFG (R161). Sets blanking and notch parameters and modes of one input. -/
  | interfCfg (q : Qcp)
  /-- INTERF_STATUS (R175). Returns the interference level and cause of each input. -/
  | interfStatus (q : Qcp)
  /-- SPOOF_CFG (R167). Sets the spoofing-score weights, thresholds and actions. -/
  | spoofCfg (q : Qcp)
  /-- SPOOF_STATUS (R175). Returns the spoofing state, metrics and AoA figures. -/
  | spoofStatus (q : Qcp)
  /-- SPOOF_EVALUATION (R165). Every 100 beats the active navigation core evaluates the five metrics, the score and the alarm state. -/
  | spoofEvaluation
  /-- OSNMA_KEY (R171). Stores an OSNMA Merkle root or public key in MRAM. -/
  | osnmaKey (q : Qcp)
  /-- OSNMA_CFG (R174). Sets OSNMA enable, requirement, exclusion and time limits. -/
  | osnmaCfg (q : Qcp)
  /-- OSNMA_STATUS (R175). Returns the OSNMA state and per-satellite status. -/
  | osnmaStatus (q : Qcp)
  /-- NAV_EPOCH (R179). At the boundary opening k+2 the active navigation core computes epoch k: measurements, filter, integrity, time state, PVT and predictions. -/
  | navEpoch (x : NavInput)
  /-- NAV_DEADLINE (R180). An epoch computation unfinished at its deadline makes the next epoch skip its filter update. -/
  | navDeadline
  /-- FUSED_EPOCH (R204). A fused epoch is computed FUSE_WAIT beats after its boundary from the inputs received. -/
  | fusedEpoch (x : FusedFix)
  /-- NAV_MESSAGE (R187). A decoded navigation page, word, subframe or string is checked and applied, including HAS, SBAS and OSNMA content. -/
  | navMessage (m : NavMsg)
  /-- IMU_READ (R440). At the scheduled tick MS1 reads the IMU and decodes gyro and accelerometer values. -/
  | imuRead (miso : List Byte) (sameTick : Bool)
  /-- IMU_LOST (R203). No valid IMU sample for 20 ms continues fusion without IMU and sends NAV_EVENT IMU_LOST. -/
  | imuLost
  /-- CAN_STALE (R203). No CAN speed frame for 100 ms stops CAN speed use. -/
  | canStale
  /-- NAV_CFG (R178). Sets solution mode limit, epoch rate, fusion rate and navigation parameters. -/
  | navCfg (q : Qcp)
  /-- NAV_STATUS (R209). Returns mode, active core, satellites and overrun counts. -/
  | navStatus (q : Qcp)
  /-- NAV_RESET (R209). Clears the filter, and for warm or cold also ephemerides, almanacs and priors. -/
  | navReset (q : Qcp)
  /-- ANT_CFG (R200). Sets an antenna's lever arm, phase-centre height and primary mark. -/
  | antCfg (q : Qcp)
  /-- PAIR_CFG (R200). Replaces the antenna-pair list. -/
  | pairCfg (q : Qcp)
  /-- FUSION_CFG (R202). Configures IMU, wheel and CAN fusion. -/
  | fusionCfg (q : Qcp)
  /-- EPH_LOAD (R209). Loads ephemerides from RTCM 3 frames. -/
  | ephLoad (q : Qcp) (info : List RtcmInfo)
  /-- ALM_LOAD (R209). Loads almanac pages as transmitted. -/
  | almLoad (q : Qcp) (pages : List (Option Nat))
  /-- PVT_READ (R209). Returns the latest PVT or fused record. -/
  | pvtRead (q : Qcp)
  /-- MEAS_READ (R209). Returns one part of the latest measurement epoch. -/
  | measRead (q : Qcp)
  /-- CORR_CFG (R213). Sets correction sources, priorities and age limits. -/
  | corrCfg (q : Qcp)
  /-- CORR_STATUS (R238). Returns correction sources and held stations. -/
  | corrStatus (q : Qcp)
  /-- CORR_PUSH (R215). Applies RTCM 3 frames from a host stream after a structure check. -/
  | corrPush (q : Qcp) (info : List RtcmInfo)
  /-- MSM_EPOCH_TIMEOUT (R216). An observation epoch incomplete 500 ms after its first message is completed for the satellites it holds. -/
  | msmEpochTimeout
  /-- ARP_WAIT_TIMEOUT (R216). MSM observations held 30 s without an ARP are discarded. -/
  | arpWaitTimeout
  /-- HAS_PAGE_TIMEOUT (R219). HAS pages of a message ID incomplete for 60 s are discarded. -/
  | hasPageTimeout
  /-- SBAS_UNUSABLE_END (R221). 60 s after a type 0 message the SBAS satellite becomes usable again. -/
  | sbasUnusableEnd
  /-- DOMAIN_CFG (R226). Configures QDP: roles, transports, ports, key slot and domain. -/
  | domainCfg (q : Qcp)
  /-- DOMAIN_STATUS (R238). Returns QDP state, grandmaster and peer table. -/
  | domainStatus (q : Qcp)
  /-- QDP_TUNNEL_IN (R224). Delivers one incoming QDP datagram through QCP. -/
  | qdpTunnelIn (q : Qcp) (info : List RtcmInfo)
  /-- QDP_DATAGRAM_RX (R225). A received QDP datagram is checked for header, MAC and replay, then used and relayed. -/
  | qdpDatagramRx (port : Nat) (stamp : Nat) (data : List Byte) (info : List RtcmInfo)
  /-- HELLO_SEND (R229). Every HELLO_INT the node sends HELLO, TIME and ALERT as its roles require and re-elects the grandmaster. -/
  | helloSend
  /-- ALERT_EXPIRY (R233). An ALERT not repeated within 3 × HELLO_INT ceases to be in force. -/
  | alertExpiry
  /-- PEER_TIMEOUT (R229). A GM node whose HELLO is older than 3 × HELLO_INT leaves the election. -/
  | peerTimeout
  /-- CONFLICT_SILENCE_END (R232). 30 s without a conflicting HELLO ends the NODE_CONFLICT silence. -/
  | conflictSilenceEnd
  /-- REFSTN_CFG (R234). Configures and starts the reference station or its survey-in. -/
  | refstnCfg (q : Qcp)
  /-- REFSTN_STATUS (R238). Returns reference-station state, ARP and survey progress. -/
  | refstnStatus (q : Qcp)
  /-- TIME_CONFIG (R261). Sets time sources and holdover, step and servo parameters. -/
  | timeConfig (q : Qcp)
  /-- TIME_STATUS (R262). Returns reported-time state, source, uncertainty and a DT/time pair. -/
  | timeStatus (q : Qcp)
  /-- TP_CONFIG (R256). Configures a time-pulse output. -/
  | tpConfig (q : Qcp)
  /-- FOUT_CONFIG (R257). Configures the frequency output. -/
  | foutConfig (q : Qcp)
  /-- EV_CONFIG (R258). Configures an event-capture input. -/
  | evConfig (q : Qcp)
  /-- EV_READ (R259). Returns held event records from FROM_SEQ on. -/
  | evRead (q : Qcp)
  /-- TIME_PULSE_EDGE (R252). At a grid instant the TP output drives, omits or suppresses its leading edge and produces a mark. -/
  | timePulseEdge (tp : Nat) (grid : Nat) (sameTick : Bool)
  /-- FOUT_EDGE (R257). FOUT drives its square-wave edges on the scale's grid. -/
  | foutEdge (grid : Nat)
  /-- STEP_INSTANT (R249). At the step instant a new clock segment starts with the step, GEN increments and the state becomes LOCKED. -/
  | stepInstant
  /-- LEAP_SECOND (R246). At the broadcast instant UTC and GLONASS counts step by the leap second and GEN increments. -/
  | leapSecond
  /-- HOLDOVER_LIMIT (R248). Holdover past HOLD_LIMIT or HOLD_UNC moves reported time to UNQUALIFIED. -/
  | holdoverLimit
  /-- EVENT_CAPTURE (R258). An accepted edge on EV0–EV7 or PPSIN is timestamped and recorded for the host or the customer core. -/
  | eventCapture (input : Nat) (rising : Bool) (pin : Nat) (sameTick : Bool)
  /-- EP_CFG (R265). Configures an Ethernet port's interface, addresses and latencies. -/
  | epCfg (q : Qcp)
  /-- EP_STATUS (R286). Returns link state and frame counts of a port. -/
  | epStatus (q : Qcp)
  /-- PTP_CFG (R273). Configures the PTP instance of a port. -/
  | ptpCfg (q : Qcp)
  /-- PTP_STATUS (R286). Returns PTP state, offsets and counts of a port. -/
  | ptpStatus (q : Qcp)
  /-- PTP_TRUST (R281). Clears every UNTRUSTED mark of a port. -/
  | ptpTrust (q : Qcp)
  /-- ETH_TX (R268). Queues one host frame, optionally timestamped or launched at a DT. -/
  | ethTx (q : Qcp)
  /-- ETH_TS_READ (R269). Returns completed transmit-timestamp entries in transmit order. -/
  | ethTsRead (q : Qcp)
  /-- ETH_FRAME_RX (R265). A received frame is timestamped, filtered and passed to ARP, ICMP, PTP, QDP or QCP. -/
  | ethFrameRx (port : Nat) (stamp : Nat) (fcsOk : Bool) (frame : List Byte) (info : List RtcmInfo)
  /-- ETH_LAUNCH (R271). At its launch instant a pending launch frame starts, or is dropped as link-down or withdrawn. -/
  | ethLaunch (port : Nat)
  /-- ETH_TX_DONE (R269). A timestamped frame leaves or is dropped and its queue entry completes. -/
  | ethTxDone (port : Nat) (stamp : Nat) (sameTick : Bool)
  /-- TS_ENTRY_TIMEOUT (R269). A completed entry unread for 10 s is freed and counted as LOST. -/
  | tsEntryTimeout (port : Nat)
  /-- LINK_DOWN (R285). A link going down makes the PTP state FAULTY and completes pending entries LINK_DOWN. -/
  | linkDown (port : Nat)
  /-- LINK_UP (R285). The port returns to LISTENING 1 s after its link comes up. -/
  | linkUp (port : Nat) (speed : Nat)
  /-- SYNC_RX (R277). An accepted Sync and Follow_Up pair forms an offset sample tested and used by the port filter. -/
  | syncRx (port : Nat) (stamp : Nat) (msg : List Byte)
  /-- DELAY_RESP_RX (R277). A Delay_Resp completes an end-to-end delay measurement. -/
  | delayRespRx (port : Nat) (stamp : Nat) (msg : List Byte)
  /-- PDELAY_RX (R277). A Pdelay exchange updates the link delay. -/
  | pdelayRx (port : Nat) (stamp : Nat) (msg : List Byte)
  /-- ANNOUNCE_RX (R274). An Announce is checked and fed to the best master clock algorithm. -/
  | announceRx (port : Nat) (stamp : Nat) (msg : List Byte)
  /-- SYNC_SEND (R276). A master port sends Sync at the sync interval and its Follow_Up. -/
  | syncSend (port : Nat)
  /-- ANNOUNCE_SEND (R276). A master port sends Announce at its interval. -/
  | announceSend (port : Nat)
  /-- DELAY_REQ_SEND (R277). A slave port sends Delay_Req or Pdelay_Req at its interval. -/
  | delayReqSend (port : Nat)
  /-- ANNOUNCE_TIMEOUT (R284). No Announce from the parent for ANN_TIMEOUT intervals reruns the best master clock algorithm. -/
  | announceTimeout (port : Nat)
  /-- SUSPECT_MASTER_END (R280). After 4 sync intervals of SUSPECT_MASTER the jump is resolved as accepted, untrusted or restarted. -/
  | suspectMasterEnd (port : Nat)
  /-- PATH_WINDOW_END (R283). A stable window after a path change adopts the new delay and resolves the asymmetry. -/
  | pathWindowEnd (port : Nat)
  /-- UNTRUST_HOLD_END (R281). UNTRUST_HOLD seconds after untrusting, a master's Announce messages are used again. -/
  | untrustHoldEnd (port : Nat)
  /-- CARAFE_CFG (R288). Configures and arms or disarms the raw-sample history. -/
  | carafeCfg (q : Qcp)
  /-- CARAFE_STATUS (R301). Returns history depth, free slots and window states. -/
  | carafeStatus (q : Qcp)
  /-- CARAFE_TRIGGER (R292). A trigger opens or extends a history window, or is dropped. -/
  | carafeTrigger (q : Qcp)
  /-- CARAFE_RELEASE (R293). Requests release of a FILLING or FROZEN window. -/
  | carafeRelease (q : Qcp)
  /-- CARAFE_READ (R301). Returns bytes of one recorded beat of a window. -/
  | carafeRead (q : Qcp)
  /-- CARAFE_REPLAY (R297). Starts reprocessing a FROZEN window through the Grinder and borrowed channels. -/
  | carafeReplay (q : Qcp) (plans : List (List Byte))
  /-- WINDOW_FROZEN (R293). At the boundary after its last beat completes a FILLING window becomes FROZEN. -/
  | windowFrozen (window : Nat)
  /-- WINDOW_RELEASE (R295). A released window returns its slots to the ring at the boundary. -/
  | windowRelease (window : Nat)
  /-- REPLAY_DONE (R299). After the window's last beat the replay channels go IDLE and the re-solved fix is compared, sealed and notified. -/
  | replayDone (fix : Option NavFix) (tracked : Nat)
  /-- CU_STATUS (R427). Returns state, holder, queue and counts of each cipher unit. -/
  | cuStatus (q : Qcp)
  /-- KEY_DERIVE (R420). Derives a key from a root key into a slot, or rewrites it into the shadow. -/
  | keyDerive (q : Qcp)
  /-- KEY_ERASE (R420). Erases a slot at once, aborting its operations, or after its operations end. -/
  | keyErase (q : Qcp)
  /-- KEY_SLOT_READ (R427). Returns the descriptions of a range of key slots. -/
  | keySlotRead (q : Qcp)
  /-- CIPHER_RUN (R409). Submits a host cipher request as master 0x14, replying ST_ACCEPTED. -/
  | cipherRun (q : Qcp)
  /-- SEAL_CFG (R421). Enables sealing and derives the seal key from the configured root. -/
  | sealCfg (q : Qcp)
  /-- SEAL_NOW (R424). Seals the latest PVT or fused record and replies with it. -/
  | sealNow (q : Qcp)
  /-- SEAL_READ (R427). Returns held sealed records from a counter value. -/
  | sealRead (q : Qcp)
  /-- SEAL_VERIFY (R426). Recomputes and checks a sealed record's CMAC under the current seal key. -/
  | sealVerify (q : Qcp)
  /-- CIPHER_OP_START (R404). A queued request starts on its unit when the unit is free. -/
  | cipherOpStart (unit : Nat)
  /-- CIPHER_OP_COMPLETE (R409). A cipher operation ends, writing its result, scrubbing on failure and releasing its slot use. -/
  | cipherOpComplete (unit : Nat) (how : CipherEnd)
  /-- SEAL_COMPLETE (R424). A seal with an assigned counter completes its record and sends SEAL_RECORD in counter order. -/
  | sealComplete (fault : Bool)
  /-- LEASE_EXPIRY (R408). A lease runs out LEASE ms after acquisition or the holder's last operation. -/
  | leaseExpiry (unit : Nat)
  /-- KEY_EXPIRED (R419). DT reaching a slot's EXPIRY moves it to ERASE_PENDING or EMPTY. -/
  | keyExpired (slot : Nat)
  /-- SLOT_DRAINED (R420). IN_USE reaching 0 activates a pending rewrite or completes a pending erase. -/
  | slotDrained (slot : Nat)
  /-- TRNG_HEALTH_FAIL (R416). A failing TRNG health test stops units from starting blocks. -/
  | trngHealthFail
  /-- TRNG_STALL_TIMEOUT (R416). An operation waiting 10 ms for the TRNG ends with ST_FAULT and is scrubbed. -/
  | trngStallTimeout (unit : Nat) (progress : Nat)
  /-- CU_LOCK_ACQUIRE (R408). Writing ACQUIRE to CU_LOCK takes a free unit's lease for UC. -/
  | cuLockAcquire (unit : Nat) (lease : Nat)
  /-- CU_LOCK_RELEASE (R408). Writing RELEASE to CU_LOCK releases UC's lease after its operations end. -/
  | cuLockRelease (unit : Nat) (lease : Nat)
  /-- CU_EVT_CLEAR (R409). Writing 1 to CU_EVT.DONE clears it and UC interrupt line 5. -/
  | cuEvtClear
  /-- UART_CFG (R431). Sets a UART's owner, framing and divider. -/
  | uartCfg (q : Qcp)
  /-- PERIPH_STATUS (R447). Returns peripheral error, CAN, wheel and transfer counts. -/
  | periphStatus (q : Qcp)
  /-- CARD_CFG (R448). Configures card mode on UA4 or UA5. -/
  | cardCfg (q : Qcp)
  /-- CARD_RESET (R438). Performs a cold or warm card reset with ATR and PPS, or deactivates the card. -/
  | cardReset (q : Qcp) (atr : Option CardAtr)
  /-- CARD_APDU (R438). Sends an APDU under T=0 or T=1, replying ST_ACCEPTED. -/
  | cardApdu (q : Qcp)
  /-- CARD_APDU_COMPLETE (R438). The card exchange ends and COMPLETE carries the response or a timeout. -/
  | cardApduComplete (uart : Nat) (how : CardEnd)
  /-- CARD_WAIT_TIMEOUT (R437). WT ETU without a start bit sets WTO. -/
  | cardWaitTimeout (uart : Nat)
  /-- IMU_CFG (R440). Configures the IMU read schedule and decoding. -/
  | imuCfg (q : Qcp)
  /-- IMU_XFER (R440). Performs one SPI exchange with the IMU between scheduled reads. -/
  | imuXfer (q : Qcp) (miso : Option (List Byte))
  /-- I2C_XFER (R441). Performs a write and optional read on IC0. -/
  | i2cXfer (q : Qcp) (how : I2cEnd)
  /-- CAN_CFG (R442). Configures a CAN FD port. -/
  | canCfg (q : Qcp)
  /-- CAN_MAP (R443). Writes speed-signal map entries and their acceptance filters. -/
  | canMap (q : Qcp)
  /-- CAN_TX (R444). Sends one CAN frame and waits for its acknowledgement. -/
  | canTx (q : Qcp) (how : CanTxEnd)
  /-- CAN_FRAME_RX (R442). A valid received frame is timestamped, mapped to speed signals and optionally notified. -/
  | canFrameRx (f : CanFrame) (sameTick : Bool)
  /-- BUS_OFF_RECOVERY (R442). After 128 occurrences of 11 recessive bits a bus-off port recovers. -/
  | busOffRecovery (port : Nat)
  /-- WT_CFG (R445). Configures the wheel-tick inputs. -/
  | wtCfg (q : Qcp)
  /-- WHEEL_TICK (R445). An accepted wheel-tick edge is timestamped, counted and given its direction. -/
  | wheelTick (input : Nat) (rising : Bool) (pin : Nat)
  /-- GPIO_CFG (R446). Configures one general-purpose pin. -/
  | gpioCfg (q : Qcp)
  /-- GPIO_WRITE (R446). Drives host-owned output pins. -/
  | gpioWrite (q : Qcp)
  /-- GPIO_READ (R446). Returns pin levels, outputs and ownership. -/
  | gpioRead (q : Qcp)
  /-- GPIO_EDGE (R446). An accepted pin edge sets GP_EVT and may send GPIO_EVENT. -/
  | gpioEdge (pin : Nat) (rising : Bool) (sameTick : Bool)
  /-- GP_SET (R446). Writing GP_SET sets UC-owned output bits. -/
  | gpSet (value : Word)
  /-- GP_CLR (R446). Writing GP_CLR clears UC-owned output bits. -/
  | gpClr (value : Word)
  /-- UART_RX_CHAR (R433). A received UART character is delivered to the holding register or the QCP delimiter with its errors. -/
  | uartRxChar (uart : Nat) (line : RxLine)
  /-- UART_CHAR_SENT (R435). The transmit shifter completes a character and takes the next from the holding register. -/
  | uartCharSent (uart : Nat) (low : Bool)
  /-- UA_TX_WRITE (R432). Writing UA_TX places a character in the transmit holding register. -/
  | uaTxWrite (uart : Nat) (value : Word)
  /-- UA_RX_READ (R432). Reading UA_RX with VALID empties the receive holding register. -/
  | uaRxRead (uart : Nat)
  /-- UC_CFG (R403). Sets the UC watchdog, service mask and bank limit. -/
  | ucCfg (q : Qcp)
  /-- UC_STATUS (R403). Returns UC state and counts. -/
  | ucStatus (q : Qcp)
  /-- UC_LOAD (R402). Writes program bytes into a UC-owned bank. -/
  | ucLoad (q : Qcp)
  /-- UC_START (R399). Starts UC at ENTRY from STOPPED. -/
  | ucStart (q : Qcp)
  /-- UC_STOP (R399). Stops UC, its DMA channels, cipher requests and timers. -/
  | ucStop (q : Qcp)
  /-- UC_SWAP (R402). Starts a program swap by suspending UC with line 15 pending. -/
  | ucSwap (q : Qcp)
  /-- SWAP_FORCED (R402). GRACE expiring without SVC 6 forces the swap with hand-over word 0. -/
  | swapForced
  /-- UC_SWAP_RESUME (R402). The new program runs from the next beat boundary and COMPLETE carries the result. -/
  | ucSwapResume
  /-- UC_WATCHDOG (R400). A running UC without SVC 3 for WDOG ms is stopped. -/
  | ucWatchdog
  /-- UC_TIMER_EXPIRY (R395). A UC timer reaching 0 sets PEND and reloads or stops. -/
  | ucTimerExpiry (timer : Nat)
  /-- UC_TMR_CTRL_WRITE (R395). Writing a timer control starts or stops counting, and W1C bits clear PEND and BEATPEND. -/
  | ucTmrCtrlWrite (timer : Nat) (value : Nat)
  /-- EVC_POP (R396). Writing EVC_POP removes the head event record. -/
  | evcPop (value : Nat)
  /-- S15_TXDATA (R397). Writing S15_TXDATA queues four QCP bytes for the command core. -/
  | s15Txdata (value : Nat)
  /-- S15_RXDATA (R397). Reading S15_RXDATA pops four received bytes. -/
  | s15Rxdata
  /-- INTERRUPT_ENTRY (R384). A pending enabled interrupt line is taken at an instruction or REP iteration boundary. -/
  | interruptEntry (core : Nat) (sameTick : Bool)
  /-- BOOT_STATUS (R482). Returns boot slot, trial, rollback, cause and versions. -/
  | bootStatus (q : Qcp)
  /-- FW_WRITE (R477). Writes image bytes to a flash slot. -/
  | fwWrite (q : Qcp) (done : Bool)
  /-- FW_VERIFY (R476). Starts verification of an image slot, replying ST_ACCEPTED. -/
  | fwVerify (q : Qcp)
  /-- FW_VERIFY_COMPLETE (R476). Verification ends and COMPLETE carries the status and versions. -/
  | fwVerifyComplete (image : ImageRead)
  /-- FW_ACTIVATE (R477). Selects a verified slot for trial boot, or commits the running trial. -/
  | fwActivate (q : Qcp)
  /-- LOOP_SWAP (R479). Starts replacing a loop core's firmware with group migration. -/
  | loopSwap (q : Qcp) (image : ImageRead)
  /-- LOOP_SWAP_COMPLETE (R479). The groups return to the restarted core and COMPLETE carries the result. -/
  | loopSwapComplete (core : Nat)
  /-- NAV_SWAP (R480). Starts loading or exchanging the navigation cores. -/
  | navSwap (q : Qcp) (image : ImageRead)
  /-- NAV_SWAP_COMPLETE (R480). The standby core becomes active and COMPLETE carries the result. -/
  | navSwapComplete
  /-- DEVICE_RESET (R482). Resets the device 10 ms after its reply is queued. -/
  | deviceReset (q : Qcp)
  /-- OVERRUN_LOG (R37). Returns overrun records from the log. -/
  | overrunLog (q : Qcp)
  /-- FAULT_LOG (R482). Returns fault or trip-log records. -/
  | faultLog (q : Qcp)
  /-- TEMP_READ (R482). Returns die temperature and its extremes. -/
  | tempRead (q : Qcp)
  /-- COUNTERS (R482). Returns the counters of one opcode group. -/
  | counters (q : Qcp)
  /-- SELFTEST (R482). Starts the selected self-tests, replying ST_ACCEPTED. -/
  | selftest (q : Qcp)
  /-- SELFTEST_COMPLETE (R482). The self-tests end and COMPLETE carries the result. -/
  | selftestComplete (failed : Nat) (codes : List Nat)
  /-- MB_CFG (R346). Sets power state, critical mark and interleaving of a range of banks. -/
  | mbCfg (q : Qcp)
  /-- MB_STATUS (R363). Returns state, owners, spares and error counts of banks. -/
  | mbStatus (q : Qcp)
  /-- MB_OWN_SET (R341). Hands a bank to a new owner, with a drain. -/
  | mbOwnSet (q : Qcp)
  /-- MB_DP_CFG (R343). Switches a bank of MB124–MB127 into or out of dual-port mode. -/
  | mbDpCfg (q : Qcp)
  /-- MARCH_RUN (R350). Starts a destructive or preserving march test on a bank, replying ST_ACCEPTED. -/
  | marchRun (q : Qcp)
  /-- MARCH_END (R364). A march test ends and COMPLETE carries its result. -/
  | marchEnd (fails : List (Nat × Nat)) (micros : Nat)
  /-- MARCH_STATUS (R364). Returns the test in progress and the last result. -/
  | marchStatus (q : Qcp)
  /-- MB_REPAIR (R353). Starts mapping a failing row or column group to a spare, replying ST_ACCEPTED. -/
  | mbRepair (q : Qcp)
  /-- REPAIR_END (R353). A repair ends and COMPLETE carries its result. -/
  | repairEnd (micros : Nat)
  /-- PROT_WINDOW_SET (R355). Writes one protection window of UC. -/
  | protWindowSet (q : Qcp)
  /-- PROT_WINDOW_READ (R355). Returns a core's 32 protection windows. -/
  | protWindowRead (q : Qcp)
  /-- DMA_ASSIGN (R360). Assigns DC8–DC23 to UC or to none. -/
  | dmaAssign (q : Qcp)
  /-- DMA_STATUS (R363). Returns state, master, class and flags of every DMA channel. -/
  | dmaStatus (q : Qcp)
  /-- FREEZE_READ (R363). Returns freeze-log records. -/
  | freezeRead (q : Qcp)
  /-- THAW (R358). Ends a freeze by resume, skip or abort. -/
  | thaw (q : Qcp)
  /-- ECC_READ (R363). Returns ECC-log records. -/
  | eccRead (q : Qcp)
  /-- MEM_READ (R363). Reads managed memory as master 0x14. -/
  | memRead (q : Qcp)
  /-- MEM_WRITE (R363). Writes managed memory as master 0x14. -/
  | memWrite (q : Qcp)
  /-- BANK_POWER_DONE (R345). A bank power transition completes, applying any held request. -/
  | bankPowerDone (bank : Nat)
  /-- HANDOVER_DRAIN (R341). The old owner's granted accesses drain, PEND clears and the new owner's stalled accesses proceed. -/
  | handoverDrain (bank : Nat)
  /-- PATROL_SCRUB (R348). Every 128 clocks the scrubber reads and corrects one word. -/
  | patrolScrub (strike : Option (Nat × Bool))
  /-- DMA_BURST (R359). The DMA engine moves one 64-byte burst of the highest-class ready channel. -/
  | dmaBurst (sameTick : Bool) (clash : Option Clash)
  /-- DMA_START (R362). Writing DMA_CTRL.START runs the channel's chain from DMA_DESC. -/
  | dmaStart (chan : Nat)
  /-- DMA_STOP (R362). Writing DMA_CTRL.STOP stops the channel at the next 64-byte boundary. -/
  | dmaStop (chan : Nat)
  /-- DMA_STATUS_CLEAR (R362). Writing 1 to DMA_STATUS ERR or DONE clears it and UC line 4. -/
  | dmaStatusClear (chan : Nat) (value : Nat)
  /-- MB_COLL_CLEAR (R344). Writing 1 to MB_COLL_INFO.VALID releases the capture and zeroes COUNT. -/
  | mbCollClear (master : Nat) (bank : Nat)
  /-- MB_CTRL_POWER (R346). UC writing MB_CTRL.POWER of its bank requests a power change. -/
  | mbCtrlPower (bank : Nat) (value : Nat)
  /-- REGISTER_WRITE (R4). A write to a register without a row of its own stores or ignores the value under its access code. -/
  | registerWrite (addr : Word) (value : Word)
  /-- TAP_RESET (R500). Five TCK cycles with TMS high reset the debug TAP. -/
  | tapReset
  /-- PROVISION_UPDATE (R502). Update-DR of PROVISION checks and starts programming RK1. -/
  | provisionUpdate (key : BitVec 256) (check : Word)
  /-- PROVISION_DONE (R502). RK1 programming ends DONE or INCOMPLETE. -/
  | provisionDone (blown : Bool)
  /-- MOV (R371). d := g_b. -/
  | mov (x : Fetch)
  /-- ADD (R371). d := d + g_b, wrapping. -/
  | add (x : Fetch)
  /-- SUB (R371). d := d − g_b, wrapping. -/
  | sub (x : Fetch)
  /-- ADDV (R374). Adds with ARITH on signed overflow. -/
  | addv (x : Fetch)
  /-- SUBV (R374). Subtracts with ARITH on signed overflow. -/
  | subv (x : Fetch)
  /-- AND (R371). Bitwise AND. -/
  | and (x : Fetch)
  /-- OR (R371). Bitwise OR. -/
  | or (x : Fetch)
  /-- XOR (R371). Bitwise XOR. -/
  | xor (x : Fetch)
  /-- SHL (R374). Shift left by g_b[7:0]. -/
  | shl (x : Fetch)
  /-- SHR (R374). Logical shift right by g_b[7:0]. -/
  | shr (x : Fetch)
  /-- SAR (R374). Arithmetic shift right by g_b[7:0]. -/
  | sar (x : Fetch)
  /-- ROL (R374). Rotate left mod 32. -/
  | rol (x : Fetch)
  /-- ROR (R374). Rotate right mod 32. -/
  | ror (x : Fetch)
  /-- MUL (R371). Low 32 bits of the product. -/
  | mul (x : Fetch)
  /-- MULH (R371). High 32 bits of the signed product. -/
  | mulh (x : Fetch)
  /-- MULHU (R371). High 32 bits of the unsigned product. -/
  | mulhu (x : Fetch)
  /-- MOVI (R371). d := immediate. -/
  | movi (x : Fetch)
  /-- ADDI (R371). Adds an immediate, wrapping. -/
  | addi (x : Fetch)
  /-- SUBI (R371). Subtracts an immediate, wrapping. -/
  | subi (x : Fetch)
  /-- ADDVI (R374). Adds an immediate with ARITH on overflow. -/
  | addvi (x : Fetch)
  /-- SUBVI (R374). Subtracts an immediate with ARITH on overflow. -/
  | subvi (x : Fetch)
  /-- ANDI (R371). AND with an immediate. -/
  | andi (x : Fetch)
  /-- ORI (R371). OR with an immediate. -/
  | ori (x : Fetch)
  /-- XORI (R371). XOR with an immediate. -/
  | xori (x : Fetch)
  /-- SHLI (R374). Shift left by an immediate. -/
  | shli (x : Fetch)
  /-- SHRI (R374). Logical shift right by an immediate. -/
  | shri (x : Fetch)
  /-- SARI (R374). Arithmetic shift right by an immediate. -/
  | sari (x : Fetch)
  /-- ROLI (R374). Rotate left by an immediate. -/
  | roli (x : Fetch)
  /-- RORI (R374). Rotate right by an immediate. -/
  | rori (x : Fetch)
  /-- MULI (R371). Low 32 bits of the product with an immediate. -/
  | muli (x : Fetch)
  /-- DIV (R374). Signed division; ARITH on 0. -/
  | div (x : Fetch)
  /-- DIVU (R374). Unsigned division; ARITH on 0. -/
  | divu (x : Fetch)
  /-- DIVZ (R374). Signed division; 0 on division by 0. -/
  | divz (x : Fetch)
  /-- DIVZU (R374). Unsigned division; 0 on division by 0. -/
  | divzu (x : Fetch)
  /-- REM (R374). Signed remainder; ARITH on 0. -/
  | rem (x : Fetch)
  /-- REMU (R374). Unsigned remainder; ARITH on 0. -/
  | remu (x : Fetch)
  /-- REMZ (R374). Signed remainder; the dividend on 0. -/
  | remz (x : Fetch)
  /-- REMZU (R374). Unsigned remainder; the dividend on 0. -/
  | remzu (x : Fetch)
  /-- NEG (R374). d := 0 − g_b, wrapping. -/
  | neg (x : Fetch)
  /-- NOT (R371). d := NOT g_b. -/
  | not (x : Fetch)
  /-- SEXB (R371). Sign-extends a byte. -/
  | sexb (x : Fetch)
  /-- SEXH (R371). Sign-extends a halfword. -/
  | sexh (x : Fetch)
  /-- ZEXB (R371). Zero-extends a byte. -/
  | zexb (x : Fetch)
  /-- ZEXH (R371). Zero-extends a halfword. -/
  | zexh (x : Fetch)
  /-- CLZ (R374). Counts leading zeros, 32 for 0. -/
  | clz (x : Fetch)
  /-- POPC (R371). Counts 1 bits. -/
  | popc (x : Fetch)
  /-- SLT (R371). Signed set-less-than. -/
  | slt (x : Fetch)
  /-- SLTU (R371). Unsigned set-less-than. -/
  | sltu (x : Fetch)
  /-- LD (R375). Loads memory into g_a, extended by SX, optionally repeated under REP. -/
  | ld (x : Fetch)
  /-- ST (R375). Stores the low SIZE bits of g_a, optionally repeated under REP. -/
  | st (x : Fetch)
  /-- LEA (R371). g_a := effective address, with no access. -/
  | lea (x : Fetch)
  /-- MVM (R380). Copies memory to memory, optionally repeated under REP. -/
  | mvm (x : Fetch)
  /-- XCHG (R376). Exchanges g_a and memory as a locked read-modify-write. -/
  | xchg (x : Fetch)
  /-- STI (R371). Stores an immediate truncated to SIZE. -/
  | sti (x : Fetch)
  /-- ADDM (R376). Adds an immediate to memory, atomic under LOCK. -/
  | addm (x : Fetch)
  /-- ANDM (R376). ANDs an immediate into memory, atomic under LOCK. -/
  | andm (x : Fetch)
  /-- ORM (R376). ORs an immediate into memory, atomic under LOCK. -/
  | orm (x : Fetch)
  /-- XORM (R376). XORs an immediate into memory, atomic under LOCK. -/
  | xorm (x : Fetch)
  /-- ADDMR (R376). Adds g_a to memory, atomic under LOCK. -/
  | addmr (x : Fetch)
  /-- NOP (R371). No operation. -/
  | nop (x : Fetch)
  /-- WAIT (R384). Stalls until an enabled interrupt line is pending. -/
  | wait (x : Fetch)
  /-- RET (R378). Pops 4 bytes from the return stack into pc. -/
  | ret (x : Fetch)
  /-- RETI (R378). Pops EPC and ESTATUS and returns, acting as FENCE. -/
  | reti (x : Fetch)
  /-- INFO (R398). Service call returning node ID, DT epoch ID and firmware version. -/
  | info (x : Fetch)
  /-- TIME (R398). Service call converting a DT to GPS time and GEN. -/
  | time (x : Fetch)
  /-- PVT_COPY (R398). Service call writing the latest PVT or fused record to UC memory. -/
  | pvtCopy (x : Fetch)
  /-- WDOG (R398). Service call restarting the UC watchdog. -/
  | wdog (x : Fetch)
  /-- LOG (R398). Service call sending UC_EVENT LOG with a value. -/
  | log (x : Fetch)
  /-- NEXT_BEAT (R398). Service call returning at the next beat boundary. -/
  | nextBeat (x : Fetch)
  /-- SWAP_READY (R402). Service call handing over to the swap with a hand-over word. -/
  | swapReady (x : Fetch)
  /-- BRK (R382). Raises BREAK. -/
  | brk (x : Fetch)
  /-- FENCE (R377). Completes every earlier access before any later one. -/
  | fence (x : Fetch)
  /-- JMP (R371). Jumps by an offset. -/
  | jmp (x : Fetch)
  /-- CALL (R378). Pushes the return address and jumps by an offset. -/
  | call (x : Fetch)
  /-- JMPR (R371). Jumps to g_b. -/
  | jmpr (x : Fetch)
  /-- CALLR (R378). Pushes the return address and jumps to g_b. -/
  | callr (x : Fetch)
  /-- BEQ (R379). Branches if equal. -/
  | beq (x : Fetch)
  /-- BNE (R379). Branches if not equal. -/
  | bne (x : Fetch)
  /-- BLT (R379). Branches if signed less. -/
  | blt (x : Fetch)
  /-- BGE (R379). Branches if signed greater or equal. -/
  | bge (x : Fetch)
  /-- BLTU (R379). Branches if unsigned less. -/
  | bltu (x : Fetch)
  /-- BGEU (R379). Branches if unsigned greater or equal. -/
  | bgeu (x : Fetch)
  /-- BEQI (R379). Branches if equal to an immediate. -/
  | beqi (x : Fetch)
  /-- BNEI (R379). Branches if not equal to an immediate. -/
  | bnei (x : Fetch)
  /-- BLTI (R379). Branches if signed less than an immediate. -/
  | blti (x : Fetch)
  /-- BGEI (R379). Branches if signed greater or equal to an immediate. -/
  | bgei (x : Fetch)
  /-- BLTUI (R379). Branches if unsigned less than an immediate. -/
  | bltui (x : Fetch)
  /-- BGEUI (R379). Branches if unsigned greater or equal to an immediate. -/
  | bgeui (x : Fetch)
  /-- BGTI (R379). Branches if signed greater than an immediate. -/
  | bgti (x : Fetch)
  /-- BLEI (R379). Branches if signed less or equal to an immediate. -/
  | blei (x : Fetch)
  /-- BGTUI (R379). Branches if unsigned greater than an immediate. -/
  | bgtui (x : Fetch)
  /-- BLEUI (R379). Branches if unsigned less or equal to an immediate. -/
  | bleui (x : Fetch)
  /-- DBNZ (R371). Decrements g_a and branches if not zero. -/
  | dbnz (x : Fetch)
  /-- MFS (R381). Reads a special register. -/
  | mfs (x : Fetch)
  /-- MTS (R381). Writes a special register, TOPPC through the return-stack path. -/
  | mts (x : Fetch)
  /-- CUSTOMER_EXTENSION (R390). On UC a lead byte 0xE8–0xEF raises EXT for emulation. -/
  | customerExtension (x : Fetch)
  /-- SNAP (R387). Latches DT, B and t of one tick and returns DT low. -/
  | snap (x : Fetch)
  /-- MFC (R387). Reads a CP2 latch word. -/
  | mfc (x : Fetch)
  /-- MTC (R387). Writes a CP2 latch word. -/
  | mtc (x : Fetch)
  /-- EPOCH (R387). Returns the DT epoch ID. -/
  | epoch (x : Fetch)
  /-- SUBMIT (R388). Hands a cipher request block to a unit and returns accept or refusal. -/
  | submit (x : Fetch)
  /-- STATUS (R388). Returns the status of the core's latest cipher request. -/
  | status (x : Fetch)
  /-- CANCEL (R388). Cancels the latest cipher request at its next block boundary. -/
  | cancel (x : Fetch)
  /-- FLD (R389). Loads an FP64 register from memory. -/
  | fld (x : Fetch)
  /-- FST (R389). Stores an FP64 register to memory. -/
  | fst (x : Fetch)
  /-- FMOV (R389). Copies an FP64 register. -/
  | fmov (x : Fetch)
  /-- FADD (R389). FP64 addition. -/
  | fadd (x : Fetch)
  /-- FSUB (R389). FP64 subtraction. -/
  | fsub (x : Fetch)
  /-- FMUL (R389). FP64 multiplication. -/
  | fmul (x : Fetch)
  /-- FDIV (R389). FP64 division. -/
  | fdiv (x : Fetch)
  /-- FSQRT (R389). FP64 square root. -/
  | fsqrt (x : Fetch)
  /-- FNEG (R389). FP64 negation. -/
  | fneg (x : Fetch)
  /-- FCVTIF (R389). Converts a signed integer to FP64. -/
  | fcvtif (x : Fetch)
  /-- FCVTFI (R389). Converts FP64 to a saturated integer. -/
  | fcvtfi (x : Fetch)
  /-- FCMP (R389). Compares two FP64 registers into the status. -/
  | fcmp (x : Fetch)
  /-- FSTAT (R389). Reads the CP0 status. -/
  | fstat (x : Fetch)
  /-- FCLR (R389). Clears the CP0 sticky bits. -/
  | fclr (x : Fetch)
  /-- MXRUN (R389). Runs an FP64 matrix multiply-accumulate from a descriptor. -/
  | mxrun (x : Fetch)
  /-- CMUL (R389). Complex multiply with shift. -/
  | cmul (x : Fetch)
  /-- CMULC (R389). Complex multiply by the conjugate with shift. -/
  | cmulc (x : Fetch)
  /-- CPOW (R389). 64-bit power of a complex pair. -/
  | cpow (x : Fetch)
  /-- CMAG (R389). Magnitude of a complex pair. -/
  | cmag (x : Fetch)
  /-- CATAN (R389). Phase of a complex pair. -/
  | catan (x : Fetch)
  /-- CNORM (R389). Normalised difference of two values. -/
  | cnorm (x : Fetch)
  /-- ILLEGAL_INSTRUCTION (R372). A core fetches an undefined opcode byte, or a coprocessor or extension lead byte not of its core, and raises ILLEGAL with no effect. -/
  | illegalInstruction (x : Fetch)
  /-- UNDEFINED_SERVICE (R398). SVC with an undefined n returns ST_BAD_OPCODE in g0. -/
  | undefinedService (x : Fetch)
  /-- SPI_TRANSFER (R308). The host clocks bytes on HS0 or HS1; the device shifts its output queue onto MISO and deasserts ATN_N when the queue empties. -/
  | spiTransfer (port : Nat) (mosi : List Byte)
  /-- SYNC_RECEIPT_TIMEOUT (R278). No Sync accepted for 3 sync intervals unlocks a slave port. -/
  | syncReceiptTimeout (port : Nat)
  /-- CAN_BUS_ERROR (R442). A bus error moves a CAN port's error counters and may enter error-passive or bus-off, sending PERIPH_CHECK. -/
  | canBusError (port : Nat) (transmit : Bool) (heavy : Bool)
  /-- TRNG_HEALTH_PASS (R416). The TRNG health tests pass again and units may start blocks. -/
  | trngHealthPass
  /-- WAKE_WIDTH_EXPIRY (R467). WAKE_WIDTH ms after ASSERT_WAKE the WAKE output is released. -/
  | wakeWidthExpiry
  /-- HOLDUP_MEASUREMENT_END (R458). The 10 ms capacitance measurement ends, computes C, resumes the charge and sends LOW_CAP if below 176 µF. -/
  | holdupMeasurementEnd (dropUv : Nat)
  deriving DecidableEq, Repr

end Sys2Proof
end

