-- ==== Sys2Proof/Decode.lean ====
section
/-! DEFINITION. Words of the table: the spec gives its rows no bits. -/

namespace Sys2Proof

/-- The command that a word spells by the table's bits.  No row of the table gives bits, so no word spells one. DEDUCED (log 13). -/
def decodeTableWord (_nbits _w : Nat) : Option Instr := none

end Sys2Proof
end

