-- ==== Sys2Proof/Config.lean ====
section
/-! DEFINITION. What the part fixes and the spec does not say, and the free values: opaque constants that no proof can see through. -/

namespace Sys2Proof

/-- GRADE of the part: 0 AQ, 1 TQ (R2, R324). PRESUMED (log 9). -/
opaque Config.grade : BitVec 8

/-- SERIAL from OTP (R324). PRESUMED (log 9). -/
opaque Config.serial : BitVec 64

/-- The root keys RK0 and RK2 in OTP, RK2 where it is written (R417). PRESUMED (log 9). -/
opaque Config.rk0 : BitVec 256
/-- PRESUMED (log 9). -/
opaque Config.rk2 : Option (BitVec 256)

/-- A field whose value the spec leaves open: the site of the field and a stamp that is fresh at every use. DESIGN CHOICE (log 8). -/
opaque Config.openWord : Nat → Nat → BitVec 64

/-- A byte of memory whose contents the spec leaves undefined: the stamp of the event that left it so, and its address (R338, R364). DEDUCED (log 4). -/
opaque Config.freeByte : Nat → Nat → Byte

/-- Output of a notch over one beat: the spec gives its recurrence over reals and no precision (R54).  Stamp, frequency, NOTCH_WIDTH, samples. DESIGN CHOICE (log 24). -/
opaque Config.notchOut : Nat → Int → Nat → List (Int × Int) → List (Int × Int)

/-- Frequency of an adapting notch at the end of a beat (R54).  Stamp, frequency before, NOTCH_STEP, samples. DESIGN CHOICE (log 24). -/
opaque Config.notchFreq : Nat → Int → Nat → List (Int × Int) → Int

/-- Output sample of a sub-band filter in 2⁻¹⁶ LSB: the spec gives the response and no coefficients (R58).  Stamp, MIX_WORD, input rate code, RATE, samples, index. DESIGN CHOICE (log 24). -/
opaque Config.subbandOut : Nat → Int → Nat → Nat → List (Int × Int) → Nat → Int × Int

/-- Chip of a catalogue code: signal, SAT, component (0 data, 1 pilot), chip slot.  The codes themselves are in their own specifications (R96). PRESUMED (log 9). -/
opaque Config.chip : Nat → Nat → Nat → Nat → Int

/-- Secondary chip of a catalogue code, true for −1: signal, SAT, component, index (R98). PRESUMED (log 9). -/
opaque Config.secChip : Nat → Nat → Nat → Nat → Bool

/-- Real functions that the spec's formulas use; their precision is not stated.  Angles are in cycles. -/
inductive RealFn where
  | sqrt | log10 | pow10 | sin | cos | atan
  deriving DecidableEq, Repr

/-- The value the device computes for a real function. DESIGN CHOICE (log 10). -/
opaque Config.fn : RealFn → Rat → Rat

/-- The angle of (y, x) that the device computes, in cycles. DESIGN CHOICE (log 10). -/
opaque Config.atan2 : Rat → Rat → Rat

/-- The chi-square quantile: degrees of freedom, and the exponent of the false-alarm probability (R197). PRESUMED (log 9). -/
opaque Config.chi2 : Nat → Nat → Rat

/-- A rational number whose value the spec leaves open: site and stamp. DESIGN CHOICE (log 8). -/
opaque Config.openRat : Nat → Nat → Rat

/-- DATUM of a DGNSS solution is 3 rather than 0: R196 and R220 differ. DESIGN CHOICE (log 36). -/
opaque Config.dgnssDatum : Bool

/-- The vendor MAC address of a port, from OTP (Table 11.1). PRESUMED (log 9). -/
opaque Config.vendorMac : Nat → BitVec 48

/-- offsetScaledLogVariance that the device announces. DESIGN CHOICE (log 44). -/
opaque Config.ptpVariance : BitVec 16

/-- Gains of the port filter, which the spec calls a second-order loop of bandwidth PTP_BW (R278): bandwidth in mHz and LOG_SYNC; phase gain and rate gain per s. DESIGN CHOICE (log 44). -/
opaque Config.ptpGain : Nat → Int → Rat × Rat

/-- An edge that is no multiple of 16 DT units is placed on the next multiple rather than on the one before (R252). DESIGN CHOICE (log 21). -/
opaque Config.edgeUp : Nat → Bool

end Sys2Proof
end

