-- ==== Sys2Proof/Machine/Bytes.lean ====
section
/-! DEFINITION. Little-endian fields of payloads and records (R7), the CRC-32C of R304 and the sparse tables. -/

namespace Sys2Proof.Machine
open Sys2Proof

/-- The value of a little-endian byte string (R7). -/
def leNat : List Byte → Nat
  | [] => 0
  | b :: bs => b.toNat + 256 * leNat bs

/-- `n` little-endian bytes of a value, modulo 2^(8n) (R7). -/
def leBytes : Nat → Nat → List Byte
  | 0, _ => []
  | n + 1, v => BitVec.ofNat 8 v :: leBytes n (v / 256)

/-- Two's complement reading of an `n`-byte value (R7). -/
def toSigned (n v : Nat) : Int := if v < 2 ^ (8 * n - 1) then (v : Int) else (v : Int) - (2 ^ (8 * n) : Nat)

/-- Two's complement bytes of an integer (R7). -/
def leBytesI (n : Nat) (v : Int) : List Byte := leBytes n (v % ((2 ^ (8 * n) : Nat) : Int)).toNat

/-- The unsigned field of `n` bytes at an offset; bytes beyond the end read 0. -/
def fieldU (p : List Byte) (off n : Nat) : Nat := leNat ((p.drop off).take n)

/-- The signed field of `n` bytes at an offset. -/
def fieldI (p : List Byte) (off n : Nat) : Int := toSigned n (fieldU p off n)

/-- The bytes of a field. -/
def fieldB (p : List Byte) (off n : Nat) : List Byte := (p.drop off).take n

/-- Bit `n` of a number. -/
def bitOf (v n : Nat) : Bool := v / 2 ^ n % 2 == 1

/-- Bits `hi` to `lo` of a number. -/
def bitsOf (v hi lo : Nat) : Nat := v / 2 ^ lo % 2 ^ (hi + 1 - lo)

def u8 (v : Nat) : List Byte := leBytes 1 v
def u16 (v : Nat) : List Byte := leBytes 2 v
def u32 (v : Nat) : List Byte := leBytes 4 v
def u64 (v : Nat) : List Byte := leBytes 8 v
def i8 (v : Int) : List Byte := leBytesI 1 v
def i16 (v : Int) : List Byte := leBytesI 2 v
def i32 (v : Int) : List Byte := leBytesI 4 v
def i64 (v : Int) : List Byte := leBytesI 8 v
def ub (b : Bool) : List Byte := u8 (if b then 1 else 0)

/-- Reserved bytes, which read as 0 (R5). DEDUCED (log 16). -/
def rsv (n : Nat) : List Byte := List.replicate n 0

/-- A bit string as a number: bit 0 first. -/
def boolBits : List Bool → Nat
  | [] => 0
  | b :: bs => (if b then 1 else 0) + 2 * boolBits bs

/-- A count that saturates at 32 bits. -/
def sat32 (n : Nat) : Nat := min n 0xFFFFFFFF

/-- A value kept within a range. -/
def clampI (lo hi v : Int) : Int := max lo (min hi v)

/-- One bit of the reflected CRC-32C (R304). -/
def crcBit (c : Nat) : Nat := if c % 2 == 1 then (c / 2) ^^^ 0x82F63B78 else c / 2

/-- One byte of the CRC-32C. -/
def crcByte (c : Nat) (b : Byte) : Nat :=
  crcBit (crcBit (crcBit (crcBit (crcBit (crcBit (crcBit (crcBit (c ^^^ b.toNat))))))))

/-- CRC-32C: initial value and final XOR 0xFFFF_FFFF, reflected (R304). -/
def crc32c (bs : List Byte) : Nat := (bs.foldl crcByte 0xFFFFFFFF) ^^^ 0xFFFFFFFF

/-- The entry of a sparse table, or its default. -/
def Tab.get {α : Type} (d : α) : Tab α → Nat → α
  | [], _ => d
  | (k, v) :: t, i => if k == i then v else Tab.get d t i

/-- Write an entry of a sparse table: an entry equal to the default is not listed. -/
def Tab.set {α : Type} [DecidableEq α] (d : α) : Tab α → Nat → α → Tab α
  | [], i, v => if v = d then [] else [(i, v)]
  | (k, w) :: t, i, v =>
    if i < k then (if v = d then (k, w) :: t else (i, v) :: (k, w) :: t)
    else if i = k then (if v = d then t else (i, v) :: t)
    else (k, w) :: Tab.set d t i v

/-- Drop the entries that equal the default. -/
def Tab.norm {α : Type} [DecidableEq α] (d : α) (t : Tab α) : Tab α := t.filter fun x => decide (x.2 ≠ d)

/-- Change one element of a list. -/
def modAt {α : Type} (l : List α) (i : Nat) (f : α → α) : List α := l.modify i f

/-- Append to a log that keeps its last `cap` records. -/
def pushCap {α : Type} (cap : Nat) (l : List α) (x : α) : List α := (l ++ [x]).drop (l.length + 1 - cap)

/-- The nearest integer of a / b, ties away from zero, for b > 0. DESIGN CHOICE (log 10). -/
def roundDiv (a : Int) (b : Nat) : Int :=
  if a < 0 then -(((-a).toNat * 2 + b) / (2 * b) : Nat) else ((a.toNat * 2 + b) / (2 * b) : Nat)

end Sys2Proof.Machine
end

