-- ==== Sys2Proof/Machine/StateSys.lean ====
section
/-! DEFINITION. State of the timebase (R23–R30), of the overrun log (R36, R37) and of the command protocol (R303–R325). -/

namespace Sys2Proof.Machine

/-- The grid of ordering ticks, beats and device time (R23–R29). DEDUCED (log 20). -/
structure TimeBase where
  /-- DT runs (R27, R30); it stands while PD13 is off -/
  running : Bool
  /-- device time, 64 bits, units of 2⁻⁶ ns (R24) -/
  dt : DT
  /-- the 4-bit phase accumulator, 0 to 12 (R24) -/
  acc : Nat
  /-- beat index B, a 64-bit count that does not wrap in service life (R23, R28) -/
  beat : Nat
  /-- tick number t in the beat, 0 to 25,999 (R23) -/
  tick : Nat
  deriving DecidableEq, Repr

/-- One overrun record (Table 2.2). -/
structure OverrunRec where
  beat : Nat
  /-- 1 SHORT dump, 2 NCO_LATE -/
  kind : Nat
  group : Nat
  count : Nat
  first : Nat
  unit : Nat
  deficit : Nat
  deriving DecidableEq, Repr

/-- The overrun log (R37): the last 256 records, oldest first, and the saturating count of overwritten ones. -/
structure OverrunLog where
  recs : List OverrunRec
  overwritten : Nat
  /-- records of the beat in which they were detected, waiting for the notice of the next beat (R37) -/
  toNotify : List OverrunRec
  deriving DecidableEq, Repr

/-- What a frame of the device is (Table 13.1, SESS[7:4]). -/
inductive FrameKind where
  | reply | notice
  deriving DecidableEq, Repr

/-- A QCP frame the device sends (Table 13.1), without SYNC, LEN, VER and CRC, which are the same for all. -/
structure Frame where
  kind : FrameKind
  sess : Nat
  seq : BitVec 16
  opc : Nat
  flg : BitVec 8
  stat : Nat
  payload : List Byte
  deriving DecidableEq, Repr

/-- An item of a transport's output queue (R309, R310). -/
inductive OutBody where
  /-- NAK with CAUSE and COUNT -/
  | nak (cause count : Nat)
  | frame (f : Frame)
  deriving DecidableEq, Repr

/-- A queued item and where it goes. -/
structure OutItem where
  dst : Endpoint
  body : OutBody
  deriving DecidableEq, Repr

/-- One of the eleven transports of Table 13.3. -/
structure Transport where
  /-- TRANSPORT_CFG.ENABLE (Table 13.6) -/
  enable : Bool
  /-- TRANSPORT_CFG.CEILING: 0 observer, 1 operator, 2 owner -/
  ceiling : Nat
  /-- TRANSPORT_CFG.QCP_PORT, used by EP0 and EP1 -/
  qcpPort : Nat
  /-- NAK count modulo 256 (R309) -/
  nakCount : Nat
  /-- the output queue, first to send first (R310) -/
  out : List OutItem
  /-- bytes of the first item already sent (R308) -/
  sent : Nat
  /-- receive buffer: bytes of the frame that is arriving, at most 16 KiB (R307) -/
  rx : List Byte
  /-- bytes the device shifted onto MISO in the last SPI transfer (R308) -/
  miso : List Byte
  deriving DecidableEq, Repr

/-- The binding of an open session (R311). -/
structure Binding where
  transport : Nat
  ep : Endpoint
  deriving DecidableEq, Repr

/-- One QCP session (R311–R319). -/
structure Session where
  /-- none: closed -/
  binding : Option Binding
  /-- 0 observer, 1 operator, 2 owner -/
  priv : Nat
  /-- NOTICE_MASK, bits 16 to 0 -/
  mask : BitVec 32
  /-- highest executed SEQ (R315) -/
  last : BitVec 16
  /-- executed mask: bit i for SEQ LAST − i (R315) -/
  executed : BitVec 64
  /-- HISTORY: 0 none, 1 valid, 2 unknown (R318) -/
  history : Nat
  /-- SEQ and opcode of commands past step 4 that have not replied (R316) -/
  running : List (BitVec 16 × Nat)
  /-- reply cache: at most 64 replies (R317) -/
  cache : List (BitVec 16 × Frame)
  /-- SEQ of the next notice (R319) -/
  noticeSeq : BitVec 16
  /-- notices discarded and not yet reported by NOTICE_LOST, saturating at 32 bits (R319) -/
  lostPending : Nat
  /-- notice SEQ of the first of them (R324) -/
  firstLost : BitVec 16
  /-- NOTICES_LOST of SESSION_STATUS (R324) -/
  lostTotal : Nat
  deriving DecidableEq, Repr

/-- The session and SEQ that a deferred command completes to (R317). -/
structure Origin where
  sess : Nat
  seq : BitVec 16
  opc : Nat
  deriving DecidableEq, Repr

def TimeBase.reset : TimeBase := { running := false, dt := 0, acc := 0, beat := 0, tick := 0 }

def OverrunLog.reset : OverrunLog := { recs := [], overwritten := 0, toNotify := [] }

def Endpoint.zero : Endpoint := { addr := 0, port := 0 }

/-- First power-on values of Table 13.6. -/
def Transport.reset (n : Nat) : Transport :=
  { enable := n == 0 || n == 1 || n == 2 || n == 10, ceiling := if n == 0 || n == 2 then 2 else 1
    qcpPort := 48821, nakCount := 0, out := [], sent := 0, rx := [], miso := [] }

def Session.reset : Session :=
  { binding := none, priv := 0, mask := 0, last := 0, executed := 0, history := 0, running := [], cache := []
    noticeSeq := 0, lostPending := 0, firstLost := 0, lostTotal := 0 }

end Sys2Proof.Machine
end

