-- ==== Sys2Proof/Machine/StateCipher.lean ====
section
/-! DEFINITION. State of the cipher units, key slots and sealing (R404–R429). -/

namespace Sys2Proof.Machine
open Sys2Proof

/-- An accepted cipher request (Table 18.4) and who made it. -/
structure CipherReq where
  unit : Nat
  mode : Nat
  slot : Nat
  flags : Nat
  src : Nat
  dst : Nat
  length : Nat
  aad : Nat
  aadLen : Nat
  tagLen : Nat
  iv : List Byte
  tag : Nat
  /-- 0x07 UC or 0x14 host (R407) -/
  master : Nat
  /-- CIPHER_RUN: the command it completes -/
  origin : Option Origin
  /-- CP3: the address of the result, g_a + 48 (R409) -/
  resultAt : Nat
  /-- unwrapped DT of acceptance -/
  accepted : Nat
  /-- UC's latest request, which CP3 STATUS and CANCEL act on -/
  latest : Bool
  /-- the key it was accepted with (R420) -/
  key : List Byte
  /-- an abort is due at the next block boundary: the status to report, and CAUSE of ST_KEY_REVOKED -/
  abort : Option Nat
  deriving DecidableEq, Repr

/-- One cipher unit (R404, R408, R415). -/
structure CipherUnit where
  running : Option CipherReq
  /-- at most 4 requests waiting, in acceptance order -/
  queue : List CipherReq
  /-- HOLDER: 0xFF none -/
  holder : Nat
  /-- LEASE, ms, as written -/
  lease : Nat
  /-- length in force of the lease held, ms, and the unwrapped DT its count started at -/
  leaseMs : Nat
  leaseFrom : Nat
  /-- RELEASE waits for the holder's operations -/
  releasing : Bool
  disabled : Bool
  /-- unwrapped DT of the mismatches of the last second -/
  mismatches : List Nat
  ops : Nat
  deriving DecidableEq, Repr

/-- A derived key and what binds it (R418, R419). -/
structure SlotKey where
  key : List Byte
  policy : BitVec 16
  root : Nat
  labelLen : Nat
  labelCrc : Nat
  masters : BitVec 32
  /-- 0xFFFF_FFFF: unlimited -/
  uses : Nat
  expiry : DT
  deriving DecidableEq, Repr

/-- Slot states (Table 18.10). -/
inductive SlotState where
  | empty | active | rewritePending | erasePending
  deriving DecidableEq, Repr

/-- One key slot (R419). -/
structure KeySlot where
  state : SlotState
  cur : SlotKey
  shadow : Option SlotKey
  inUse : Nat
  /-- a deferred KEY_ERASE made the slot ERASE_PENDING, not expiry or exhaustion -/
  erase : Bool
  deriving DecidableEq, Repr

/-- SEAL_CFG (Table 18.13), kept in MRAM. -/
structure SealCfg where
  enable : Bool
  slot : Nat
  root : Nat
  source : Coded Nat
  decim : Coded Nat
  keyGen : Nat
  deriving DecidableEq, Repr

/-- A seal whose counter value is assigned (R424): bytes 0 to 47 of its record. -/
structure SealJob where
  ctr : Nat
  body : List Byte
  deriving DecidableEq, Repr

/-- Sealing (R421–R425). -/
structure Seal where
  cfg : SealCfg
  /-- the highest counter value assigned or skipped; 0 before the first -/
  last : Nat
  /-- 0: no value was ever assigned -/
  any : Bool
  /-- records of SOURCE since ENABLE, for DECIM -/
  count : Nat
  jobs : List SealJob
  /-- counter value and record, oldest first, at most 256 -/
  log : List (Nat × List Byte)
  deriving DecidableEq, Repr

/-- The cipher block. -/
structure Cipher where
  units : List CipherUnit
  slots : List KeySlot
  /-- CU_EVT.STATUS and CU_EVT.DONE -/
  evtStatus : Nat
  evtDone : Bool
  /-- status of UC's latest request for CP3 STATUS (R409) -/
  ucStatus : Nat
  /-- a TRNG health test fails (R416), since this unwrapped DT -/
  trngFail : Option Nat
  deriving DecidableEq, Repr

def CipherUnit.reset (n : Nat) : CipherUnit :=
  { running := none, queue := [], holder := if n = 7 then 0 else 0xFF, lease := 0, leaseMs := 0, leaseFrom := 0, releasing := false
    disabled := false, mismatches := [], ops := 0 }

def SlotKey.reset : SlotKey :=
  { key := [], policy := 0, root := 0, labelLen := 0, labelCrc := 0, masters := 0, uses := 0, expiry := 0 }

def KeySlot.reset : KeySlot := { state := .empty, cur := SlotKey.reset, shadow := none, inUse := 0, erase := false }

def SealCfg.reset : SealCfg := { enable := false, slot := 0, root := 0, source := .at 0, decim := .at 0, keyGen := 0 }

def Seal.reset : Seal := { cfg := SealCfg.reset, last := 0, any := false, count := 0, jobs := [], log := [] }

def Cipher.reset : Cipher :=
  { units := (List.range 8).map CipherUnit.reset, slots := List.replicate 32 KeySlot.reset, evtStatus := 0, evtDone := false
    ucStatus := 0, trngFail := none }

end Sys2Proof.Machine
end

