-- ==== Sys2Proof/Machine/StateCores.lean ====
section
/-! DEFINITION. State of the Torpin cores (R367, R381, R387, R389) and of the customer core's blocks (R392–R403). -/

namespace Sys2Proof.Machine
open Sys2Proof

/-- How a core stands (R356, R384, R385). -/
inductive CoreMode where
  | stopped | running | frozen
  /-- stalled in WAIT (R384) -/
  | waiting
  /-- stalled in SVC 5 until the next beat boundary -/
  | svcBeat
  deriving DecidableEq, Repr

/-- A read of a core that stalls on an UNVERIFIED range (R414): what a freeze record of kind TAG would carry. -/
structure Stall where
  addr : Nat
  size : Nat
  access : Nat
  rep : Bool
  locked : Bool
  next : Word
  instr : List Byte
  deriving DecidableEq, Repr

/-- The architectural state of one core (R367). -/
structure Core where
  mode : CoreMode
  /-- g0–g15 -/
  g : List Word
  pc : Word
  rsp : Word
  /-- EVB, bits 9 to 0 zero -/
  evb : Word
  /-- ESTATUS.IE -/
  ie : Bool
  /-- an MTS set IE: it takes effect after the next instruction (Table 16.9) -/
  ieNext : Bool
  ecause : BitVec 8
  eaddr : Word
  imask : BitVec 16
  elen : Nat
  /-- lines pending of firmware-internal sources on a vendor core (R384) -/
  lines : BitVec 16
  /-- CP2 latch c0–c4 (R387) -/
  latch : List Word
  /-- CP0 registers f0–f15 and status bits 6 to 0 (R389) -/
  f : List (BitVec 64)
  fstat : BitVec 7
  /-- address after the instruction in progress, for a thaw with skip (R358) -/
  skipTo : Word
  stall : Option Stall
  deriving DecidableEq, Repr

/-- States of UC (R399). -/
inductive UcState where
  | stopped | running | frozen | suspending
  deriving DecidableEq, Repr

/-- One UC timer (Tables 17.3, 17.4). -/
structure UcTimer where
  load : Nat
  count : Nat
  beatPend : Bool
  pend : Bool
  beat : Bool
  periodic : Bool
  en : Bool
  /-- BEAT = 1: COUNT loads at the next beat boundary -/
  armed : Bool
  deriving DecidableEq, Repr

/-- A swap in progress (R402). -/
structure UcSwap where
  entry : Word
  /-- unwrapped DT at which GRACE ends, and at which the swap committed -/
  graceEnd : Nat
  start : Nat
  origin : Origin
  /-- the hand-over is done: hand-over word and FORCED -/
  handed : Option (Word × Bool)
  /-- beat in which it was done -/
  handBeat : Nat
  deriving DecidableEq, Repr

/-- The customer core's own blocks (R393–R403). -/
structure UcBlock where
  state : UcState
  entry : Word
  wdog : Nat
  svcMask : BitVec 16
  bankLimit : Nat
  /-- ordering ticks left of the watchdog -/
  wdogLeft : Nat
  svcCount : Nat
  swaps : Nat
  freezes : Nat
  evcDropped : Nat
  timers : List UcTimer
  /-- event capture FIFO: 32-byte records, at most 16, and OVF (R396) -/
  evc : List (List Byte)
  evcOvf : Bool
  /-- a dropped record: the next one entered carries OVERFLOW -/
  evcMark : Bool
  /-- session 15 transmit FIFO in bytes, and TX_OVF (R397) -/
  tx : List Byte
  txOvf : Bool
  /-- session 15 receive FIFO in bytes, at most 16,384 -/
  rx : List Byte
  swap : Option UcSwap
  deriving DecidableEq, Repr

/-- A core at its start (R367): every register 0. -/
def Core.reset : Core :=
  { mode := .stopped, g := List.replicate 16 0, pc := 0, rsp := 0, evb := 0, ie := false, ieNext := false, ecause := 0, eaddr := 0
    imask := 0, elen := 0, lines := 0, latch := List.replicate 5 0, f := List.replicate 16 0, fstat := 0, skipTo := 0, stall := none }

/-- DESIGN CHOICE (log 6). -/
def UcTimer.reset : UcTimer :=
  { load := 1, count := 0, beatPend := false, pend := false, beat := false, periodic := false, en := false, armed := false }

def UcBlock.reset : UcBlock :=
  { state := .stopped, entry := 0, wdog := 0, svcMask := 0x7F, bankLimit := 16, wdogLeft := 0, svcCount := 0, swaps := 0
    freezes := 0, evcDropped := 0, timers := [UcTimer.reset, UcTimer.reset], evc := [], evcOvf := false, evcMark := false
    tx := [], txOvf := false, rx := [], swap := none }

end Sys2Proof.Machine
end

