-- ==== Sys2Proof/Machine/StateDomain.lean ====
section
/-! DEFINITION. State of corrections, of the Quothar domain and of the reference station (R213–R240). -/

namespace Sys2Proof.Machine
open Sys2Proof

/-- CORR_CFG (Table 9.7). -/
structure CorrCfg where
  sources : Nat
  orbPrio : Nat
  sbasSat : Nat
  /-- AGE_OBS, AGE_CODE, AGE_ORB, AGE_CLK, AGE_BIAS, AGE_ATMO in s -/
  ages : List Nat
  range : Nat
  switchGain : Nat
  deriving DecidableEq, Repr

/-- An observation epoch of a station (R216). -/
structure ObsEpoch where
  /-- reference time, GPS ns -/
  time : Nat
  frames : List (List Byte)
  /-- satellites observed -/
  sats : List Nat
  /-- unwrapped DT of the first message -/
  since : Nat
  complete : Bool
  deriving DecidableEq, Repr

/-- A held station (R216). -/
structure Station where
  /-- 0–3 stream, or 4 QDP with the node -/
  source : Nat
  node : Nat
  id : Nat
  /-- ECEF in 0.1 mm -/
  arp : Option (List Int)
  desc : List (List Byte)
  /-- the epoch that collects and the latest complete one -/
  open_ : Option ObsEpoch
  obs : Option ObsEpoch
  /-- observations held for an ARP: unwrapped DT since -/
  waitSince : Option Nat
  heard : Nat
  /-- frames already applied, by epoch -/
  last : List (List Byte)
  deriving DecidableEq, Repr

/-- A state-space or code correction: source (1 RTCM SSR, 2 HAS, 3 SBAS), kind, satellite, IOD, reference time, validity end, components in 0.1 mm. -/
structure Correction where
  source : Nat
  /-- 0 orbit, 1 clock, 2 code bias, 3 phase bias, 4 atmosphere -/
  kind : Nat
  sat : Nat
  iod : Nat
  time : Nat
  until_ : Nat
  value : List Int
  deriving DecidableEq, Repr

/-- HAS pages of a message ID (R219). -/
structure HasMsg where
  id : Nat
  size : Nat
  pages : List (Nat × List Byte)
  since : Nat
  deriving DecidableEq, Repr

/-- An SBAS satellite (R221). -/
structure SbasSat where
  sat : Nat
  /-- mask, fast, long-term and ionospheric corrections held: unwrapped DT until which -/
  until_ : List Nat
  /-- unusable until this unwrapped DT -/
  unusable : Option Nat
  deriving DecidableEq, Repr

/-- ATMO of a reference (R228, R233). -/
structure Atmo where
  node : Nat
  time : Nat
  arp : List Int
  zwd : Nat
  zwdSig : Nat
  radius : Nat
  entries : List (Nat × Nat × Int × Nat)
  deriving DecidableEq, Repr

/-- DOMAIN_CFG (Table 9.9). -/
structure DomainCfg where
  enable : Bool
  roles : Nat
  transport : Nat
  gmPriority : Nat
  port : Nat
  helloInt : Nat
  mcast : Nat
  keySlot : Nat
  maxHops : Nat
  domainId : Nat
  pathBound : Nat
  deriving DecidableEq, Repr

/-- A QDP source (R227, R229, R233). -/
structure Peer where
  node : Nat
  roles : Nat
  class_ : Nat
  priority : Nat
  epoch : BitVec 32
  highest : BitVec 32
  window : BitVec 64
  /-- unwrapped DT of the last datagram, of the last HELLO, and of the last MAC_FAIL event -/
  heard : Nat
  hello : Nat
  /-- ALERT kind in force and when it was last received -/
  alert : Nat
  alertAt : Nat
  timedOut : Bool
  deriving DecidableEq, Repr

/-- QDP (R224–R233). -/
structure Domain where
  cfg : DomainCfg
  seq : BitVec 32
  /-- SEQ of the last 64 datagrams sent -/
  sent : List (BitVec 32)
  /-- elected grandmaster -/
  gm : Option Nat
  peers : List Peer
  macFail : Nat
  replay : Nat
  discarded : Nat
  /-- sources with a MAC_FAIL event, and when -/
  macEvents : List (Nat × Nat)
  /-- silent by conflict until this unwrapped DT -/
  silent : Option Nat
  /-- own alert in force: 0 none -/
  alert : Nat
  /-- the next HELLO is due at this unwrapped DT -/
  helloDue : Nat
  /-- the time prior of the last TIME (R230): unwrapped DT, GPS ns there, uncertainty in ns -/
  prior : Option (Nat × Nat × Nat)
  deriving DecidableEq, Repr

/-- REFSTN_CFG (Table 9.10) without ENABLE, OBS_RATE, MSM and OUTPUT. -/
structure RefStop where
  posMode : Nat
  station : Nat
  arp : List Int
  surveyTime : Nat
  surveySig : Nat
  deriving DecidableEq, Repr

/-- The reference station (R234–R236). -/
structure RefStn where
  stop : RefStop
  /-- ENABLE, OBS_RATE, MSM, OUTPUT -/
  epoch : Coded (Bool × Nat × Nat × Nat)
  /-- 0 off, 1 surveying, 2 running, 3 fault -/
  state : Nat
  arp : List Int
  /-- survey: start, sums of weights and of weighted positions -/
  since : Nat
  weight : Rat
  sums : List Rat
  /-- a surveyed ARP is held in MRAM -/
  saved : Option (List Int)
  /-- own SPP positions of the last 60 s: unwrapped DT and position -/
  spp : List (Nat × List Int)
  /-- unwrapped DT of the last 1005 and 1230 -/
  last1005 : Option Nat
  last1230 : Option Nat
  /-- satellites whose data set changed since its ephemeris message -/
  changed : List Nat
  deriving DecidableEq, Repr

/-- Group 0x08. -/
structure CorrSys where
  cfg : Coded CorrCfg
  stations : List Station
  corrs : List Correction
  has : List HasMsg
  /-- HAS status: 0 off, 1 collecting, 2 running, 3 not operational -/
  hasState : Nat
  sbas : List SbasSat
  sbasNow : Nat
  atmo : List Atmo
  orbSource : Nat
  /-- epochs in a row: current source failing, better source valid -/
  orbFail : Nat
  orbBetter : Nat
  rtk : Option (Nat × Nat × Nat)
  rtkBetter : Nat
  dgnss : Option (Nat × Nat × Nat)
  dgnssBetter : Nat
  framesOk : Nat
  crcFail : Nat
  rangeFail : Nat
  hasMsg : Nat
  stale : Nat
  /-- frames and datagrams of sources switched off (R213), and unsupported numbers -/
  dropped : Nat
  unsupported : Nat
  /-- IOD_MISMATCH events sent: satellite and IOD -/
  iods : List (Nat × Nat)
  domain : Domain
  ref : RefStn
  deriving DecidableEq, Repr

def CorrCfg.reset : CorrCfg :=
  { sources := 0x1F, orbPrio := 0, sbasSat := 0, ages := [10, 60, 120, 30, 600, 60], range := 200, switchGain := 5 }

/-- DESIGN CHOICE (log 6). -/
def DomainCfg.reset : DomainCfg :=
  { enable := false, roles := 0, transport := 0, gmPriority := 128, port := 48820, helloInt := 1000, mcast := 0xEFC00030, keySlot := 0
    maxHops := 3, domainId := 0, pathBound := 1000 }

def Domain.reset : Domain :=
  { cfg := DomainCfg.reset, seq := 0, sent := [], gm := none, peers := [], macFail := 0, replay := 0, discarded := 0, macEvents := []
    silent := none, alert := 0, helloDue := 0, prior := none }

/-- DESIGN CHOICE (log 6). -/
def RefStn.reset : RefStn :=
  { stop := ⟨0, 0, [0, 0, 0], 1800, 50⟩, epoch := .at (false, 0, 7, 0), state := 0, arp := [0, 0, 0], since := 0, weight := 0
    sums := [0, 0, 0], saved := none, spp := [], last1005 := none, last1230 := none, changed := [] }

def CorrSys.reset : CorrSys :=
  { cfg := .at CorrCfg.reset, stations := [], corrs := [], has := [], hasState := 0, sbas := [], sbasNow := 0, atmo := [], orbSource := 0
    orbFail := 0, orbBetter := 0, rtk := none, rtkBetter := 0, dgnss := none, dgnssBetter := 0, framesOk := 0, crcFail := 0, rangeFail := 0, hasMsg := 0, stale := 0
    dropped := 0, unsupported := 0, iods := [], domain := Domain.reset, ref := RefStn.reset }

end Sys2Proof.Machine
end

