-- ==== Sys2Proof/Machine/StateMem.lean ====
section
/-! DEFINITION. State of the memory banks, protection windows, freeze and ECC logs, march engine and DMA (R336–R366). -/

namespace Sys2Proof.Machine
open Sys2Proof

/-- Power states of a bank (Table 15.5), coded as MB_CTRL.STATE. -/
inductive BankPower where
  | on | retention | off
  deriving DecidableEq, Repr

/-- Device functions that hold a bank (Table 15.1). -/
inductive BankUse where
  | none | sampleRing | dumpRing | spectrum | carafe | march
  deriving DecidableEq, Repr

/-- One bank of managed memory (Tables 15.2, 15.4 and 15.6). -/
structure Bank where
  ownerA : Nat
  ownerB : Nat
  /-- old owners of ports A and B whose granted accesses drain; MB_OWN.PEND is set while either does (R341) -/
  drainA : Option Nat
  drainB : Option Nat
  /-- MB_CTRL.STATE -/
  state : BankPower
  /-- MB_CTRL.POWER, the state requested -/
  power : BankPower
  /-- target of the transition in progress: BUSY (R346) -/
  moving : Option BankPower
  /-- request held until the end of the transition (R346) -/
  held : Option BankPower
  crit : Bool
  shadowed : Bool
  dp : Bool
  interleaved : Bool
  use : BankUse
  /-- rows mapped to spare rows, and bit positions mapped to spare column groups (R353) -/
  rows : List Nat
  cols : List Nat
  ce : Nat
  ue : Nat
  /-- second of DT in which the last corrected-error notice was sent (R347) -/
  ceSecond : Option Nat
  /-- MB_DP_CFG WIN: port B wins (Table 15.3), and NOTIFY -/
  winB : Bool
  notify : Bool
  /-- MB_COLL_ADDR and the fields of MB_COLL_INFO -/
  collAddr : Nat
  collValid : Bool
  collCount : Nat
  collMasterA : Nat
  collMasterB : Nat
  collBytes : Nat
  /-- 0: bytes that nothing has written read 0 (R345); n + 1: they are undefined (R338, R364), free values of stamp n -/
  stamp : Nat
  deriving DecidableEq, Repr

/-- One protection window (Table 15.11). -/
structure Window where
  base : Nat
  limit : Nat
  /-- PERM: bit 0 R, 1 W, 2 X, 3 IO -/
  perm : Nat
  /-- FLAGS: bit 0 ENABLE, 1 RS, 2 LOCK -/
  flags : Nat
  deriving DecidableEq, Repr

/-- Violation kinds (Table 15.12). -/
inductive Violation where
  | window | rs | owner | bankOff | ecc | handover | tag
  deriving DecidableEq, Repr

/-- A freeze record (Table 15.12). -/
structure FreezeRec where
  seq : Nat
  master : Nat
  sub : Nat
  kind : Nat
  flags : Nat
  dt : DT
  epoch : BitVec 32
  addr : Nat
  pc : Nat
  resid : Nat
  window : Nat
  access : Nat
  bank : Nat
  owner : Nat
  instr : List Byte
  /-- 0 FROZEN, 1 RESUMED, 2 SKIPPED, 3 ABORTED -/
  state : Nat
  thawDt : DT
  deriving DecidableEq, Repr

/-- An ECC record (Table 15.8). -/
structure EccRec where
  dt : DT
  addr : Nat
  bank : Nat
  kind : Nat
  master : Nat
  syndrome : Nat
  deriving DecidableEq, Repr

/-- A march test or repair in progress (R350–R353). -/
structure March where
  /-- 1 copy-in, 2 test, 3 copy-back, 4 repair -/
  phase : Nat
  bank : Nat
  /-- 0xFF: none -/
  shadow : Nat
  algo : Nat
  destructive : Bool
  repair : Bool
  /-- MB_REPAIR: KIND and INDEX -/
  target : Option (Nat × Nat)
  origin : Origin
  deriving DecidableEq, Repr

/-- A march or repair result (Table 15.19). -/
structure MarchResult where
  bank : Nat
  status : Nat
  rowsFailed : Nat
  colsFailed : Nat
  rowsLeft : Nat
  colsLeft : Nat
  firstRow : Nat
  firstBit : Nat
  duration : Nat
  deriving DecidableEq, Repr

/-- A DMA descriptor as read (Table 15.14). -/
structure DmaDesc where
  ctrl : Nat
  src : Nat
  dst : Nat
  length : Nat
  next : Nat
  deriving DecidableEq, Repr

/-- Channel states (Table 15.17). -/
inductive DmaState where
  | idle | running | waiting | frozen | stopped | aborted
  deriving DecidableEq, Repr

/-- One DMA channel (Tables 15.15–15.17). -/
structure DmaChan where
  /-- MASTER: 0x07, 0xFF none, 0x00 for DC0–DC7 -/
  master : Nat
  classMax : Nat
  cls : Nat
  desc : Nat
  doneCount : Nat
  err : Bool
  done : Bool
  state : DmaState
  fail : Nat
  cur : Nat
  /-- the descriptor in progress -/
  run : Option DmaDesc
  /-- bytes moved or skipped of it, and bursts skipped -/
  moved : Nat
  skipped : Nat
  /-- STOP waits for the next boundary -/
  stopReq : Bool
  /-- WAIT_BEAT: waits for the beat boundary after this beat -/
  waitBeat : Option Nat
  deriving DecidableEq, Repr

/-- The memory system. DEDUCED (log 50). -/
structure MemSys where
  /-- bytes by bank × 512 KiB + offset, strictly rising, none equal to what an unlisted byte reads as -/
  cells : List Host.Cell
  banks : List Bank
  /-- words with an upset: word number, and whether it is a double-bit error (R347) -/
  upsets : List (Nat × Bool)
  eccLog : List EccRec
  /-- next word of the patrol scrubber (R348) -/
  scrub : Nat
  march : Option March
  lastMarch : Option MarchResult
  /-- figures of the last test for MARCH_STATUS: PROGRESS, FAILS, FIRST_FAIL -/
  progress : Nat
  fails : Nat
  firstFail : Nat
  /-- protection windows W0–W31 of the eight cores -/
  windows : List (List Window)
  freezeLog : List FreezeRec
  freezeSeq : Nat
  dma : List DmaChan
  /-- channel that had the last burst, for the turn within a class (R359) -/
  lastDma : Nat
  deriving DecidableEq, Repr

def Bank.reset : Bank :=
  { ownerA := 0xFF, ownerB := 0xFF, drainA := none, drainB := none, state := .off, power := .off, moving := none, held := none
    crit := false, shadowed := false, dp := false, interleaved := false, use := .none, rows := [], cols := [], ce := 0, ue := 0
    ceSecond := none, winB := true, notify := false, collAddr := 0, collValid := false, collCount := 0, collMasterA := 0
    collMasterB := 0, collBytes := 0, stamp := 0 }

def Window.reset : Window := { base := 0, limit := 0, perm := 0, flags := 0 }

def DmaChan.reset (n : Nat) : DmaChan :=
  { master := if n < 8 then 0 else 0xFF, classMax := 0, cls := 3, desc := 0, doneCount := 0, err := false, done := false
    state := .idle, fail := 0, cur := 0, run := none, moved := 0, skipped := 0, stopReq := false, waitBeat := none }

def MemSys.reset : MemSys :=
  { cells := [], banks := List.replicate 128 Bank.reset, upsets := [], eccLog := [], scrub := 0, march := none
    lastMarch := none, progress := 0, fails := 0, firstFail := 0
    windows := List.replicate 8 (List.replicate 32 Window.reset), freezeLog := [], freezeSeq := 0
    dma := (List.range 24).map DmaChan.reset, lastDma := 23 }

end Sys2Proof.Machine
end

