-- ==== Sys2Proof/Machine/StateNav.lean ====
section
/-! DEFINITION. State of signal integrity (R155–R177) and of navigation and fusion (R178–R212). -/

namespace Sys2Proof.Machine

/-! ### Signal integrity -/

/-- MP_CFG (Table 7.7) without APPLY. -/
structure MpCfg where
  enable : Bool
  window : Nat
  cn0 : Nat
  gain : Nat
  severeAmp : Nat
  severeDelay : Nat
  deriving DecidableEq, Repr

/-- A tap profile that is accumulating or waits for its fit (R155): per tap T0–T9 a complex sum, dumps, and the layout. -/
structure MpProfile where
  sums : List (Rat × Rat)
  dumps : Nat
  nominal : Nat
  taps : List (BitVec 16)
  changed : Bool
  windowEnd : Nat
  deriving DecidableEq, Repr

/-- A multipath record (Table 7.1) without CHANNEL. -/
structure MpRec where
  status : Nat
  quality : Nat
  los : Int
  echoes : List (Nat × Nat × Nat)
  windowEnd : Nat
  /-- beat of the window's close -/
  beat : Nat
  deriving DecidableEq, Repr

/-- Multipath estimator of one channel. -/
structure MpChan where
  acc : Option MpProfile
  ready : Option MpProfile
  record : Option MpRec
  deriving DecidableEq, Repr

/-- Interference level of one input (R162). -/
structure Interf where
  level : Nat
  cause : Nat
  /-- consecutive beats with the condition of the level clear, and beats of OVERLOAD in a row -/
  clear : Nat
  over_ : Nat
  deriving DecidableEq, Repr

/-- SPOOF_CFG (Table 7.8). -/
structure SpoofCfg where
  weights : List Nat
  hard : Nat
  warn : Nat
  alarm : Nat
  hyst : Nat
  clearEvals : Nat
  actWarn : Nat
  actAlarm : Nat
  uniRef : Nat
  aoaTol : Nat
  deriving DecidableEq, Repr

/-- 100 beats of the power history of an input (Table 7.4): sums of POWER_IN and of the C/N0 of its channels, and their counts. -/
structure PowerBlock where
  power : Nat
  beats : Nat
  cn0 : Nat
  chans : Nat
  deriving DecidableEq, Repr

/-- COLLAPSE of an antenna pair and the epochs in a row that say otherwise (R164). -/
structure PairState where
  collapse : Bool
  run : Nat
  /-- satellites that passed at the previous epoch -/
  passed : List Nat
  deriving DecidableEq, Repr

/-- The spoofing score (R165–R168). -/
structure Spoof where
  cfg : Coded SpoofCfg
  /-- the configuration changed: the fall count restarts -/
  state : Nat
  score : Nat
  na : Nat
  metrics : List Nat
  fall : Nat
  /-- per input: blocks of 100 beats, newest first, at most 6,100, and the block in progress -/
  history : List (List PowerBlock)
  block : List PowerBlock
  /-- channels tested and failing, and COLLAPSE per pair, at the last navigation epoch; z of JUMP -/
  tested : Nat
  failing : Nat
  pairsTested : Nat
  pairs : List PairState
  jumpZ : Option Rat
  /-- JUMP metric that decays -/
  jump : Nat
  deriving DecidableEq, Repr

/-- OSNMA_CFG (Table 7.9). -/
structure OsnmaCfg where
  enable : Bool
  require : Bool
  exclude : Bool
  tmax : Nat
  hold : Nat
  deriving DecidableEq, Repr

/-- A stored OSNMA key (R171). -/
structure OsnmaKey where
  algo : Nat
  pkid : Nat
  data : List Byte
  deriving DecidableEq, Repr

/-- What OSNMA holds of one satellite. -/
structure OsnmaSat where
  /-- 0 NONE, 1 PENDING, 2 AUTH, 3 FAILED -/
  status : Nat
  cross : Bool
  timing : Bool
  /-- verified tag bits of its data set -/
  bits : Nat
  /-- the data set differs from the one that failed (R174) -/
  fresh : Bool
  deriving DecidableEq, Repr

/-- A tag held while TIME_UNSURE (R173): satellite, ADKD, when it was held, and whether its check passes. -/
structure HeldTag where
  sat : Nat
  adkd : Nat
  bits : Nat
  cross : Bool
  ok : Bool
  gst : Nat
  held : Nat
  deriving DecidableEq, Repr

/-- OSNMA (R170–R174). -/
structure Osnma where
  cfg : Coded OsnmaCfg
  /-- Table of R175 -/
  state : Nat
  nmas : Nat
  pkid : Nat
  cid : Nat
  ok : Nat
  fail : Nat
  lastKey : Nat
  root : Bool
  /-- an alert message has discarded the root key (R173) -/
  alert : Bool
  sats : List OsnmaSat
  tags : List HeldTag
  /-- unwrapped DT of the last KROOT_FAIL, KEY_FAIL or TAG_FAIL, and of the last tag verified or of entry into RUN -/
  failAt : Option Nat
  okAt : Nat
  deriving DecidableEq, Repr

/-! ### Navigation -/

/-- NAV_CFG (Table 8.16). -/
structure NavCfg where
  modeMax : Nat
  rate : Nat
  pvtDecim : Nat
  fuse : Nat
  systems : Nat
  elevMask : Nat
  dynamics : Nat
  fdeMax : Nat
  faExp : Nat
  measNotify : Bool
  kff : Nat
  kmd : Nat
  hal : Nat
  val : Nat
  arRatio : Nat
  cn0Mask : Nat
  deriving DecidableEq, Repr

/-- ANT_CFG of one antenna (R209). -/
structure AntCfg where
  primary : Bool
  arm : List Int
  pco : Int
  deriving DecidableEq, Repr

/-- An antenna pair (R200). -/
structure PairCfg where
  a : Nat
  b : Nat
  heading : Bool
  deriving DecidableEq, Repr

/-- FUSION_CFG (Table 8.17). -/
structure FusionCfg where
  enable : Nat
  imuRate : Nat
  imuTick : Nat
  imuLatency : Nat
  imuRot : List Int
  imuArm : List Int
  wheelMask : Nat
  fuseWait : Nat
  ticksPerRev : Nat
  wheelCirc : Nat
  canLatency : Nat
  hist : Nat
  drPlMax : Nat
  deriving DecidableEq, Repr

/-- What navigation keeps of a channel from one measurement to the next (R185–R190, R163). -/
structure NavChan where
  slip : Nat
  measured : Bool
  /-- a dump closed since the previous measurement carried SHORT or INPUT -/
  input : Bool
  /-- added to the accumulated phase, in cycles: the whole-cycle part and half cycles; none before the first PHASE_VALID -/
  offset : Option Rat
  half : Rat
  /-- a half-cycle slip since the previous measurement, and the polarity of the last passing word -/
  halfSlip : Bool
  polarity : Option Bool
  /-- SNAP cycles at the previous measurement and the wraps of the 32-bit count -/
  snap : Int
  turns : Int
  aoaRun : Nat
  aoaPass : Nat
  aoaFail : Bool
  /-- elevation at the last epoch, degrees -/
  elev : Option Rat
  deriving DecidableEq, Repr

/-- The navigation data set in use for a satellite (R188). -/
structure DataSet where
  issue : Nat
  loaded : Bool
  healthy : Bool
  /-- fit interval in GPS ns -/
  from_ : Nat
  to_ : Nat
  data : List Byte
  deriving DecidableEq, Repr

/-- A satellite excluded under R197: epochs out and good residuals in a row. -/
structure Excluded where
  sat : Nat
  out : Nat
  good : Nat
  deriving DecidableEq, Repr

/-- A measurement record (Table 8.5). -/
structure MeasRec where
  channel : Nat
  signal : Nat
  sat : Nat
  subband : Nat
  antenna : Nat
  quality : Nat
  pseudorange : BitVec 64
  carrier : BitVec 64
  doppler : Int
  cn0 : Nat
  slips : Nat
  state : Nat
  lockTime : Nat
  mpCorr : Int
  sigma : Nat
  deriving DecidableEq, Repr

/-- A measurement epoch (Table 8.4). -/
structure MeasEpoch where
  beat : Nat
  epoch : BitVec 32
  gen : Nat
  flags : Nat
  unc : Nat
  rxTime : Nat
  recs : List MeasRec
  deriving DecidableEq, Repr

/-- A PVT or fused record (Table 8.12). -/
structure NavRec where
  dt : DT
  epoch : BitVec 32
  gen : Nat
  mode : Nat
  flags : Nat
  time : Nat
  pos : List Int
  vel : List Int
  posSig : List Nat
  velSig : Nat
  hpl : Nat
  vpl : Nat
  clkBias : Int
  clkDrift : Int
  heading : Nat
  pitch : Int
  headSig : Nat
  svUsed : Nat
  svTracked : Nat
  integrity : Nat
  datum : Nat
  corrAge : Nat
  pdop : Nat
  tscale : Nat
  deriving DecidableEq, Repr

/-- A fusion input received (Table 8.10): kind 0 IMU, 1 wheel tick, 2 CAN speed; its unwrapped timestamp and values. -/
structure FuseInput where
  kind : Nat
  unit : Nat
  at_ : Nat
  value : List Int
  deriving DecidableEq, Repr

/-- IMU checks (Table 8.11). -/
structure ImuState where
  /-- unwrapped DT of the last valid sample -/
  lastValid : Nat
  lost : Bool
  back : Nat
  /-- identical samples in a row per axis, varying samples since STUCK, and STUCK -/
  same : List Nat
  prev : List Int
  varying : Nat
  stuck : Bool
  deriving DecidableEq, Repr

/-- Groups 0x06 from 0x0640 on, and 0x07. -/
structure NavSys where
  mpCfg : Coded MpCfg
  mpApply : Coded Bool
  mp : Tab MpChan
  mpSkip : Nat
  interf : List Interf
  spoof : Spoof
  osnma : Osnma
  cfg : Coded NavCfg
  ants : Coded (List AntCfg)
  pairs : Coded (List PairCfg)
  fusion : Coded FusionCfg
  /-- NAV_RESET that waits for the next epoch -/
  resetDue : Option Nat
  /-- 0 NC0, 1 NC1 -/
  active : Nat
  mode : Nat
  overruns : Nat
  late : Nat
  states : Nat
  svUsed : Nat
  chans : Tab NavChan
  sets : Tab (Option DataSet)
  /-- almanac blocks by system and number -/
  almanac : List (Nat × List Byte)
  excluded : List Excluded
  /-- the epoch that starts next skips its filter update (R180) -/
  skip : Bool
  /-- RX_TIME in ns before the clock model is valid (R184) -/
  rxTime : Option Nat
  meas : Option MeasEpoch
  pvt : Option NavRec
  fused : Option NavRec
  /-- the last record with a fix, as the staging area holds it (R459) -/
  lastFix : Option NavRec
  produced : Nat
  plValid : Bool
  fdeFail : Bool
  alarm : Bool
  alarmClear : Nat
  /-- ratio failures in a row (R194), GNSS updates: unwrapped DT of the last -/
  ratioFail : Nat
  lastGnss : Option Nat
  /-- epochs in a row with fewer than 4 common satellites of the HEADING pair -/
  headingLost : Nat
  headingValid : Bool
  inputs : List FuseInput
  imu : ImuState
  /-- unwrapped DT of the last CAN speed frame, and CAN speed is used -/
  canAt : Option Nat
  canUsed : Bool
  /-- checkpoint and MRAM saves: unwrapped DT of the last save of ephemerides and almanacs, and a save is owed -/
  savedAt : Option Nat
  saveDue : Bool
  deriving DecidableEq, Repr

/-- DESIGN CHOICE (log 6). -/
def MpCfg.reset : MpCfg := { enable := false, window := 100, cn0 := 3000, gain := 12, severeAmp := 128, severeDelay := 102 }
def MpChan.reset : MpChan := { acc := none, ready := none, record := none }
def Interf.reset : Interf := { level := 0, cause := 0, clear := 0, over_ := 0 }

def SpoofCfg.reset : SpoofCfg :=
  { weights := [32, 32, 64, 64, 64], hard := 0x10, warn := 96, alarm := 160, hyst := 16, clearEvals := 50, actWarn := 0x05, actAlarm := 0x1F
    uniRef := 250, aoaTol := 38 }

/-- DESIGN CHOICE (log 7). -/
def Spoof.reset : Spoof :=
  { cfg := .at SpoofCfg.reset, state := 0, score := 0, na := 0x1F, metrics := [0, 0, 0, 0, 0], fall := 0, history := List.replicate 8 []
    block := List.replicate 8 ⟨0, 0, 0, 0⟩, tested := 0, failing := 0, pairsTested := 0, pairs := [], jumpZ := none, jump := 0 }

def OsnmaCfg.reset : OsnmaCfg := { enable := false, require := false, exclude := false, tmax := 30, hold := 300 }
def OsnmaSat.reset : OsnmaSat := { status := 0, cross := false, timing := false, bits := 0, fresh := false }

def Osnma.reset : Osnma :=
  { cfg := .at OsnmaCfg.reset, state := 0, nmas := 0, pkid := 0, cid := 0, ok := 0, fail := 0, lastKey := 0, root := false, alert := false
    sats := List.replicate 50 OsnmaSat.reset, tags := [], failAt := none, okAt := 0 }

def NavCfg.reset : NavCfg :=
  { modeMax := 9, rate := 3, pvtDecim := 1, fuse := 0, systems := 0x7F, elevMask := 10, dynamics := 2, fdeMax := 2, faExp := 5
    measNotify := false, kff := 1364, kmd := 1252, hal := 50, val := 100, arRatio := 768, cn0Mask := 20 }

def AntCfg.reset : AntCfg := { primary := false, arm := [0, 0, 0], pco := 0 }

def FusionCfg.reset : FusionCfg :=
  { enable := 0, imuRate := 0, imuTick := 0, imuLatency := 0, imuRot := [0, 0, 0], imuArm := [0, 0, 0], wheelMask := 0, fuseWait := 2
    ticksPerRev := 1, wheelCirc := 500, canLatency := 0, hist := 200, drPlMax := 10 }

def NavChan.reset : NavChan :=
  { slip := 0, measured := false, input := false, offset := none, half := 0, halfSlip := false, polarity := none, snap := 0, turns := 0
    aoaRun := 0, aoaPass := 0, aoaFail := false, elev := none }

def ImuState.reset : ImuState :=
  { lastValid := 0, lost := true, back := 0, same := List.replicate 6 0, prev := List.replicate 6 0, varying := 0, stuck := false }

def NavSys.reset : NavSys :=
  { mpCfg := .at MpCfg.reset, mpApply := .at false, mp := [], mpSkip := 0, interf := List.replicate 8 Interf.reset, spoof := Spoof.reset
    osnma := Osnma.reset, cfg := .at NavCfg.reset, ants := .at (List.replicate 8 AntCfg.reset), pairs := .at [], fusion := .at FusionCfg.reset
    resetDue := none, active := 0, mode := 0, overruns := 0, late := 0, states := 0, svUsed := 0, chans := [], sets := [], almanac := []
    excluded := [], skip := false, rxTime := none, meas := none, pvt := none, fused := none, lastFix := none, produced := 0, plValid := false, fdeFail := false
    alarm := false, alarmClear := 0, ratioFail := 0, lastGnss := none, headingLost := 0, headingValid := false, inputs := []
    imu := ImuState.reset, canAt := none, canUsed := false, savedAt := none, saveDue := false }

end Sys2Proof.Machine
end

