-- ==== Sys2Proof/Machine/StateNet.lean ====
section
/-! DEFINITION. State of EP0 and EP1 and of their PTP instances (R264–R287). -/

namespace Sys2Proof.Machine
open Sys2Proof

/-- EP_CFG (Table 11.1) without the latencies. -/
structure EpCfg where
  enable : Bool
  iface : Nat
  speed : Nat
  mac : List Byte
  vlan : Nat
  ipv4 : Nat
  netmask : Nat
  gateway : Nat
  deriving DecidableEq, Repr

/-- An entry of the transmit-timestamp queue (R269). -/
structure TsEntry where
  id : Nat
  notify : Bool
  /-- completed: status, unwrapped DT of the timestamp, SAME_TICK and unwrapped DT of completion -/
  done : Option (Nat × Nat × Bool × Nat)
  deriving DecidableEq, Repr

/-- A frame waiting for its launch or for the line (R268, R271). -/
structure TxFrame where
  bytes : List Byte
  /-- timestamp ID; none without TS_REQ -/
  id : Option Nat
  launch : Option Nat
  /-- queued by the device -/
  own : Bool
  /-- what leaves: 0 other, 1 Sync, 2 Delay_Req, 3 Pdelay_Req, 4 Pdelay_Resp; its sequenceId; and GEN at queueing -/
  use : Nat
  seq : Nat
  gen : Nat
  deriving DecidableEq, Repr

/-- PTP_CFG: the Stop fields (Table 11.9). -/
structure PtpStop where
  profile : Nat
  role : Nat
  domain : Nat
  logSync : Int
  logAnnounce : Int
  logDelay : Int
  annTimeout : Nat
  deriving DecidableEq, Repr

/-- PTP_CFG: the Frame fields. -/
structure PtpFrame where
  priority1 : Nat
  priority2 : Nat
  pathAvg : Nat
  lockThr : Nat
  ptpBw : Nat
  jumpThr : Nat
  pathThr : Nat
  stabWindow : Nat
  untrustHold : Nat
  asym : Int
  deriving DecidableEq, Repr

/-- A data set of the best master clock algorithm, as announced. -/
structure ClockSet where
  priority1 : Nat
  clockClass : Nat
  accuracy : Nat
  variance : Nat
  priority2 : Nat
  identity : List Byte
  steps : Nat
  /-- sender's port identity and the unwrapped DT of its last Announce -/
  port : List Byte
  heard : Nat
  timeSource : Nat
  flags : Nat
  utcOffset : Int
  deriving DecidableEq, Repr

/-- One PTP port (R273–R285). -/
structure Ptp where
  enable : Bool
  stop : PtpStop
  cfg : Coded PtpFrame
  /-- PTP_STATUS.STATE -/
  state : Nat
  parent : Option ClockSet
  foreign : List ClockSet
  /-- untrusted clock identities and the unwrapped DT at which each ends; none: until PTP_TRUST -/
  untrusted : List (List Byte × Option Nat)
  asCapable : Bool
  /-- last accepted Sync sequenceId -/
  syncSeq : Option Nat
  /-- a two-step Sync that waits for its Follow_Up: sequenceId, unwrapped receive DT, correction -/
  wait : Option (Nat × Nat × Rat)
  /-- t2 − t1 − c_s of the last Sync -/
  fwd : Option Rat
  delays : List Rat
  path : Option Rat
  linkDelay : Option Rat
  ratio : Rat
  asym : Rat
  asymBound : Rat
  /-- filter: M̂ at a DT, rate and last residuals, newest first -/
  anchor : Option (Nat × Rat)
  rate : Rat
  residuals : List Rat
  used : Nat
  locked : Bool
  offset : Rat
  /-- SUSPECT_MASTER: start, restarts, kept offsets with their predictions, and GNSS differences -/
  suspect : Option (Nat × Nat)
  kept : List (Rat × Rat)
  /-- PATH_CHANGE: start of the window, mean at its start, Δ, sums of o − e_GNSS and GNSS stayed valid -/
  window : Option (Nat × Rat × Rat)
  gnssSum : Rat
  gnssCount : Nat
  gnssOk : Bool
  lastSync : Nat
  /-- received messages per type in the second in progress: source, type, second, count -/
  rates : List (List Byte × Nat × Nat × Nat)
  loopAt : Option Nat
  txSeq : Nat
  /-- a Delay_Req or Pdelay_Req in flight: sequenceId, unwrapped transmit DT -/
  req : Option (Nat × Option Nat)
  /-- responders of the Pdelay_Req in flight -/
  responders : List (List Byte)
  /-- a Pdelay_Resp that waits for its Follow_Up: t2 and the unwrapped receive DT; and t3 and receive DT of the exchange before -/
  pdelay : Option (Rat × Nat)
  neighbour : Option (Rat × Nat)
  /-- a received Pdelay_Req that is being answered: its sequenceId and sender -/
  asked : List (Nat × List Byte)
  syncOk : Nat
  discarded : Nat
  outliers : Nat
  utcMismatch : Nat
  deriving DecidableEq, Repr

/-- A fragment: offset in bytes, more fragments follow, data. -/
structure Frag where
  off : Nat
  more : Bool
  data : List Byte
  deriving DecidableEq, Repr

/-- An IPv4 datagram in reassembly (R308): source, identification, unwrapped DT of its first fragment. -/
structure Reassembly where
  src : Nat
  id : Nat
  since : Nat
  frags : List Frag
  deriving DecidableEq, Repr

/-- One Ethernet port. -/
structure EthPort where
  cfg : EpCfg
  /-- TX_LATENCY and RX_LATENCY -/
  lat : Coded (Int × Int)
  /-- 0 down, 1 10, 2 100, 3 1,000 Mbit/s -/
  link : Nat
  /-- the PTP port returns to LISTENING at this unwrapped DT -/
  linkUpAt : Option Nat
  entries : List TsEntry
  launches : List TxFrame
  queue : List TxFrame
  /-- the launch frame that has started -/
  line : Option TxFrame
  rxOk : Nat
  txOk : Nat
  rxFcs : Nat
  rxDrop : Nat
  tsLost : Nat
  skip : Nat
  launchDrop : Nat
  frags : List Reassembly
  fragDrops : Nat
  ptp : Ptp
  deriving DecidableEq, Repr

/-- DESIGN CHOICE (log 6). -/
def EpCfg.reset : EpCfg :=
  { enable := false, iface := 0, speed := 0, mac := List.replicate 6 0, vlan := 0, ipv4 := 0, netmask := 0, gateway := 0 }

def Ptp.reset : Ptp :=
  { enable := false, stop := ⟨0, 0, 0, 0, 1, 0, 3⟩, cfg := .at ⟨128, 128, 8, 50, 100, 1000, 200, 60, 600, 0⟩, state := 2, parent := none
    foreign := [], untrusted := [], asCapable := false, syncSeq := none, wait := none, fwd := none, delays := [], path := none
    linkDelay := none, ratio := 1, asym := 0, asymBound := 0, anchor := none, rate := 0, residuals := [], used := 0, locked := false
    offset := 0, suspect := none, kept := [], window := none, gnssSum := 0, gnssCount := 0, gnssOk := true, lastSync := 0, rates := []
    loopAt := none, txSeq := 0, req := none, responders := [], pdelay := none, neighbour := none, asked := [], syncOk := 0, discarded := 0, outliers := 0, utcMismatch := 0 }

def EthPort.reset : EthPort :=
  { cfg := EpCfg.reset, lat := .at (0, 0), link := 0, linkUpAt := none, entries := [], launches := [], queue := [], line := none, rxOk := 0, txOk := 0
    rxFcs := 0, rxDrop := 0, tsLost := 0, skip := 0, launchDrop := 0, frags := [], fragDrops := 0, ptp := Ptp.reset }

end Sys2Proof.Machine
end

