-- ==== Sys2Proof/Machine/StatePeriph.lean ====
section
/-! DEFINITION. State of the serial, card and vehicle interfaces (R430–R449). -/

namespace Sys2Proof.Machine
open Sys2Proof

/-- A character with its errors (Table 19.2, UA_RX). -/
structure UartChar where
  data : Byte
  brk : Bool
  ferr : Bool
  perr : Bool
  deriving DecidableEq, Repr

/-- Char-coded framing of a UART (Tables 19.2, 19.3, 19.6). -/
structure UartFraming where
  /-- UA_CTRL[7:2] -/
  frame : Nat
  div : Nat
  deriving DecidableEq, Repr

/-- The Char-coded fields of card mode (Tables 19.2, 19.6). -/
structure CardChar where
  repeats : Nat
  t1 : Bool
  conv : Bool
  autoconv : Bool
  card : Bool
  etu : Nat
  guard : Nat
  deriving DecidableEq, Repr

/-- UA_CARD and the card registers of UA4 and UA5 (Table 19.6). -/
structure UartCard where
  clkdiv : Nat
  rst : Bool
  clken : Bool
  stophi : Bool
  ch : Coded CardChar
  /-- RST rose and no character has arrived yet (AUTOCONV) -/
  awaitTs : Bool
  /-- T=0 repetitions of the character being received and of the one being sent (R437) -/
  rxReps : Nat
  txReps : Nat
  wt : Nat
  /-- the device's card protocol (CARD_CFG, R448) -/
  enable : Bool
  protocol : Nat
  cfgConv : Nat
  pps : Bool
  /-- the card is activated, and the protocol in force -/
  active : Bool
  running : Nat
  /-- a CARD_APDU in progress -/
  apdu : Option Origin
  deriving DecidableEq, Repr

/-- One UART (R431–R436). -/
structure Uart where
  /-- UART_CFG.OWNER: 0 QCP, 1 UC, 2 card protocol -/
  owner : Nat
  /-- settings of transmission and of reception -/
  tx : Coded UartFraming
  rx : Coded UartFraming
  /-- a UART_CFG over this UART waits for the end of its own reply (R435) -/
  afterReply : Bool
  rxen : Bool
  txen : Bool
  /-- transmit holding register and shifter -/
  hold : Option Byte
  shift : Option Byte
  /-- receive holding register -/
  rxHold : Option UartChar
  /-- W1C bits of UA_STATUS: 17 REPEAT_FAIL, 16 WTO, 12 TXOVF, 11 RXOVR, 10 PERR, 9 FERR, 8 BRK -/
  status : BitVec 32
  ie : BitVec 32
  /-- error count of PERIPH_STATUS, saturating at 16 bits -/
  errors : Nat
  /-- per check 1 to 4: second of DT of the last notice, and count since -/
  checks : List (Option Nat × Nat)
  card : UartCard
  deriving DecidableEq, Repr

/-- IMU_CFG (Table 19.7). -/
structure ImuCfg where
  spiMode : Nat
  clkMhz : Nat
  readCmd : Nat
  readLen : Nat
  gyroOff : Nat
  accOff : Nat
  endian : Nat
  gyroLsb : Nat
  accLsb : Nat
  deriving DecidableEq, Repr

/-- CAN_CFG without PORT (Table 19.9). -/
structure CanCfg where
  enable : Bool
  mode : Nat
  fd : Nat
  /-- NOM_BRP, NOM_TSEG1, NOM_TSEG2, NOM_SJW, DATA_BRP, DATA_TSEG1, DATA_TSEG2, DATA_SJW, TDC -/
  timing : List Nat
  rxNotify : Bool
  filterId : BitVec 32
  filterMask : BitVec 32
  deriving DecidableEq, Repr

/-- One CAN FD port (R442, R447). -/
structure CanPort where
  cfg : CanCfg
  /-- 0 error-active, 1 error-passive, 2 bus-off -/
  state : Nat
  tec : Nat
  recv : Nat
  rxOk : Nat
  err : Nat
  deriving DecidableEq, Repr

/-- One entry of the speed-signal map (Table 19.10), with the last raw value and its unwrapped DT. -/
structure CanEntry where
  id : BitVec 32
  port : Nat
  len : Nat
  start : Nat
  flags : Nat
  kind : Nat
  scale : Int
  value : Option (Int × Nat)
  deriving DecidableEq, Repr

/-- WT_CFG (Table 19.12). -/
structure WtCfg where
  enable : Nat
  minWidth : Nat
  mode : List Nat
  dir : List Nat
  deriving DecidableEq, Repr

/-- One wheel-tick input (R445). -/
structure WheelIn where
  count : Nat
  /-- fine DT of the last accepted tick -/
  last : Option Nat
  /-- level of the input after the filter -/
  level : Bool
  fastSecond : Option Nat
  fastSince : Nat
  deriving DecidableEq, Repr

/-- One general-purpose pin (Table 19.13). -/
structure GpioPin where
  owner : Nat
  dir : Nat
  pull : Nat
  edge : Nat
  notify : Bool
  minWidth : Nat
  level : Bool
  out : Bool
  evt : Bool
  ie : Bool
  seq : Nat
  deriving DecidableEq, Repr

/-- The peripherals of PD14. -/
structure Periph where
  uarts : List Uart
  imuCfg : Option ImuCfg
  /-- scheduled IMU reads and the last decoded sample: gyro and accelerometer codes and its DT -/
  imuSample : Option (List Int × Nat)
  cans : List CanPort
  canMap : List CanEntry
  /-- frames discarded because they are shorter than their signal (R443) -/
  canShort : Nat
  wtCfg : WtCfg
  wheels : List WheelIn
  wtFast : Nat
  gpio : List GpioPin
  i2cNack : Nat
  imuTimeout : Nat
  deriving DecidableEq, Repr

def UartCard.reset : UartCard :=
  { clkdiv := 390, rst := false, clken := false, stophi := false, ch := .at ⟨4, false, false, true, false, 5952, 0⟩
    awaitTs := false, rxReps := 0, txReps := 0, wt := 0, enable := false, protocol := 0xFF, cfgConv := 0, pps := false
    active := false, running := 0, apdu := none }

def Uart.reset : Uart :=
  { owner := 0, tx := .at ⟨0, 13542⟩, rx := .at ⟨0, 13542⟩, afterReply := false, rxen := false, txen := false, hold := none
    shift := none, rxHold := none, status := 0, ie := 0, errors := 0, checks := List.replicate 4 (none, 0), card := UartCard.reset }

/-- DESIGN CHOICE (log 6). -/
def CanCfg.reset : CanCfg :=
  { enable := false, mode := 0, fd := 0, timing := [1, 1, 1, 1, 1, 1, 1, 1, 0], rxNotify := false, filterId := 0, filterMask := 0 }

def CanPort.reset : CanPort := { cfg := CanCfg.reset, state := 0, tec := 0, recv := 0, rxOk := 0, err := 0 }

/-- DESIGN CHOICE (log 6). -/
def CanEntry.reset : CanEntry :=
  { id := 0, port := 0, len := 1, start := 0, flags := 0, kind := 0, scale := 1, value := none }

def WtCfg.reset : WtCfg := { enable := 0, minWidth := 26, mode := [0, 0, 0, 0], dir := [0xFF, 0xFF, 0xFF, 0xFF] }

def WheelIn.reset : WheelIn := { count := 0, last := none, level := false, fastSecond := none, fastSince := 0 }

/-- DESIGN CHOICE (log 6). -/
def GpioPin.reset : GpioPin :=
  { owner := 0, dir := 0, pull := 0, edge := 0, notify := false, minWidth := 1, level := false, out := false, evt := false, ie := false
    seq := 0 }

def Periph.reset : Periph :=
  { uarts := List.replicate 6 Uart.reset, imuCfg := none, imuSample := none, cans := [CanPort.reset, CanPort.reset]
    canMap := List.replicate 64 CanEntry.reset, canShort := 0, wtCfg := WtCfg.reset, wheels := List.replicate 4 WheelIn.reset
    wtFast := 0, gpio := List.replicate 8 GpioPin.reset, i2cNack := 0, imuTimeout := 0 }

end Sys2Proof.Machine
end

