-- ==== Sys2Proof/Machine/StatePower.lean ====
section
/-! DEFINITION. State of the power domains, holdup, Percolator (R450–R471), of start-up (R472–R477) and of the debug TAP (R500–R502). -/

namespace Sys2Proof.Machine

/-- The device power states of Table 20.2. -/
inductive PowerState where
  | run | watch | parked
  deriving DecidableEq, Repr

/-- Start-up causes, coded as WAKE_CAUSE (Table 21.1, R470). -/
inductive StartCause where
  | powerOn | resetN | rule | command | watchdog | refinLoss
  deriving DecidableEq, Repr

/-- What the device is doing about power and start-up. -/
inductive Phase where
  /-- CC runs in the power state held: RUN or WATCH -/
  | on
  /-- PARKED entered by command, until a WAKE rule or RESET_N (R456) -/
  | parked
  /-- waiting for the supplies under step 2 of R456; the state to enter and the cause of the boot -/
  | supplyWait (cause : StartCause) (target : PowerState)
  /-- reset released: the boot sequence of R473 is next -/
  | booting (cause : StartCause) (target : PowerState)
  /-- REFIN lost: every domain but PD0 and PD1 is held in reset (R30) -/
  | refinHold
  deriving DecidableEq, Repr

/-- Power state registers kept in PD0 (R452–R456, R470). -/
structure Power where
  phase : Phase
  state : PowerState
  prev : PowerState
  wakeCause : StartCause
  /-- rule of the last wake or transition, 0xFF for none -/
  rule : Nat
  /-- bit n: PDn is on -/
  domains : BitVec 16
  /-- the domain set of the last RUN state (R454) -/
  runSet : BitVec 16
  /-- RET_BANKS of the last POWER_STATE: four bank numbers or 0xFF (R469) -/
  retBanks : List Nat
  lastDt : DT
  transitions : Nat
  /-- lifetime count of sags -/
  sags : Nat
  /-- readings: mV, 0.1 °C, mV -/
  vbat : Nat
  temp : Int
  vhold : Nat
  /-- extremes of the die temperature since start-up (R482) -/
  tempMin : Int
  tempMax : Int
  /-- the WAKE output is driven high (R467) -/
  wake : Bool
  /-- WAKE is held until the device enters RUN (WAKE_WIDTH = 0) or a wake boots -/
  wakeUntilRun : Bool
  /-- a device reset is due at this DT: 100 ms after a CC violation (R356), or, second part true, 10 ms after DEVICE_RESET (R482) -/
  resetDue : Option (DT × Bool)
  /-- a POWER_STATE to PARKED has been accepted and its reply is being flushed (R454) -/
  parking : Bool
  deriving DecidableEq, Repr

/-- Holdup controller (R458, R470). -/
structure Holdup where
  /-- 0 charging, 1 ready, 2 fault -/
  state : Nat
  /-- measured capacitance, µF -/
  cap : Nat
  lowCap : Bool
  lastSaveValid : Bool
  /-- duration of the last save, µs -/
  lastSave : Nat
  /-- VHOLD at the end of the last save, mV -/
  endMv : Nat
  saves : Nat
  /-- this start-up measures the capacitance once READY (R458) -/
  measures : Bool
  /-- the 10 ms measurement is running -/
  measuring : Bool
  deriving DecidableEq, Repr

/-- One Percolator rule (Table 20.7). -/
structure PercRule where
  enable : Bool
  filter : Nat
  src : Nat
  shift : Nat
  cmp : Nat
  thresh : Int
  count : Nat
  action : BitVec 8
  /-- ARG[1:0]: 0 RUN, 1 WATCH -/
  target : Nat
  /-- ARG[3:2]: counter of LATCH -/
  counter : Nat
  states : BitVec 8
  deriving DecidableEq, Repr

/-- Running state of one rule (R464, R466). -/
structure RuleRun where
  cnt : Nat
  armed : Bool
  /-- the last inputs, newest first, at most 8; empty before the first input -/
  hist : List Int
  /-- debounce: ticks the newest input has held, and the output -/
  held : Nat
  deb : Int
  /-- IIR state with 16 fractional bits -/
  iir : Int
  deriving DecidableEq, Repr

/-- PERC_CFG (Table 20.9). -/
structure PercCfg where
  enable : Bool
  accAddr : Nat
  accReg : Nat
  accDiv : Nat
  accFmt : Nat
  wakeWidth : Nat
  accLsb : Nat
  wakeTimeout : Nat
  deriving DecidableEq, Repr

/-- The Percolator (R463–R468), kept in PD0. -/
structure Perc where
  cfg : PercCfg
  rules : List PercRule
  runs : List RuleRun
  /-- counters C0–C3 -/
  counters : List Nat
  /-- last accelerometer values x, y, z in mg -/
  acc : List Int
  /-- REF: the accelerometer values captured at WATCH, PARKED and wakes -/
  ref : List Int
  /-- latest filtered value per source (PERC_STATUS) -/
  filtered : List Int
  ticks : Nat
  /-- ticks since the last accelerometer read -/
  accTick : Nat
  fired : Nat
  accFail : Nat
  lastRule : Nat
  /-- VBAT_AON below 1.9 V: halted (R468) -/
  halted : Bool
  /-- always-on periods since VBAT_AON was applied (Table 20.8) -/
  rtc : Nat
  deriving DecidableEq, Repr

/-- A trip-log entry (Table 20.8). -/
structure TripRec where
  rtc : Nat
  kind : Nat
  code : Nat
  value : Int
  deriving DecidableEq, Repr

/-- A fault-log record (R482). -/
structure FaultRec where
  dt : DT
  kind : Nat
  source : Nat
  value : Nat
  deriving DecidableEq, Repr

/-- The boot selector in MRAM (R477). -/
structure BootSel where
  active : Nat
  trial : Bool
  /-- the slot the selector returns to -/
  previous : Nat
  deriving DecidableEq, Repr

/-- LOOP_SWAP in progress, or a restart after THAW abort (R479). -/
structure LoopSwap where
  core : Nat
  slot : Nat
  /-- none: a restart after THAW abort, which no command waits for -/
  origin : Option Origin
  /-- beat of the boundary at which the groups moved; none: not yet -/
  outBeat : Option Nat
  /-- channels of the groups that moved and missed a latch since -/
  missed : List Nat
  groups : List Nat
  /-- version of the component to load -/
  version : Nat
  deriving DecidableEq, Repr

/-- NAV_SWAP in progress, or a restart after THAW abort (R480). -/
structure NavSwap where
  slot : Nat
  origin : Option Origin
  version : Nat
  /-- the standby core holds the checkpoint of an epoch computed since (R181) -/
  ready : Bool
  deriving DecidableEq, Repr

/-- Result of the last start-up, and the firmware's operations in service (R473–R482). -/
structure BootInfo where
  /-- slot that booted; 0xFF: none -/
  slot : Nat
  /-- the running image is a trial -/
  trial : Bool
  fallback : Bool
  /-- WAKE_CAUSE of the last start-up (Table 21.1) -/
  cause : StartCause
  /-- 0 image, 1 stale, 2 none -/
  restore : Nat
  recovery : Bool
  bootTime : Nat
  /-- versions of the running CC, LOOP and NAV components -/
  fwCc : Nat
  fwLoop : Nat
  fwNav : Nat
  /-- ROLLBACK of the running image -/
  level : Nat
  /-- VERSIONs last read from slots A and B -/
  versions : List Nat
  /-- FW_VERIFY in progress: slot, origin, and whether the slot was written since it started -/
  verifying : List (Nat × Origin × Bool)
  /-- SELFTEST in progress: TESTS, origin and unwrapped DT of its start -/
  selftests : List (Nat × Origin × Nat)
  /-- unwrapped DT at which RUN was entered on a trial slot (R477) -/
  runAt : Nat
  loopSwaps : List LoopSwap
  navSwap : Option NavSwap
  deriving DecidableEq, Repr

/-- TAP controller states that the model tells apart, and PROV_STATUS.STATE (R500–R502). DEDUCED (log 81). -/
structure Tap where
  /-- instruction register: 0xA0 PROVISION, 0xA1 PROV_STATUS, else BYPASS -/
  ir : BitVec 8
  /-- PROV_STATUS.STATE: 0 IDLE, 1 BUSY, 2 DONE, 3 NOT_BLANK, 4 INSTALLED, 5 CRC, 6 INCOMPLETE, 7 MISMATCH -/
  prov : Nat
  /-- the key being programmed while BUSY -/
  key : BitVec 256
  deriving DecidableEq, Repr

/-- DESIGN CHOICE (log 6). -/
def PercRule.reset : PercRule :=
  { enable := false, filter := 0, src := 0, shift := 1, cmp := 0, thresh := 0, count := 1, action := 0, target := 0
    counter := 0, states := 0 }

def RuleRun.reset : RuleRun := { cnt := 0, armed := true, hist := [], held := 0, deb := 0, iir := 0 }

def PercCfg.reset : PercCfg :=
  { enable := false, accAddr := 8, accReg := 0, accDiv := 32, accFmt := 0, wakeWidth := 0, accLsb := 1000, wakeTimeout := 2000 }

/-- DESIGN CHOICE (log 7). -/
def Perc.reset : Perc :=
  { cfg := PercCfg.reset, rules := List.replicate 32 PercRule.reset, runs := List.replicate 32 RuleRun.reset
    counters := [0, 0, 0, 0], acc := [0, 0, 0], ref := [0, 0, 0], filtered := List.replicate 16 0, ticks := 0, accTick := 0
    fired := 0, accFail := 0, lastRule := 0xFF, halted := false, rtc := 0 }

/-- DESIGN CHOICE (log 3). -/
def Power.reset : Power :=
  { phase := .booting .powerOn .run, state := .parked, prev := .parked, wakeCause := .powerOn, rule := 0xFF, domains := 0x0001
    runSet := 0xFFFD, retBanks := [0xFF, 0xFF, 0xFF, 0xFF], lastDt := 0, transitions := 0, sags := 0, vbat := 0, temp := 0
    vhold := 0, tempMin := 0, tempMax := 0, wake := false, wakeUntilRun := false, resetDue := none, parking := false }

/-- DESIGN CHOICE (log 7). -/
def Holdup.reset : Holdup :=
  { state := 0, cap := 0, lowCap := false, lastSaveValid := false, lastSave := 0, endMv := 0, saves := 0, measures := true
    measuring := false }

/-- DESIGN CHOICE (log 5). -/
def BootSel.reset : BootSel := { active := 0, trial := false, previous := 0 }

/-- DESIGN CHOICE (log 7). -/
def BootInfo.reset : BootInfo :=
  { slot := 0xFF, trial := false, fallback := false, cause := .powerOn, restore := 2, recovery := false, bootTime := 0, fwCc := 0, fwLoop := 0
    fwNav := 0, level := 0, versions := [0, 0, 0, 0, 0, 0], verifying := [], selftests := [], runAt := 0, loopSwaps := [], navSwap := none }

def Tap.reset : Tap := { ir := 0xFF, prov := 0, key := 0 }

end Sys2Proof.Machine
end

