-- ==== Sys2Proof/Machine/StateSignal.lean ====
section
/-! DEFINITION. State of the sample inputs (R45–R65), of the Grinder (R66–R91) and of the correlation fabric (R92–R121). -/

namespace Sys2Proof.Machine
open Sys2Proof

/-- A complex sample or accumulator. -/
abbrev Cplx := Int × Int

/-- One input entry of the installation record (Table 3.3). -/
structure InstallInput where
  rate : Nat
  antenna : Nat
  invert : Bool
  loFreq : Nat
  rfLow : Nat
  rfHigh : Nat
  groupDelay : Nat
  delaySlope : Int
  gain : Int
  nf : Nat
  iqGain : Nat
  iqPhase : Int
  nomRms : Nat
  deriving DecidableEq, Repr

/-- The installation record in MRAM (R49): its 576 bytes and what they say. -/
structure Install where
  bytes : List Byte
  nodeId : Nat
  inputMask : Nat
  refinKind : Nat
  refinOffset : Int
  serial : Nat
  inputs : List InstallInput
  deriving DecidableEq, Repr

/-- Input states (Table 3.9). -/
inductive InputState where
  | off | training | run | lostClock | disabled
  deriving DecidableEq, Repr

/-- Beat-coded conditioning parameters of one input (Table 3.14). -/
structure InputCfg where
  dcShift : Nat
  blankThr : Nat
  blankHold : Nat
  notchWidth : Nat
  notchStep : Nat
  engage : Nat
  release : Nat
  /-- per notch: 0 off, 1 adaptive, 2 fixed, and the fixed frequency in f_in / 65,536 -/
  notchMode : List (Nat × Int)
  deriving DecidableEq, Repr

/-- One notch (Table 3.4). -/
structure Notch where
  /-- 0 OFF, 1 SEARCH, 2 ENGAGED, 3 HOLD, 4 FIXED -/
  state : Nat
  freq : Int
  depth : Nat
  /-- consecutive beats with DEPTH below NOTCH_RELEASE in HOLD -/
  below : Nat
  deriving DecidableEq, Repr

/-- The input statistics record (Table 3.5). -/
structure InputStat where
  beat : Nat
  state : Nat
  flags : Nat
  powerIn : Nat
  powerOut : Nat
  meanI : Int
  meanQ : Int
  clip : Nat
  blanked : Nat
  skew : Nat
  /-- SKEW of the beat before -/
  skewBefore : Nat
  notches : List (Int × Nat × Nat)
  hist : List Nat
  deriving DecidableEq, Repr

/-- One sample input (R47–R65). -/
structure SampleInput where
  state : InputState
  /-- the nibble alignment that is fixed, 0 to 3 (R47); RUN follows at the next boundary -/
  aligned : Option Nat
  /-- the input was in RUN when the present beat opened -/
  ran : Bool
  cfg : Coded InputCfg
  /-- dc of I and Q with 24 fractional bits (R51) -/
  dc : Cplx
  /-- samples of BLANK_HOLD left (R53) -/
  holdLeft : Nat
  notches : List Notch
  stat : Option InputStat
  /-- a clock loss inside the beat -/
  clkLost : Bool
  lastSkew : Option Nat
  /-- consecutive beats of: RATIO, TRAINING without alignment, STUCK, OVERLOAD above 10 %, POWER_LOW 6 dB, POWER_LOW 20 dB, POWER_HIGH, DC_OFFSET -/
  runs : List Nat
  /-- per check 0 to 10: beats since the flag was last set, saturating at 1,000 (R63) -/
  clear : List Nat
  /-- a notch entered or left the path at the boundary that opened the present beat -/
  notchChange : Bool
  deriving DecidableEq, Repr

/-- SUBBAND_SET (Table 3.13). -/
structure SubbandCfg where
  enable : Bool
  rate : Nat
  format : Nat
  mixWord : Int
  depth : Nat
  firstBank : Nat
  agc : Nat
  scale : Nat
  deriving DecidableEq, Repr

/-- One sub-band stream and its ring (R56–R60). -/
structure Subband where
  cfg : Coded SubbandCfg
  /-- SCALE in force in the present beat and in the beat before -/
  scale : Nat
  prevScale : Nat
  /-- first bank and number of banks of the ring while the device holds them (R60) -/
  ring : Option (Nat × Nat)
  deriving DecidableEq, Repr

/-- Ledger entry states (Table 4.2). -/
inductive EntryState where
  | free | pending | active | found | notFound | handed | failed | expired | held
  deriving DecidableEq, Repr

/-- A search ledger entry (Table 4.1). -/
structure Entry where
  state : EntryState
  priority : Nat
  notify : Bool
  signal : Nat
  sat : Nat
  subband : Nat
  source : Nat
  tcoh : Nat
  noncoh : Nat
  dstep : Nat
  pfaExp : Nat
  thr : Nat
  ratio : Nat
  fftLog2 : Nat
  retries : Nat
  attempts : Nat
  tag : Nat
  codeStart : Nat
  codeSpan : Nat
  doppCentre : Int
  doppHalf : Nat
  target : Nat
  groupMask : BitVec 32
  startBeat : Nat
  peak : Nat
  second : Nat
  codePhase : Nat
  doppler : Int
  cn0 : Nat
  flags : BitVec 8
  channel : Nat
  doneBeat : Nat
  /-- beat index at which the entry became FOUND (R83); while PENDING, the first beat that opens after the write -/
  foundAt : Nat
  /-- LEDGER_CANCEL while ACTIVE (R84) -/
  cancel : Bool
  deriving DecidableEq, Repr

/-- Key of a spectrum set in the pool (R79). -/
structure SpectrumKey where
  source : Nat
  subband : Nat
  start : Nat
  tcoh : Nat
  n : Nat
  m : Nat
  noncoh : Nat
  deriving DecidableEq, Repr

/-- ACQ_PLAN (Table 4.7). -/
structure AcqPlan where
  planner : Bool
  flags : Nat
  timeUnc : Nat
  dtRef : Nat
  timePrior : Nat
  pos : List Int
  posUnc : Nat
  deriving DecidableEq, Repr

/-- The Grinder (R66–R89). -/
structure Grinder where
  workFirst : Nat
  workBanks : Nat
  /-- GRINDER_CFG has given the pool its banks -/
  placed : Bool
  reserve : Coded Bool
  age : Coded Nat
  entries : Tab Entry
  /-- running entry of FP0–FP3 -/
  pipes : List (Option Nat)
  /-- sets in the pool, most recently used first, with their size in bytes -/
  pool : List (SpectrumKey × Nat)
  completions : Nat
  overwrites : Nat
  plan : Coded AcqPlan
  deriving DecidableEq, Repr

/-- Fields of a channel descriptor (Table 5.3); phases are kept with the channel. -/
structure Desc where
  signal : Nat
  sat : Nat
  subband : Nat
  /-- 0 IDLE, 1 PULL-IN, 2 FLL, 3 PLL, 4 COAST, 5 LOST -/
  state : Nat
  tint : Nat
  ctrl : BitVec 8
  epochMod : Nat
  carrWord : Int
  codeWord : Nat
  secIndex : Nat
  taps : List (BitVec 16)
  deriving DecidableEq, Repr

/-- Running oscillators of a channel at sub-band sample 0 of a beat (R92, R93). -/
structure Nco where
  /-- carrier phase fraction, 48 bits, and cycle count since the channel left IDLE, 32 bits -/
  carr : Nat
  cycles : Nat
  /-- code phase in chips × 2⁴⁸, below code length × 2⁴⁸ -/
  code : Nat
  /-- secondary index of the primary period in progress (R98), and its index within the integration -/
  sec : Nat
  epochMod : Nat
  deriving DecidableEq, Repr

/-- The window that is open on a channel (R106–R108). -/
structure DumpWindow where
  acc : List Cplx
  satMask : Nat
  /-- samples correlated, and samples the window spans -/
  count : Nat
  len : Nat
  partialW : Bool
  flags : BitVec 8
  deriving DecidableEq, Repr

/-- A dump record (Table 5.7). -/
structure Dump where
  channel : Nat
  seq : Nat
  endBeat : Nat
  endSample : Nat
  count : Nat
  flags : BitVec 8
  satMask : Nat
  taps : List Cplx
  /-- not part of the record: samples of the window if none were missing, and whether the loop core has used the record -/
  nominal : Nat
  served : Bool
  deriving DecidableEq, Repr

/-- The set of a beat before: the lanes correlate it in the present beat. -/
structure PastSet where
  desc : Desc
  nco : Nco
  /-- at the boundary that opened that beat: CTRL or a tap changed; an NCO latch was missed; TINT or EPOCH_MOD changed (R107, R108) -/
  config : Bool
  coasted : Bool
  cut : Bool
  deriving DecidableEq, Repr

/-- Shadows of the Beat-coded fields of a running channel (R100): the values written since the last latch. -/
structure Shadow where
  state : Option Nat
  tint : Option Nat
  ctrl : Option (BitVec 8)
  epochMod : Option Nat
  carrWord : Option Int
  codeWord : Option Nat
  secIndex : Option Nat
  taps : List (Option (BitVec 16))
  deriving DecidableEq, Repr

/-- An accepted claim: the descriptor and phases that latch at the next boundary (R42, R81, R101). -/
structure Claim where
  desc : Desc
  carr : Nat
  code : Nat
  deriving DecidableEq, Repr

/-- One tracking channel of the fabric (R92–R116). -/
structure Chan where
  /-- the active set, in force for the present beat, and its oscillators at sample 0 of that beat -/
  act : Desc
  nco : Nco
  /-- the set of the beat before -/
  prev : PastSet
  shadow : Shadow
  /-- NCO words completed after the latch they were meant for (R17, R35) -/
  late : Shadow
  claim : Option Claim
  /-- CHAN_STOP takes effect at the next boundary -/
  stop : Bool
  win : DumpWindow
  seq : Nat
  /-- the channel has a dump in the slot serviced in this beat and its words are not written yet -/
  due : Bool
  /-- consecutive missed latches, and the NCO_LATE flag (R35, R126) -/
  missed : Nat
  ncoLate : Bool
  /-- system clocks by which the last write missed the boundary -/
  lateBy : Nat
  /-- at the boundary that opened the present beat, as in `PastSet` -/
  config : Bool
  coasted : Bool
  cut : Bool
  /-- cost in channel-samples counted in the admitted total -/
  cost : Nat
  deriving DecidableEq, Repr

/-- A component of a user signal in the code RAM (R118). -/
structure UserCode where
  signal : Nat
  sat : Nat
  comp : Nat
  boc : Bool
  carrier : Nat
  chipRate : Nat
  length : Nat
  period : Nat
  chips : List Bool
  sec : List Bool
  deriving DecidableEq, Repr

/-- The correlation fabric. -/
structure Fabric where
  dumpFirst : Nat
  dumpDepth : Nat
  /-- FABRIC_CFG has given the dump rings their banks -/
  placed : Bool
  admitReserve : Nat
  chans : Tab Chan
  codes : List UserCode
  /-- work of each lane in the last beat, in clocks -/
  laneWork : List Nat
  clamps : Nat
  /-- records of the slot that the loop cores read in the present beat, and its sample beat -/
  slot : List Dump
  slotBeat : Nat
  /-- loop core bound to each channel group (R13) -/
  binding : List Nat
  /-- last group that each loop core completed (R126) -/
  lastGroup : List Nat
  deriving DecidableEq, Repr

def InputCfg.reset : InputCfg :=
  { dcShift := 16, blankThr := 0, blankHold := 16, notchWidth := 8, notchStep := 12, engage := 6, release := 3
    notchMode := List.replicate 4 (0, 0) }

def Notch.reset : Notch := { state := 0, freq := 0, depth := 0, below := 0 }

def SampleInput.reset : SampleInput :=
  { state := .off, aligned := none, ran := false, cfg := .at InputCfg.reset, dc := (0, 0), holdLeft := 0
    notches := List.replicate 4 Notch.reset, stat := none, clkLost := false, lastSkew := none, runs := List.replicate 8 0
    clear := List.replicate 11 1000, notchChange := false }

/-- DESIGN CHOICE (log 6). -/
def SubbandCfg.reset : SubbandCfg :=
  { enable := false, rate := 0, format := 0, mixWord := 0, depth := 4, firstBank := 0, agc := 0, scale := 0 }

def Subband.reset : Subband := { cfg := .at SubbandCfg.reset, scale := 0, prevScale := 0, ring := none }

def Entry.reset : Entry :=
  { state := .free, priority := 0, notify := false, signal := 0, sat := 0, subband := 0, source := 0, tcoh := 0, noncoh := 0
    dstep := 0, pfaExp := 0, thr := 0, ratio := 0, fftLog2 := 0, retries := 0, attempts := 0, tag := 0, codeStart := 0
    codeSpan := 0, doppCentre := 0, doppHalf := 0, target := 0, groupMask := 0, startBeat := 0, peak := 0, second := 0
    codePhase := 0, doppler := 0, cn0 := 0, flags := 0, channel := 0, doneBeat := 0, foundAt := 0, cancel := false }

/-- DESIGN CHOICE (log 6). -/
def AcqPlan.reset : AcqPlan :=
  { planner := false, flags := 0, timeUnc := 1, dtRef := 0, timePrior := 0, pos := [0, 0, 0], posUnc := 1 }

def Grinder.reset : Grinder :=
  { workFirst := 0, workBanks := 8, placed := false, reserve := .at false, age := .at 1000, entries := [], pipes := [none, none, none, none]
    pool := [], completions := 0, overwrites := 0, plan := .at AcqPlan.reset }

def Desc.reset : Desc :=
  { signal := 0, sat := 0, subband := 0, state := 0, tint := 0, ctrl := 0, epochMod := 0, carrWord := 0, codeWord := 0
    secIndex := 0, taps := List.replicate 11 0 }

def Nco.reset : Nco := { carr := 0, cycles := 0, code := 0, sec := 0, epochMod := 0 }

def DumpWindow.reset : DumpWindow :=
  { acc := List.replicate 11 (0, 0), satMask := 0, count := 0, len := 0, partialW := true, flags := 0 }

def Shadow.none : Shadow :=
  { state := .none, tint := .none, ctrl := .none, epochMod := .none, carrWord := .none, codeWord := .none, secIndex := .none
    taps := List.replicate 11 .none }

def Chan.reset : Chan :=
  { act := Desc.reset, nco := Nco.reset, prev := ⟨Desc.reset, Nco.reset, false, false, false⟩, shadow := Shadow.none, late := Shadow.none, claim := none
    stop := false, win := DumpWindow.reset, seq := 0, due := false, missed := 0, ncoLate := false, lateBy := 0, config := false
    coasted := false, cut := false, cost := 0 }

def Fabric.reset : Fabric :=
  { dumpFirst := 0, dumpDepth := 4, placed := false, admitReserve := 0, chans := [], codes := [], laneWork := List.replicate 16 0
    clamps := 0, slot := [], slotBeat := 0, binding := (List.range 32).map (· / 8), lastGroup := [7, 15, 23, 31] }

end Sys2Proof.Machine
end

