-- ==== Sys2Proof/Machine/StateTime.lean ====
section
/-! DEFINITION. State of the clock model, the time scales, pulses and captures (R241–R263). -/

namespace Sys2Proof.Machine

/-- TIME_CONFIG (Table 10.10). -/
structure TimeCfg where
  sources : Nat
  stepEn : Bool
  returnEpochs : Nat
  holdLimit : Nat
  holdUnc : Nat
  stepThr : Nat
  slewMax : Nat
  servoTau : Nat
  lockTol : Nat
  validSig : Nat
  deriving DecidableEq, Repr

/-- One linear segment of the clock model (R241): anchor DT without the wrap, GPS time there in 2⁻³² ns, slope, and GEN. -/
structure Seg where
  dt : Nat
  t : Int
  slope : Rat
  gen : Nat
  deriving DecidableEq, Repr

/-- A fractional offset of a scale in ns: slewed from a value at a DT toward a target (R246). -/
structure Delta where
  start : Rat
  since : Nat
  target : Rat
  deriving DecidableEq, Repr

/-- What a source gives at an epoch (R247): phase error in ns, frequency error, σ in ns. -/
structure SourceFix where
  e : Rat
  y : Rat
  sigma : Rat
  deriving DecidableEq, Repr

/-- A segment that waits for the next beat boundary (R241, R248). -/
inductive NextSeg where
  | slope (s : Rat)
  /-- the first setting: t_e, source time in 2⁻³² ns and y -/
  | first (te : Nat) (t : Int) (y : Rat)
  deriving DecidableEq, Repr

/-- The clock model and the state of reported time. -/
structure Clock where
  cfg : Coded TimeCfg
  /-- Table 10.3: 0 NO_TIME, 1 LOCKED, 2 HOLDOVER, 3 SLEW, 4 STEP_PENDING, 5 UNQUALIFIED -/
  state : Nat
  /-- the state that STEP_PENDING came from -/
  from_ : Nat
  /-- 0 none, 1 GNSS, 2 PTP EP0, 3 PTP EP1, 4 PPSIN -/
  source : Nat
  gen : Nat
  /-- newest first -/
  segs : List Seg
  next : Option NextSeg
  /-- latest phase error, and the y in force -/
  e : Rat
  y : Rat
  /-- frequency, aging per ns and their σ at the loss; DT of the last epoch with a valid source -/
  yh : Rat
  aging : Rat
  sigmaY : Rat
  lastValid : Nat
  /-- UNC at the last epoch with a valid source, ns -/
  uncH : Rat
  /-- consecutive epochs: valid ones toward a return, and those with |e| > STEP_THR in LOCKED -/
  good : Nat
  big : Nat
  /-- source changed while in SLEW: its e is not used by the servo -/
  changed : Bool
  /-- STEP_PENDING: the whole second of GPS time, in ns, at which the step comes -/
  step : Option Nat
  steps : Nat
  /-- LEAP with the DT from which it holds, newest first; a leap second to come: GPS instant in ns and the new LEAP -/
  leaps : List (Nat × Nat)
  leapNext : Option (Nat × Nat)
  /-- the leap-second count of QDP TIME, used while none is decoded (R230) -/
  qdpLeap : Option Nat
  /-- offsets of Galileo, BeiDou, GLONASS and UTC -/
  deltas : List (Option Delta)
  /-- accepted PPSIN edges, newest first: DT and e in ns -/
  pps : List (Nat × Rat)
  /-- what GNSS gave at the last epoch, where it was valid (Table 10.2) -/
  gnss : Option SourceFix
  deriving DecidableEq, Repr

/-- Pulse-coded settings of a TP output. -/
structure TpPulse where
  policy : Nat
  width : Nat
  cable : Int
  deriving DecidableEq, Repr

/-- One TP output (R252–R256). -/
structure TpOut where
  enable : Bool
  scale : Nat
  period : Nat
  offset : Int
  pulse : Coded TpPulse
  /-- DT of the commit that enabled it -/
  enabledAt : Nat
  lastEdge : Option Nat
  omitted : Nat
  /-- GEN of the last emitted mark -/
  markGen : Option Nat
  /-- the pulse in progress ends at this DT -/
  pulseEnd : Option Nat
  deriving DecidableEq, Repr

/-- FOUT (R257). -/
structure FoutOut where
  enable : Bool
  scale : Nat
  freq : Nat
  /-- SUPPRESS and CABLE_DELAY -/
  pulse : Coded (Bool × Int)
  level : Bool
  lastEdge : Option Nat
  /-- enabled, first whole second not reached yet -/
  waiting : Bool
  deriving DecidableEq, Repr

/-- A host event record (Table 10.9). -/
structure EvRec where
  seq : Nat
  input : Nat
  flags : Nat
  gen : Nat
  dt : DT
  epoch : BitVec 32
  unc : Nat
  time : Nat
  deriving DecidableEq, Repr

/-- One event-capture input (R258, R259). -/
structure EvInput where
  edge : Nat
  owner : Nat
  notify : Bool
  minWidth : Nat
  cable : Int
  ring : List EvRec
  seq : Nat
  /-- beat of the last accepted edge, edges accepted in it, and an edge was dropped -/
  beat : Nat
  count : Nat
  dropped : Bool
  deriving DecidableEq, Repr

/-- Group 0x09. -/
structure TimeSys where
  clock : Clock
  tps : List TpOut
  fout : FoutOut
  evs : List EvInput
  deriving DecidableEq, Repr

def TimeCfg.reset : TimeCfg :=
  { sources := 1, stepEn := true, returnEpochs := 3, holdLimit := 600, holdUnc := 0, stepThr := 100, slewMax := 100, servoTau := 4
    lockTol := 20, validSig := 50 }

def Clock.reset : Clock :=
  { cfg := .at TimeCfg.reset, state := 0, from_ := 0, source := 0, gen := 0, segs := [], next := none, e := 0, y := 0, yh := 0, aging := 0
    sigmaY := 0, lastValid := 0, uncH := 0, good := 0, big := 0, changed := false, step := none, steps := 0, leaps := [], leapNext := none, qdpLeap := none
    deltas := [none, none, none, none], pps := [], gnss := none }

def TpOut.reset : TpOut :=
  { enable := false, scale := 0, period := 0, offset := 0, pulse := .at ⟨0, 100000, 0⟩, enabledAt := 0, lastEdge := none, omitted := 0
    markGen := none, pulseEnd := none }

def FoutOut.reset : FoutOut :=
  { enable := false, scale := 0, freq := 1, pulse := .at (false, 0), level := false, lastEdge := none, waiting := false }

def EvInput.reset : EvInput :=
  { edge := 0, owner := 0, notify := false, minWidth := 2, cable := 0, ring := [], seq := 0, beat := 0, count := 0, dropped := false }

def TimeSys.reset : TimeSys :=
  { clock := Clock.reset, tps := List.replicate 4 TpOut.reset, fout := FoutOut.reset, evs := List.replicate 9 EvInput.reset }

end Sys2Proof.Machine
end

