-- ==== Sys2Proof/Machine/StateTrack.lean ====
section
/-! DEFINITION. State of the loop cores (R122–R154) and of the Carafe (R288–R302). -/

namespace Sys2Proof.Machine

/-- A tracking profile (Table 6.11). -/
structure Profile where
  flags : BitVec 8
  pllBw : Nat
  fllBw : Nat
  dllBw : Nat
  pullPllBw : Nat
  pullFllBw : Nat
  cn0Track : Nat
  cn0Loss : Nat
  cn0LossSky : Nat
  pldThr : Nat
  pullinMax : Nat
  coastMax : Nat
  coastMaxSky : Nat
  tintMax : Nat
  slipThr : Nat
  wMin : Nat
  wMax : Nat
  wRate : Nat
  cn0Vec : Nat
  cn0Scal : Nat
  innovCode : Nat
  innovFreq : Nat
  skyHoldoff : Nat
  bsWindow : Nat
  deriving DecidableEq, Repr

/-- The words of a channel in one beat (R133). -/
structure BeatWords where
  beat : Nat
  state : Nat
  carr : Int
  code : Nat
  deriving DecidableEq, Repr

/-- What the detectors keep of one dump (R128, R137, R138). -/
structure DumpPast where
  beat : Nat
  seq : Nat
  /-- window length in samples -/
  count : Nat
  prompt : Int × Int
  noise : Int × Int
  /-- powers scaled for missing samples: prompt and noise -/
  pp : Rat
  pn : Rat
  /-- the dump counts for C/N0, and for PLD -/
  forCn0 : Bool
  forPld : Bool
  /-- the T10 tap was enabled -/
  noiseOn : Bool
  deriving DecidableEq, Repr

/-- Loop state, detectors and status of one channel (R130–R151). DEDUCED (log 31). -/
structure Track where
  profile : Coded Nat
  reason : Nat
  /-- reason of a state written and not latched yet -/
  why : Nat
  stateBeat : Nat
  /-- the filters are initialised from the latched words -/
  init : Bool
  r1 : Rat
  r2 : Rat
  q : Rat
  weight : Nat
  bitSync : Bool
  secSync : Bool
  halfAmbig : Bool
  fllAssist : Bool
  dllOpen : Bool
  bocLayout : Bool
  /-- the channel was handed over by the Grinder (R131) -/
  handover : Bool
  skyBlocked : Bool
  cn0 : Nat
  pld : Int
  bwPll : Nat
  bwDll : Nat
  codeErr : Int
  freqErr : Int
  lockTime : Nat
  slipCount : Nat
  /-- beat of the last slip -/
  slipBeat : Option Nat
  words : List BeatWords
  past : List DumpPast
  /-- beat of the last service, and the unusable dumps in a row -/
  lastBeat : Nat
  unusable : Nat
  /-- beat since which PLD ≥ PLD_THR, and since which it is below; the drop has been counted -/
  pldSince : Option Nat
  dropSince : Option Nat
  dropCounted : Bool
  /-- beat since which |e_f| < 5 Hz in PULL-IN; both terms act (R134) -/
  ferrSince : Option Nat
  pullPhase : Bool
  /-- window centre, in beats, and phase error of the last update (R148) -/
  predicted : Option (Rat × Rat)
  /-- primary periods counted since the channel left IDLE, SEQ of the last dump, and the count at secondary index 0 (R140, R141) -/
  periods : Nat
  lastSeq : Option Nat
  secBase : Nat
  /-- bit histogram and its start (R140) -/
  bins : List Nat
  binStart : Nat
  /-- usable prompts of the secondary-code search (R141) -/
  secPrompts : List Int
  /-- sums of the magnitudes of T3, T5 and T7, and dumps in them (R132) -/
  shape : List Nat
  shapeCount : Nat
  /-- ACC_SHIFT: beat of the last change, beat since which the prompt is below 2¹⁸ (R129) -/
  shiftBeat : Nat
  quietSince : Option Nat
  /-- COAST: state left, loss threshold that applied, and whether the prediction stayed valid since entry -/
  coastFrom : Nat
  coastThr : Nat
  coastVec : Bool
  /-- C/N0 threshold of LOCKED, in 0.01 dB-Hz (R124) -/
  pullThr : Nat
  /-- consecutive updates with INNOVATION, and beat at which the last fallback condition cleared (R146) -/
  innov : Nat
  clearBeat : Nat
  deriving DecidableEq, Repr

/-- The loop cores' shared memory. -/
structure Tracking where
  profiles : List (Coded Profile)
  tracks : Tab Track
  /-- per channel: the prediction in use -/
  preds : Tab (Option Prediction)
  /-- satellites flagged by the signal-integrity monitor or excluded from the solution: channels -/
  flagged : List Nat
  excluded : List Nat
  deriving DecidableEq, Repr

/-- Carafe settings (Table 12.3). -/
structure CarafeCfg where
  format : Nat
  first : Nat
  banks : Nat
  streams : List Nat
  pre : Nat
  post : Nat
  mask : Nat
  evSel : Nat
  evEdge : Nat
  deriving DecidableEq, Repr

/-- Window states (Table 12.1). -/
inductive WindowState where
  | free | filling | frozen | replaying
  deriving DecidableEq, Repr

/-- A history window (R293–R296). -/
structure HistWindow where
  state : WindowState
  truncated : Bool
  /-- TRIG_MASK bit of each trigger, in order -/
  triggers : List Nat
  first : Nat
  last : Nat
  /-- DT of the first trigger, its beat, and the tick in which it was raised -/
  trigDt : DT
  trigBeat : Nat
  trigNow : Nat
  /-- MIX_WORD of each stream at the trigger -/
  mix : List Int
  /-- the latest PVT or fused record at the trigger (R296) -/
  live : Option NavRec
  /-- CARAFE_RELEASE takes effect at the next boundary -/
  release : Bool
  deriving DecidableEq, Repr

/-- A replay (R297–R300). -/
structure Replay where
  window : Nat
  sealIt : Bool
  groups : BitVec 32
  /-- OFFSET = L₀ − W_first -/
  offset : Int
  /-- ledger entries it wrote -/
  entries : List Nat
  deriving DecidableEq, Repr

/-- The Carafe. -/
structure Carafe where
  cfg : CarafeCfg
  arm : Coded Bool
  /-- the banks belong to the Carafe writer -/
  placed : Bool
  /-- RATE of each stream when the layout was fixed -/
  rates : List Nat
  /-- a CARAFE_CFG with ARM = 0 waits for its boundary to release the banks -/
  freeReq : Bool
  windows : List HistWindow
  /-- beat that each slot of the history ring holds, plus 1; 0: none -/
  slots : Tab Nat
  next : Nat
  /-- MIX_WORD of each stream in the beat that each slot holds -/
  mixes : Tab (List Int)
  replay : Option Replay
  /-- mean square of each stream's components in the beat before, I and Q, in LSB² of the ring format -/
  rms : List (Option (Rat × Rat))
  deriving DecidableEq, Repr

/-- Defaults of Table 6.14. -/
def Profile.reset : Profile :=
  { flags := 0x2D, pllBw := 1500, fllBw := 200, dllBw := 500, pullPllBw := 1800, pullFllBw := 1000, cn0Track := 2500, cn0Loss := 1800
    cn0LossSky := 600, pldThr := 26214, pullinMax := 1500, coastMax := 1000, coastMaxSky := 10000, tintMax := 8, slipThr := 64, wMin := 64
    wMax := 256, wRate := 4, cn0Vec := 2000, cn0Scal := 4000, innovCode := 256, innovFreq := 500, skyHoldoff := 1000, bsWindow := 2000 }

/-- DESIGN CHOICE (log 7). -/
def Track.reset : Track :=
  { profile := .at 0, reason := 0, why := 0, stateBeat := 0, init := false, r1 := 0, r2 := 0, q := 0, weight := 0, bitSync := false, secSync := false
    halfAmbig := false, fllAssist := false, dllOpen := false, bocLayout := false, handover := false, skyBlocked := false, cn0 := 0, pld := 0
    bwPll := 0, bwDll := 0, codeErr := 0, freqErr := 0, lockTime := 0, slipCount := 0, slipBeat := none, words := [], past := [], lastBeat := 0
    unusable := 0, pldSince := none, dropSince := none, dropCounted := false, ferrSince := none, pullPhase := false, predicted := none, periods := 0, lastSeq := none, secBase := 0
    bins := [], binStart := 0, secPrompts := [], shape := [0, 0, 0], shapeCount := 0, shiftBeat := 0, quietSince := none, coastFrom := 2
    coastThr := 0, coastVec := false, pullThr := 2500, innov := 0, clearBeat := 0 }

def Tracking.reset : Tracking := { profiles := List.replicate 8 (.at Profile.reset), tracks := [], preds := [], flagged := [], excluded := [] }

/-- DESIGN CHOICE (log 6). -/
def CarafeCfg.reset : CarafeCfg :=
  { format := 0, first := 0, banks := 1, streams := [0xFF, 0xFF, 0xFF, 0xFF], pre := 1, post := 0, mask := 0, evSel := 0, evEdge := 1 }

def HistWindow.reset : HistWindow :=
  { state := .free, truncated := false, triggers := [], first := 0, last := 0, trigDt := 0, trigBeat := 0, trigNow := 0
    mix := [0, 0, 0, 0], live := none, release := false }

def Carafe.reset : Carafe :=
  { cfg := CarafeCfg.reset, arm := .at false, placed := false, rates := [0, 0, 0, 0], freeReq := false, mixes := [], windows := List.replicate 8 HistWindow.reset, slots := [], next := 0
    replay := none, rms := [none, none, none, none] }

end Sys2Proof.Machine
end

