-- ==== Sys2Proof/Machine/State.lean ====
section
/-! DEFINITION. The state of the QTH-2048, its reset value, and the reasons a step can stop. -/

namespace Sys2Proof.Machine
open Sys2Proof

/-- A Decant image whose header is VALID (Table 20.5). -/
structure SavedImage where
  saveSeq : Nat
  /-- 1 sag, 2 planned, 3 REFIN loss -/
  cause : Nat
  epoch : BitVec 32
  dt : DT
  /-- CLOCK: y, a and σ of y; RTC correlation: RTC count and reported GPS time in ns, where it was valid -/
  y : Rat
  aging : Rat
  sigmaY : Rat
  rtc : Nat
  time : Option Nat
  fix : Option NavRec
  /-- SEAL: the last counter value assigned, and whether one was -/
  sealLast : Nat
  sealAny : Bool
  /-- LAST, executed mask and history flag per session (R318) -/
  sessions : List (BitVec 16 × BitVec 64 × Nat)
  /-- open UNVERIFIED ranges (R414) -/
  unverified : List (Nat × Nat)
  freezes : List FreezeRec
  faults : List FaultRec
  /-- the latest 64 sealed records (R425) -/
  seals : List (Nat × List Byte)
  trip : List TripRec
  deriving DecidableEq, Repr

/-- Contents that survive a loss of every supply: MRAM records and OTP (R474, R477).  TRANSPORT_CFG, SEAL_CFG and a surveyed ARP are kept there too;
they always agree with the settings in `State.transports`, `State.sealing` and `RefStn.saved`, which a start-up keeps. DEDUCED (log 78). -/
structure Nonvol where
  /-- the 32-bit DT epoch ID (R26) -/
  epoch : BitVec 32
  /-- the installation record (R49); none: uninstalled -/
  install : Option Install
  /-- UART_CFG with OWNER = 0: FRAME and DIV per UART (R431) -/
  uarts : List (Nat × Nat)
  percCfg : PercCfg
  percRules : List PercRule
  /-- the reservation ceiling CEIL of the seal counter (R423) -/
  ceil : Nat
  /-- bank repairs: bank, rows, bit positions (R353) -/
  repairs : List (Nat × List Nat × List Nat)
  /-- OSNMA Merkle root and public keys (R171), oldest first -/
  osnma : List OsnmaKey
  /-- the two Decant image slots; none: INVALID (R461) -/
  images : List (Option SavedImage)
  /-- the last Decant did not reach its step 4 (R461) -/
  cut : Bool
  /-- FW_VERIFY of slots A and B since their last FW_WRITE reported VALID (R477) -/
  verified : List Bool
  /-- almanac blocks and data sets kept in MRAM (R188) -/
  almanac : List (Nat × List Byte)
  sets : Tab (Option DataSet)
  /-- an interrupted march test: bank, and whether it was destructive (R364) -/
  marchOpen : Option (Nat × Bool)
  /-- the trip-log tail in MRAM (R467) -/
  tripTail : List TripRec
  bootSel : BootSel
  /-- OTP: bits of RK1 blown and its completion marker (R502) -/
  rk1 : BitVec 256
  rk1Done : Bool
  /-- a programming of RK1 was cut off (R502) -/
  rk1Open : Bool
  /-- OTP: blown bits of the anti-rollback counter N (R476) -/
  rollback : Nat
  deriving DecidableEq, Repr

/-- The state of the block. -/
structure State where
  pending : List Instr
  nv : Nonvol
  time : TimeBase
  overruns : OverrunLog
  sessions : List Session
  transports : List Transport
  power : Power
  holdup : Holdup
  perc : Perc
  boot : BootInfo
  tap : Tap
  tripLog : List TripRec
  faultLog : List FaultRec
  mem : MemSys
  cores : List Core
  uc : UcBlock
  cipher : Cipher
  sealing : Seal
  periph : Periph
  inputs : List SampleInput
  subbands : List Subband
  grinder : Grinder
  fabric : Fabric
  tracking : Tracking
  carafe : Carafe
  timeSys : TimeSys
  nav : NavSys
  corr : CorrSys
  eth : List EthPort
  /-- the model's own counter of free values: no rule names it -/
  freeCtr : Nat
  deriving DecidableEq, Repr

/-- MRAM and OTP of a part that has never started: uninstalled, defaults everywhere, no Decant image, nothing blown. DESIGN CHOICE (log 5). -/
def Nonvol.reset : Nonvol :=
  { epoch := 0, install := none, uarts := List.replicate 6 (0, 13542), percCfg := PercCfg.reset, percRules := List.replicate 32 PercRule.reset, ceil := 0
    repairs := [], osnma := [], images := [none, none], cut := false, verified := [false, false], almanac := [], sets := [], marchOpen := none
    tripTail := [], bootSel := BootSel.reset, rk1 := 0, rk1Done := false, rk1Open := false, rollback := 0 }

/-- The machine when power is first applied: PD0 is on, and the boot ROM is about to run (R472, R473). DESIGN CHOICE (log 3, 6, 7). -/
def State.reset : State :=
  { pending := [], nv := Nonvol.reset, time := TimeBase.reset, overruns := OverrunLog.reset, sessions := List.replicate 16 Session.reset
    transports := (List.range 11).map Transport.reset, power := Power.reset, holdup := Holdup.reset, perc := Perc.reset, boot := BootInfo.reset
    tap := Tap.reset, tripLog := [], faultLog := [], mem := MemSys.reset, cores := List.replicate 8 Core.reset, uc := UcBlock.reset
    cipher := Cipher.reset, sealing := Seal.reset, periph := Periph.reset, inputs := List.replicate 8 SampleInput.reset
    subbands := List.replicate 32 Subband.reset, grinder := Grinder.reset, fabric := Fabric.reset, tracking := Tracking.reset, carafe := Carafe.reset
    timeSys := TimeSys.reset, nav := NavSys.reset, corr := CorrSys.reset, eth := [EthPort.reset, EthPort.reset], freeCtr := 0 }

/-- Reasons a step faults.  No rule of the spec stops the machine: a violation freezes one master or resets the device (R356). DESIGN CHOICE (log 82). -/
inductive Fault where
  /-- raised by no meaning; safe -/
  | machineStopped
  deriving DecidableEq, Repr

/-- Reasons a step is refused. DESIGN CHOICE (log 82). -/
inductive Refusal where
  /-- a row that has no meaning yet, raised by its arm of `exec`; safe -/
  | notModelled (mnemonic : String)
  deriving DecidableEq, Repr

end Sys2Proof.Machine
end

