-- ==== Sys2Proof/Machine/Protocol.lean ====
section
/-! DEFINITION. The command protocol: the one pipeline of R314 that every host command runs through, replies, notices and completions (R303–R335). -/

namespace Sys2Proof.Machine
open Sys2Proof

/-! ### Status codes (Table 13.8) -/

def stOk : Nat := 0x00
def stAccepted : Nat := 0x01
def stDuplicate : Nat := 0x02
def stBadOpcode : Nat := 0x10
def stBadLength : Nat := 0x11
def stRange : Nat := 0x12
def stState : Nat := 0x13
def stPriv : Nat := 0x14
def stBusy : Nat := 0x15
def stStale : Nat := 0x16
def stNoResource : Nat := 0x20
def stBudget : Nat := 0x21
def stKeyBusy : Nat := 0x30
def stKeyRevoked : Nat := 0x31
def stTagFail : Nat := 0x32
def stFault : Nat := 0x40
def stTimeout : Nat := 0x41

/-- The status and payload of a reply. -/
structure Reply where
  stat : Nat
  payload : List Byte
  deriving DecidableEq, Repr

def Reply.ok (p : List Byte) : Reply := ⟨stOk, p⟩
/-- ST_RANGE with the offset of the field (R306). DEDUCED (log 16). -/
def Reply.range (off : Int) : Reply := ⟨stRange, i16 off ++ rsv 2⟩
def Reply.state : Reply := ⟨stState, []⟩
/-- ST_PRIV with REQUIRED and HELD (R322). -/
def Reply.priv (required held : Nat) : Reply := ⟨stPriv, u8 required ++ u8 held ++ rsv 2⟩
def Reply.badLength (lo hi : Nat) : Reply := ⟨stBadLength, u16 lo ++ u16 hi⟩
def Reply.busy (reason : Nat) : Reply := ⟨stBusy, u8 reason ++ rsv 3⟩
def Reply.noResource : Reply := ⟨stNoResource, []⟩

/-! ### Power and ports -/

/-- Domain PDn is on (R450). DEDUCED (log 12). -/
def State.on (s : State) (n : Nat) : Bool := s.power.domains.getLsbD n

/-- CC runs: the device is in RUN or WATCH (R452). DEDUCED (log 12). -/
def State.live (s : State) : Bool := decide (s.power.phase = .on)

/-- The domain that carries a transport (Table 1.8). -/
def transportDomain (t : Nat) : Nat := if t ≤ 1 then 2 else if t ≤ 7 then 14 else if t ≤ 9 then 12 else 10

/-- The transport receives and sends: it is enabled, its domain is on and its port serves QCP. -/
def State.transportUp (s : State) (t : Nat) : Bool :=
  s.live && s.on (transportDomain t) && ((s.transports[t]?).map (·.enable)).getD false

/-! ### Output queues -/

/-- Bytes of a frame on the wire: LEN + 8 (R303). -/
def Frame.size (f : Frame) : Nat := 16 + f.payload.length

def OutBody.size : OutBody → Nat
  | .nak _ _ => 6
  | .frame f => f.size

/-- NAKs go ahead of replies, replies ahead of notices (R310). -/
def OutBody.rank : OutBody → Nat
  | .nak _ _ => 0
  | .frame f => match f.kind with | .reply => 1 | .notice => 2

/-- Insert before the first item of a higher rank. -/
def insertRanked (x : OutItem) : List OutItem → List OutItem
  | [] => [x]
  | y :: ys => if x.body.rank < y.body.rank then x :: y :: ys else y :: insertRanked x ys

/-- Queue an item; the item that has started to send keeps its place (R310). -/
def Transport.queue (t : Transport) (x : OutItem) : Transport :=
  match t.out, t.sent with
  | y :: ys, _ + 1 => { t with out := y :: insertRanked x ys }
  | ys, _ => { t with out := insertRanked x ys }

/-- The bytes of a frame on the wire (Table 13.1). DEDUCED (log 49). -/
def Frame.bytes (f : Frame) : List Byte :=
  let body := u8 1 ++ u8 ((match f.kind with | .reply => 16 | .notice => 32) + f.sess) ++ leBytes 2 f.seq.toNat ++ u16 f.opc
    ++ [f.flg] ++ u8 f.stat ++ f.payload
  [0xCA, 0xFE] ++ u16 (8 + f.payload.length) ++ body ++ u32 (crc32c body)

/-- The six bytes of a NAK (R309) or the bytes of a frame. -/
def OutBody.bytes : OutBody → List Byte
  | .nak c n => [0xCA, 0xFE] ++ u16 0 ++ u8 c ++ u8 n
  | .frame f => f.bytes

/-- Put an item on a transport; a disabled transport discards it (R310). -/
def State.send (s : State) (t : Nat) (x : OutItem) : State :=
  if s.transportUp t then { s with transports := modAt s.transports t (fun r => r.queue x) } else s

/-- Reject a frame with a NAK (R309). -/
def State.nak (s : State) (t : Nat) (dst : Endpoint) (cause : Nat) : State :=
  if s.transportUp t then
    { s with transports := modAt s.transports t fun r =>
        let n := (r.nakCount + 1) % 256
        { r with nakCount := n }.queue ⟨dst, .nak cause n⟩ }
  else s

/-! ### Notices (R319) -/

def Session.opened (e : Session) : Bool := e.binding.isSome

/-- Bytes of one session's notices that wait on a transport. -/
def noticeBytes (i : Nat) (out : List OutItem) : Nat :=
  (out.map fun x => match x.body with
    | .frame f => if f.kind = .notice ∧ f.sess = i then f.size else 0
    | .nak _ _ => 0).sum

/-- The session's notice queue of 32 KiB has room (R319). -/
def State.noticeRoom (s : State) (i t n : Nat) : Bool :=
  decide (noticeBytes i (((s.transports[t]?).map (·.out)).getD []) + n ≤ 32768)

/-- Queue NOTICE_LOST for a session that lost notices, once there is space (R319). -/
def State.reportLost (s : State) (i : Nat) : State :=
  match s.sessions[i]? with
  | some e =>
    match e.binding with
    | some b =>
      if e.lostPending ≠ 0 && s.noticeRoom i b.transport 24 then
        let f : Frame := { kind := .notice, sess := i, seq := e.noticeSeq, opc := 0x8002, flg := 0, stat := 0
                           payload := u32 e.lostPending ++ leBytes 2 e.firstLost.toNat ++ rsv 2 }
        ({ s with sessions := modAt s.sessions i fun e => { e with noticeSeq := e.noticeSeq + 1, lostPending := 0 } }).send
          b.transport ⟨b.ep, .frame f⟩
      else s
    | none => s
  | none => s

/-- Queue one notice for one open session: its SEQ advances, and a full queue counts it as lost (R319). -/
def State.noticeTo (s : State) (i opc : Nat) (sameTick : Bool) (payload : List Byte) : State :=
  let s := s.reportLost i
  match s.sessions[i]? with
  | some e =>
    match e.binding with
    | some b =>
      let f : Frame := { kind := .notice, sess := i, seq := e.noticeSeq, opc := opc, flg := if sameTick then 2 else 0, stat := 0
                         payload := payload }
      if e.lostPending = 0 && s.noticeRoom i b.transport f.size then
        ({ s with sessions := modAt s.sessions i fun e => { e with noticeSeq := e.noticeSeq + 1 } }).send
          b.transport ⟨b.ep, .frame f⟩
      else
        { s with sessions := modAt s.sessions i fun e =>
            { e with noticeSeq := e.noticeSeq + 1, lostPending := sat32 (e.lostPending + 1), lostTotal := sat32 (e.lostTotal + 1)
                     firstLost := if e.lostPending = 0 then e.noticeSeq else e.firstLost } }
    | none => s
  | none => s

/-- The group of an opcode: bits 14 to 8 (R326). -/
def opcGroup (opc : Nat) : Nat := opc / 256 % 128

/-- Route a notice to every open session whose mask has its group's bit (R319). -/
def State.notifyF (s : State) (opc : Nat) (sameTick : Bool) (payload : List Byte) : State :=
  (List.range 16).foldl (fun s i =>
    match s.sessions[i]? with
    | some e => if e.opened && e.mask.getLsbD (opcGroup opc) then s.noticeTo i opc sameTick payload else s
    | none => s) s

/-- A notice whose tick holds no other event. -/
def State.notify (s : State) (opc : Nat) (payload : List Byte) : State := s.notifyF opc false payload

/-! ### Sequence numbers (R315–R318) -/

/-- The distance of a SEQ behind LAST. -/
def Session.behind (e : Session) (seq : BitVec 16) : Nat := (e.last - seq).toNat

/-- The reply cache entry of a SEQ. -/
def Session.cached (e : Session) (seq : BitVec 16) : Option Frame := (e.cache.find? (fun x => x.1 == seq)).map (·.2)

/-- How a SEQ stands to its session (Table 13.7). -/
inductive SeqClass where
  | running | new | duplicate (cached : Option Frame) | stale
  deriving DecidableEq, Repr

/-- Sequence classification (Table 13.7). -/
def Session.classify (e : Session) (seq : BitVec 16) : SeqClass :=
  if e.running.any (fun x => x.1 == seq) then .running
  else if e.history = 0 then .new
  else
    let d := (seq - e.last).toNat
    if 1 ≤ d ∧ d ≤ 32767 then .new
    else
      let b := e.behind seq
      if b < 64 then (if e.executed.getLsbD b then .duplicate (e.cached seq) else .new) else .stale

/-- Keep the cached replies whose SEQ is in the window (R317). -/
def Session.trim (e : Session) : Session := { e with cache := e.cache.filter fun x => e.behind x.1 < 64 }

/-- Put a reply into the cache: at most 512 bytes of frame, one for each SEQ in the window (R317). -/
def Session.store (e : Session) (f : Frame) : Session :=
  let rest := e.cache.filter fun x => x.1 != f.seq
  if f.size ≤ 512 && e.behind f.seq < 64 then { e with cache := rest ++ [(f.seq, f)] } else { e with cache := rest }

/-- Record an executed command (R315). -/
def Session.record (e : Session) (seq : BitVec 16) : Session :=
  if e.history = 0 then { e with last := seq, executed := 1, history := 1, cache := [] }
  else
    let d := (seq - e.last).toNat
    if 1 ≤ d ∧ d ≤ 32767 then ({ e with last := seq, executed := e.executed <<< d ||| 1 }).trim
    else { e with executed := e.executed ||| (1#64 <<< e.behind seq) }

/-! ### The pipeline of R314 -/

/-- Payload length: the range of Table 14.2 and the length that the payload's own fields imply (R329). -/
structure LenRule where
  lo : Nat
  hi : Nat
  implied : List Byte → Option Nat

def LenRule.fixed (n : Nat) : LenRule := ⟨n, n, fun _ => none⟩

/-- A count as written, limited to its range (R329). -/
def clampN (lo hi v : Nat) : Nat := max lo (min hi v)

def LenRule.check (r : LenRule) (p : List Byte) : Option Reply :=
  if p.length < r.lo || r.hi < p.length then some (.badLength r.lo r.hi)
  else match r.implied p with
    | some n => if p.length = n then none else some (.badLength n n)
    | none => none

/-- A command of Table 14.2: its checks in the order of R322, and its effect. -/
structure HostCmd where
  opcode : Nat
  len : LenRule
  /-- 0 observer, 1 operator, 2 owner -/
  priv : Nat
  unsequenced : Bool := false
  /-- a privilege check of the command's own -/
  privExtra : Qcp → State → Option Reply := fun _ _ => none
  /-- field offset and whether the field is in range, in ascending order of offset -/
  range : Qcp → State → List (Int × Bool) := fun _ _ => []
  /-- conditions without which the command returns ST_STATE -/
  state : Qcp → State → List Bool := fun _ _ => []
  /-- resource and other late checks, with their own payloads -/
  late : Qcp → State → Option Reply := fun _ _ => none
  effect : Qcp → State → State × Reply

/-- In RECOVERY only these opcodes are served, on HS0 (R473). DEDUCED (log 14). -/
def recoveryServes (opc : Nat) : Bool := [0x0001, 0x0002, 0x0003, 0x0004, 0x0005, 0x0010, 0x0020, 0x0F01, 0x0F10, 0x0F11, 0x0F12, 0x0F30].contains opc

/-- The domains a command needs are on (Table 20.11). DEDUCED (log 14). -/
def domainsOn (opc : Nat) (p : List Byte) (s : State) : Bool :=
  let f (off : Nat) := fieldU p off 1
  let inputDom (n : Nat) := if n < 4 then s.on 3 else s.on 4
  let lanes := s.on 5 || s.on 6
  match opc with
  | 0x0201 | 0x0203 | 0x0204 | 0x0210 | 0x0212 | 0x0260 | 0x0261 | 0x0E10 => s.on 15
  | 0x0B01 => f 0 != 1 || s.on 15
  | 0x0310 => f 1 != 1 || inputDom (f 0)
  | 0x0330 => inputDom (f 0)
  | 0x0320 => inputDom (f 0 / 4)
  | 0x0401 | 0x0402 | 0x0410 | 0x0411 | 0x0412 | 0x0413 => s.on 7
  | 0x0501 | 0x0511 | 0x0512 | 0x0513 | 0x0530 => lanes
  | 0x0510 => s.on 8 && lanes
  | 0x0610 | 0x0641 | 0x0F20 => s.on 8
  | 0x0661 | 0x0672 | 0x0702 | 0x0703 | 0x0730 | 0x0731 | 0x0740 | 0x0741 | 0x0802 | 0x0810 | 0x0841 | 0x0F21 => s.on 9
  | 0x0840 => f 0 != 1 || s.on 9
  | 0x0B20 => s.on 7 && s.on 8 && s.on 9 && lanes
  | 0x0921 => s.on 13
  | 0x0A02 | 0x0A11 | 0x0A12 | 0x0A20 | 0x0A21 => s.on 12
  | 0x0C01 | 0x0C10 | 0x0C11 | 0x0C12 | 0x0C20 | 0x0C31 | 0x0C33 => s.on 11
  | 0x0C30 => f 0 != 1 || s.on 11
  | 0x0D02 | 0x0D11 | 0x0D12 | 0x0D21 | 0x0D30 | 0x0D42 | 0x0D61 | 0x0D62 | 0x0F10 | 0x0F11 => s.on 14
  | 0x0E11 | 0x0E13 => s.on 10
  | 0x1020 => (!bitOf (f 0) 4 || s.on 11) && (!bitOf (f 0) 5 || lanes)
  | _ => true

/-- The first failing check in the order of R322: length, privilege, range, state (R507 first), resource. DEDUCED (log 16, 17). -/
def HostCmd.check (c : HostCmd) (q : Qcp) (held : Nat) (s : State) : Option Reply :=
  [ c.len.check q.payload,
    if held < c.priv then some (.priv c.priv held) else none,
    c.privExtra q s,
    ((c.range q s).find? (fun x => !x.2)).map (fun x => Reply.range x.1),
    if s.boot.recovery && !recoveryServes c.opcode then some .state else none,
    if domainsOn c.opcode q.payload s then none else some .state,
    if (c.state q s).all id then none else some .state,
    c.late q s ].findSome? id

/-- The checks, then the effect. DEDUCED (log 17). -/
def HostCmd.run (c : HostCmd) (q : Qcp) (held : Nat) (s : State) : State × Reply :=
  match c.check q held s with
  | some r => (s, r)
  | none => c.effect q s

/-- An unsigned payload field. -/
def Qcp.u (q : Qcp) (off n : Nat) : Nat := fieldU q.payload off n
/-- A signed payload field. -/
def Qcp.i (q : Qcp) (off n : Nat) : Int := fieldI q.payload off n
def Qcp.session (q : Qcp) : Nat := q.sess.toNat % 16
def Qcp.ep (q : Qcp) : Endpoint := if q.transport = 8 ∨ q.transport = 9 then ⟨q.addr, q.port⟩ else .zero
def Qcp.binding (q : Qcp) : Binding := ⟨q.transport, q.ep⟩

/-- The reply frame of a command. -/
def Qcp.frame (q : Qcp) (opc : Nat) (r : Reply) : Frame :=
  { kind := .reply, sess := q.session, seq := q.seq, opc := opc, flg := if q.sameTick then 2 else 0, stat := r.stat, payload := r.payload }

/-- Send a reply to the binding of the command. -/
def State.reply (s : State) (q : Qcp) (f : Frame) : State := s.send q.transport ⟨q.ep, .frame f⟩

/-- Step 1 of R314: the header fields. -/
def headerFault (q : Qcp) : Option Reply :=
  if q.ver ≠ 1 then some (.range (-8))
  else if q.sess.toNat / 16 ≠ 0 then some (.range (-7))
  else if q.flg ≠ 0 then some (.range (-2))
  else if q.stat ≠ 0 then some (.range (-1))
  else none

/-- A session lies within its transport's range (R311). -/
def sessionInRange (q : Qcp) : Bool := (q.transport == 10) == (q.session == 15)

/-- The device receives the frame: its transport is up, and in RECOVERY it came on HS0 (R473). -/
def State.receives (s : State) (q : Qcp) : Bool :=
  s.transportUp q.transport && (!s.boot.recovery || q.transport == 0)

/-- Commands past step 4 without a reply, over the device (R316). -/
def State.runningCount (s : State) : Nat := (s.sessions.map fun e => e.running.length).sum

/-- Steps 4 and 5 of R314 for a sequenced command on a session that passed step 2. -/
def sequenced (opc : Nat) (run : Nat → State → State × Reply) (q : Qcp) (e : Session) (s : State) : State :=
  match e.classify q.seq with
  | .running => s.reply q (q.frame opc (.busy 0))
  | .duplicate (some f) => s.reply q { f with flg := f.flg ||| 1 }
  | .duplicate none => s.reply q (q.frame opc ⟨stDuplicate, []⟩)
  | .stale => s.reply q (q.frame opc ⟨stStale, leBytes 2 e.last.toNat ++ rsv 2⟩)
  | .new =>
    if 4 ≤ e.running.length ∨ 32 ≤ s.runningCount then s.reply q (q.frame opc (.busy 1))
    else
      let (s', r) := run e.priv s
      let f := q.frame opc r
      ({ s' with sessions := modAt s'.sessions q.session fun e => (e.record q.seq).store f }).reply q f

/-- The processing of a frame that passed R309 (R314). DESIGN CHOICE (log 1). DEDUCED (log 17). -/
def processFrame (opc priv : Nat) (unsequenced : Bool) (run : Nat → State → State × Reply) (q : Qcp) (s : State) : State :=
  if s.receives q then
    match headerFault q with
    | some r => s.reply q (q.frame opc r)
    | none =>
      if !sessionInRange q then s.reply q (q.frame opc (.priv priv 0xFF))
      else
        match s.sessions[q.session]? with
        | none => s
        | some e =>
          if unsequenced then
            let (s', r) := run e.priv s
            s'.reply q (q.frame opc r)
          else if e.binding ≠ some q.binding ∨ e.history = 2 then s.reply q (q.frame opc .state)
          else sequenced opc run q e s
  else s

/-- The meaning of a host command. DESIGN CHOICE (log 1). DEDUCED (log 17). -/
def runHost (c : HostCmd) (q : Qcp) (s : State) : Host.Outcome State Fault Refusal :=
  .next (processFrame c.opcode c.priv c.unsequenced (fun held s => c.run q held s) q s)

/-- A deferred command ends: its reply cache entry becomes the completion and COMPLETE goes to the issuing session (R317, R319). DESIGN CHOICE (log 1). -/
def State.complete (s : State) (o : Origin) (stat : Nat) (result : List Byte) : State :=
  let f : Frame := { kind := .reply, sess := o.sess, seq := o.seq, opc := o.opc, flg := 0, stat := stat, payload := result }
  let s := { s with sessions := modAt s.sessions o.sess fun e => e.store f }
  s.noticeTo o.sess 0x8001 false (leBytes 2 o.seq.toNat ++ u16 o.opc ++ u8 stat ++ rsv 3 ++ result)

/-- The origin of a deferred command. -/
def Qcp.origin (q : Qcp) (opc : Nat) : Origin := ⟨q.session, q.seq, opc⟩

end Sys2Proof.Machine
end

