-- ==== Sys2Proof/Machine/Ops.lean ====
section
/-! DEFINITION. Shared operations on time, logs and notices that carry the beat index. -/

namespace Sys2Proof.Machine
open Sys2Proof

/-- Units of DT in one beat (R25). -/
def beatUnits : Nat := 64000000

/-- Units of DT in one millisecond: a beat is 1 ms (R23). -/
def msUnits : Nat := 64000000

/-- DT at the start of a tick, without the wrap of 64 bits (R25). DESIGN CHOICE (log 19). -/
def dtAt (beat tick : Nat) : Nat := beatUnits * beat + 32000 * tick / 13

/-- The present instant as an unwrapped DT. DESIGN CHOICE (log 19). -/
def State.now (s : State) : Nat := dtAt s.time.beat s.time.tick

/-- Time in milliseconds has passed since an unwrapped instant. -/
def State.passedMs (s : State) (since ms : Nat) : Bool := decide (since + ms * msUnits ≤ s.now)

/-- The second of DT that the present instant lies in. -/
def State.second (s : State) : Nat := s.now / (1000 * msUnits)

/-- The phase accumulator and the increment of one tick (R24). -/
def tickStep (acc : Nat) : Nat × Nat := if acc + 7 ≥ 13 then (acc + 7 - 13, 2462) else (acc + 7, 2461)

/-- The DT epoch ID after one increment: it saturates (R29). DEDUCED (log 18). -/
def nextEpoch (e : BitVec 32) : BitVec 32 := if e = 0xFFFFFFFF then e else e + 1

/-- A carry out of bit 63 of DT opens a new DT epoch: every count of records starts again at 0 (R28, R226, R259, R446). DEDUCED (log 18). -/
def State.carryEpoch (s : State) : State :=
  { s with
    nv := { s.nv with epoch := nextEpoch s.nv.epoch }
    timeSys := { s.timeSys with evs := s.timeSys.evs.map fun (e : EvInput) => { e with seq := 0 } }
    periph := { s.periph with gpio := s.periph.gpio.map fun (g : GpioPin) => { g with seq := 0 } }
    corr := { s.corr with domain := { s.corr.domain with seq := 0 } } }

/-- DT moves on by some units. DEDUCED (log 18). -/
def State.addDt (s : State) (n : Nat) : State :=
  let s' : State := { s with time := { s.time with dt := s.time.dt + BitVec.ofNat 64 n } }
  if 2 ^ 64 ≤ s.time.dt.toNat + n then s'.carryEpoch else s'

/-- The end of one ordering tick: DT advances, and a carry out of bit 63 advances the epoch (R24, R28). -/
def State.advance (s : State) : State :=
  let (acc, inc) := tickStep s.time.acc
  let (b, t) := if s.time.tick = 25999 then (s.time.beat + 1, 0) else (s.time.beat, s.time.tick + 1)
  { s with time := { s.time with acc := acc, beat := b, tick := t } }.addDt inc

/-- The rest of the beat passes: the next instant is tick 0 of the next beat, where the accumulator is 0 again (R24, R25). DESIGN CHOICE (log 19). -/
def State.toNextBeat (s : State) : State :=
  let left := dtAt (s.time.beat + 1) 0 - s.now
  { s with time := { s.time with acc := 0, beat := s.time.beat + 1, tick := 0 } }.addDt left

/-- The DT epoch ID is saturated (R29). -/
def State.saturated (s : State) : Bool := s.nv.epoch == 0xFFFFFFFF

/-- The device's own node ID; an uninstalled device uses 0 (R11, R478). -/
def State.nodeId (s : State) : Nat := ((s.nv.install).map (·.nodeId)).getD 0

/-- A valid installation record is held (R478). -/
def State.installed (s : State) : Bool := s.nv.install.isSome

/-- BEAT, the first eight bytes of most notices. -/
def State.beatBytes (s : State) : List Byte := u64 s.time.beat

def State.dtBytes (s : State) : List Byte := leBytes 8 s.time.dt.toNat

/-- Take the stamp of a fresh free value. DESIGN CHOICE (log 8). -/
def State.fresh (s : State) : State × Nat := ({ s with freeCtr := s.freeCtr + 1 }, s.freeCtr)

/-- A fresh free value of a site (`Config.openWord`). DESIGN CHOICE (log 8). -/
def State.openVal (s : State) (site : Nat) : State × Nat :=
  let (s, k) := s.fresh
  (s, (Config.openWord site k).toNat)

/-- Append to the fault log and report it (R482); no rule gives SOURCE, VALUE or the VALUE of the notice. DEDUCED (log 53). DESIGN CHOICE (log 77). -/
def State.logFault (s : State) (kind : Nat) : State :=
  let (s, source) := s.openVal 88
  let (s, value) := s.openVal 89
  let (s, v) := s.openVal 89
  let s : State := { s with faultLog := pushCap 128 s.faultLog { dt := s.time.dt, kind := kind, source := source % 256, value := value % 2 ^ 32 } }
  s.notify 0x9010 (s.beatBytes ++ u8 3 ++ rsv 3 ++ u32 (v % 2 ^ 32))

/-- Append to the trip log (Table 20.8): to the staging area while PD2 is on, else to the MRAM tail (R467); a CODE or VALUE that no rule gives is free. DESIGN CHOICE (log 77). -/
def State.logTrip (s : State) (kind : Nat) (code : Option Nat) (value : Option Int) : State :=
  let (s, c) := match code with | some c => (s, c) | none => s.openVal 87
  let (s, v) : State × Int := match value with
    | some v => (s, v)
    | none => let (s, v) := s.openVal 87; (s, (BitVec.ofNat 32 v).toInt)
  let r : TripRec := { rtc := s.perc.rtc, kind := kind, code := c % 256, value := v }
  if s.on 2 then { s with tripLog := pushCap 2048 s.tripLog r } else { s with nv := { s.nv with tripTail := pushCap 2048 s.nv.tripTail r } }

/-- Set and clear the domains' bits. -/
def State.setDomains (s : State) (d : BitVec 16) : State := { s with power := { s.power with domains := d } }

end Sys2Proof.Machine
end

