-- ==== Sys2Proof/Machine/System.lean ====
section
/-! DEFINITION. Group 0x00: sessions, transports and the events of the transports (R303–R335); the overrun log (R36, R37) and the wrap of DT (R28). -/

namespace Sys2Proof.Machine
open Sys2Proof

/-- Change one session. -/
def State.modSession (s : State) (i : Nat) (f : Session → Session) : State := { s with sessions := modAt s.sessions i f }

/-- The session of a number. -/
def State.session (s : State) (i : Nat) : Session := (s.sessions[i]?).getD Session.reset

/-- The transport of a number. -/
def State.transport (s : State) (i : Nat) : Transport := (s.transports[i]?).getD (Transport.reset i)

/-- SESSION_EVENT to the session it concerns (R324). DEDUCED (log 49). -/
def State.sessionEvent (s : State) (i kind transport priv : Nat) : State :=
  s.noticeTo i 0x8003 false (u8 kind ++ u8 i ++ u8 transport ++ u8 priv)

/-- Close one session; commands still running complete (R313). -/
def State.closeSession (s : State) (i : Nat) : State := s.modSession i fun e => { e with binding := none }

/-- Close every session bound to a transport with SESSION_EVENT CLOSED, and discard the transport's queue (R310, R453). -/
def State.dropTransport (s : State) (t : Nat) : State :=
  let s := (List.range 16).foldl (fun s i =>
    match (s.session i).binding with
    | some b => if b.transport = t then (s.sessionEvent i 3 t (s.session i).priv).closeSession i else s
    | none => s) s
  { s with transports := modAt s.transports t fun r => { r with out := [], sent := 0, rx := [] } }

/-! ### IDENTITY, SESSION_OPEN, SESSION_CLOSE, SESSION_STATUS, ECHO, NOTICE_MASK -/

/-- The 32 bytes of IDENTITY (R324). -/
def identityBytes (s : State) : List Byte :=
  u16 0x2048 ++ u8 0xB0 ++ [Config.grade] ++ u16 s.nodeId
  ++ u16 ((if s.installed then 1 else 0) + (if s.saturated then 2 else 0)) ++ leBytes 4 s.nv.epoch.toNat
  ++ u32 s.boot.fwCc ++ u32 s.boot.fwLoop ++ u32 s.boot.fwNav ++ leBytes 8 Config.serial.toNat

def identityCmd : HostCmd :=
  { opcode := 0x0001, len := .fixed 0, priv := 0, unsequenced := true, effect := fun _ s => (s, .ok (identityBytes s)) }

def execIdentity (q : Qcp) (s : State) : Host.Outcome State Fault Refusal := runHost identityCmd q s

/-- A session is bound to something other than the command's binding. -/
def boundElsewhere (q : Qcp) (e : Session) : Bool :=
  match e.binding with
  | some b => decide (b ≠ q.binding)
  | none => false

/-- SESSION_OPEN: opens, changes or, with FORCE, rebinds; RESET clears the history (R313, R318). -/
def sessionOpen (q : Qcp) (s : State) : State × Reply :=
  let i := q.session
  let e := s.session i
  let s := if boundElsewhere q e then s.sessionEvent i 1 q.transport (fieldU q.payload 0 1) else s
  let s := s.modSession i fun e =>
    let e := { e with binding := some q.binding, priv := fieldU q.payload 0 1, mask := BitVec.ofNat 32 (fieldU q.payload 4 4) }
    if bitOf (fieldU q.payload 1 1) 1 then { e with last := 0, executed := 0, history := 0, cache := [] } else e
  let e := s.session i
  (s, .ok (u8 e.priv ++ u8 e.history ++ leBytes 2 e.last.toNat ++ leBytes 8 e.executed.toNat))

def sessionOpenCmd : HostCmd :=
  { opcode := 0x0002, len := .fixed 8, priv := 0, unsequenced := true
    privExtra := fun q s =>
      let c := (s.transport q.transport).ceiling
      if c < fieldU q.payload 0 1 then some (.priv (fieldU q.payload 0 1) c) else none
    range := fun q _ => [(1, fieldU q.payload 1 1 < 4), (4, fieldU q.payload 4 4 < 2 ^ 17)]
    state := fun q s =>
      let e := s.session q.session
      [ !boundElsewhere q e || bitOf (fieldU q.payload 1 1) 0,
        !bitOf (fieldU q.payload 1 1) 1 || e.running.isEmpty ]
    effect := sessionOpen }

def execSessionOpen (q : Qcp) (s : State) : Host.Outcome State Fault Refusal := runHost sessionOpenCmd q s

def sessionCloseCmd : HostCmd :=
  { opcode := 0x0003, len := .fixed 0, priv := 0, unsequenced := true
    state := fun q s => [!boundElsewhere q (s.session q.session)]
    effect := fun q s => (s.closeSession q.session, .ok []) }

def execSessionClose (q : Qcp) (s : State) : Host.Outcome State Fault Refusal := runHost sessionCloseCmd q s

/-- The 24 bytes of SESSION_STATUS (R324). -/
def sessionStatusBytes (e : Session) : List Byte :=
  ub e.opened ++ u8 (if e.opened then e.priv else 0xFF) ++ u8 ((e.binding.map (·.transport)).getD 0xFF) ++ u8 e.running.length
  ++ leBytes 2 e.last.toNat ++ u8 e.history ++ rsv 1 ++ leBytes 8 e.executed.toNat ++ leBytes 2 e.noticeSeq.toNat ++ rsv 2
  ++ u32 e.lostTotal

def sessionStatusCmd : HostCmd :=
  { opcode := 0x0004, len := .fixed 4, priv := 0, unsequenced := true
    range := fun q _ => [(0, fieldU q.payload 0 1 < 16)]
    effect := fun q s => (s, .ok (sessionStatusBytes (s.session (fieldU q.payload 0 1)))) }

def execSessionStatus (q : Qcp) (s : State) : Host.Outcome State Fault Refusal := runHost sessionStatusCmd q s

def echoCmd : HostCmd :=
  { opcode := 0x0005, len := ⟨0, 4080, fun _ => none⟩, priv := 0, unsequenced := true, effect := fun q s => (s, .ok q.payload) }

def execEcho (q : Qcp) (s : State) : Host.Outcome State Fault Refusal := runHost echoCmd q s

def noticeMaskCmd : HostCmd :=
  { opcode := 0x0010, len := .fixed 4, priv := 0
    range := fun q _ => [(0, fieldU q.payload 0 4 < 2 ^ 17)]
    effect := fun q s =>
      (s.modSession q.session fun e => { e with mask := BitVec.ofNat 32 (fieldU q.payload 0 4) }, .ok []) }

def execNoticeMask (q : Qcp) (s : State) : Host.Outcome State Fault Refusal := runHost noticeMaskCmd q s

/-! ### TRANSPORT_CFG -/

/-- The transport is EP0 or EP1, whose QCP_PORT means something. -/
def isEth (t : Nat) : Bool := t == 8 || t == 9

/-- OWNER of the UART that a transport runs on; 0 for the other transports. -/
def State.uartOwner (s : State) (t : Nat) : Nat :=
  if 2 ≤ t ∧ t ≤ 7 then ((s.periph.uarts[t - 2]?).map (·.owner)).getD 0 else 0

/-- Reduce the sessions above a lowered ceiling, with SESSION_EVENT REDUCED (R323). -/
def State.reduceSessions (s : State) (t ceiling : Nat) : State :=
  (List.range 16).foldl (fun s i =>
    let e := s.session i
    match e.binding with
    | some b => if b.transport = t ∧ ceiling < e.priv then
        (s.modSession i fun e => { e with priv := ceiling }).sessionEvent i 2 t ceiling else s
    | none => s) s

/-- TRANSPORT_CFG: stores the transport's settings, closes or reduces its sessions (R312, R323). -/
def transportCfg (q : Qcp) (s : State) : State × Reply :=
  let t := fieldU q.payload 0 1
  let en := fieldU q.payload 1 1 == 1
  let c := fieldU q.payload 2 1
  let s := if en then s else s.dropTransport t
  let s := { s with transports := modAt s.transports t fun r =>
    { r with enable := en, ceiling := c, qcpPort := if isEth t then fieldU q.payload 4 2 else r.qcpPort } }
  (s.reduceSessions t c, .ok [])

/-- `udpPort` is the QDP port in force (Table 9.9), which QCP_PORT may not take. -/
def transportCfgCmd (udpPort : State → Nat) : HostCmd :=
  { opcode := 0x0020, len := .fixed 8, priv := 2
    range := fun q s =>
      let t := fieldU q.payload 0 1
      let p := fieldU q.payload 4 2
      [ (0, t ≤ 10), (1, fieldU q.payload 1 1 ≤ 1), (2, fieldU q.payload 2 1 ≤ if t = 10 then 1 else 2),
        (4, !isEth t || (1024 ≤ p && p != udpPort s)) ]
    state := fun q s =>
      let t := fieldU q.payload 0 1
      let en := fieldU q.payload 1 1 == 1
      let c := fieldU q.payload 2 1
      [ t != 0 || (en && c == 2),
        t != q.transport || (en && c == 2),
        !isEth t || !(s.transport t).enable || fieldU q.payload 4 2 == (s.transport t).qcpPort,
        !en || s.uartOwner t == 0 ]
    effect := transportCfg }

/-! ### Undefined opcodes (R327) -/

/-- The opcodes of Table 14.2. -/
def definedOpcodes : List Nat :=
  [0x0001, 0x0002, 0x0003, 0x0004, 0x0005, 0x0010, 0x0020, 0x0101, 0x0102, 0x0110, 0x0120, 0x0121, 0x0122, 0x0123, 0x0130,
   0x0201, 0x0202, 0x0203, 0x0204, 0x0210, 0x0211, 0x0212, 0x0220, 0x0221, 0x0230, 0x0231, 0x0240, 0x0241, 0x0250, 0x0260, 0x0261,
   0x0301, 0x0302, 0x0310, 0x0320, 0x0330, 0x0401, 0x0402, 0x0410, 0x0411, 0x0412, 0x0413, 0x0420]
  ++ [0x0501, 0x0502, 0x0510, 0x0511, 0x0512, 0x0513, 0x0530, 0x0601, 0x0602, 0x0603, 0x0610, 0x0640, 0x0641, 0x0650, 0x0651,
   0x0660, 0x0661, 0x0670, 0x0671, 0x0672, 0x0701, 0x0702, 0x0703, 0x0710, 0x0711, 0x0720, 0x0730, 0x0731, 0x0740, 0x0741,
   0x0801, 0x0802, 0x0810, 0x0830, 0x0831, 0x0832, 0x0840, 0x0841, 0x0901, 0x0902, 0x0910, 0x0911, 0x0920, 0x0921]
  ++ [0x0A01, 0x0A02, 0x0A10, 0x0A11, 0x0A12, 0x0A20, 0x0A21, 0x0B01, 0x0B02, 0x0B10, 0x0B11, 0x0B12, 0x0B20, 0x0C01, 0x0C10, 0x0C11,
   0x0C12, 0x0C20, 0x0C30, 0x0C31, 0x0C32, 0x0C33, 0x0D01, 0x0D02, 0x0D10, 0x0D11, 0x0D12, 0x0D20, 0x0D21, 0x0D30, 0x0D40, 0x0D41,
   0x0D42, 0x0D50, 0x0D60, 0x0D61, 0x0D62, 0x0E01, 0x0E02, 0x0E10, 0x0E11, 0x0E12, 0x0E13]
  ++ [0x0F01, 0x0F10, 0x0F11, 0x0F12, 0x0F20, 0x0F21, 0x0F30, 0x1001, 0x1002, 0x1010, 0x1011, 0x1020]

/-- The command of an opcode outside Table 14.2: it has no length or privilege check of its own (R327). -/
def undefinedCmd (opc : Nat) : HostCmd :=
  { opcode := opc, len := ⟨0, 4080, fun _ => none⟩, priv := 0, effect := fun _ s => (s, ⟨stBadOpcode, []⟩) }

def execUndefinedOpcode (opc : BitVec 16) (q : Qcp) (s : State) : Host.Outcome State Fault Refusal :=
  if definedOpcodes.contains opc.toNat then .next s
  else .next (processFrame opc.toNat 0xFF false (fun held s => (undefinedCmd opc.toNat).run q held s) q s)

/-! ### Events of the transports -/

/-- A frame with a bad length, a failed CRC or an overflowing buffer is discarded and NAKed (R309). -/
def execQcpFrameRejected (transport : Nat) (ep : Endpoint) (cause : FrameFault) (s : State) : Host.Outcome State Fault Refusal :=
  .next ((if s.transportUp transport then { s with transports := modAt s.transports transport fun r => { r with rx := [] } } else s).nak
    transport (if isEth transport then ep else .zero) (match cause with | .crc => 1 | .length => 2 | .overflow => 4))

/-- The gap timeout discards a partial frame and NAKs it with cause TIMEOUT (R307). -/
def execGapTimeout (transport : Nat) (s : State) : Host.Outcome State Fault Refusal :=
  if transport ≤ 7 ∧ (s.transport transport).rx ≠ [] then
    .next (({ s with transports := modAt s.transports transport fun r => { r with rx := [] } }).nak transport .zero 3)
  else .next s

/-- NOTICE_LOST is queued once there is space (R319). -/
def execNoticeLost (session : Nat) (s : State) : Host.Outcome State Fault Refusal := .next (s.reportLost session)

/-- The frame delimiter on a byte stream: SYNC, then LEN; a complete frame, or one whose LEN is no length, leaves the buffer (R307). DEDUCED (log 49). -/
def delimit (rx : List Byte) (b : Byte) : List Byte :=
  match rx with
  | [] => if b = 0xCA then [0xCA] else []
  | [_] => if b = 0xFE then [0xCA, 0xFE] else if b = 0xCA then [0xCA] else []
  | _ =>
    let r := rx ++ [b]
    let n := fieldU r 2 2
    if r.length < 4 then r else if n < 8 || 4088 < n || n + 8 ≤ r.length then [] else r

/-- Shift bytes of the output queue: 0x00 when it is empty (R308). -/
def shiftOut : Nat → List OutItem → Nat → List Byte × List OutItem × Nat
  | 0, out, sent => ([], out, sent)
  | n + 1, [], _ => let (bs, o, k) := shiftOut n [] 0; (0 :: bs, o, k)
  | n + 1, x :: xs, sent =>
    let b := (x.body.bytes[sent]?).getD 0
    let (bs, o, k) := if sent + 1 < x.body.size then shiftOut n (x :: xs) (sent + 1) else shiftOut n xs 0
    (b :: bs, o, k)

/-- The host clocks bytes on HS0 or HS1: the output queue shifts onto MISO and MOSI goes to the delimiter (R308). -/
def execSpiTransfer (port : Nat) (mosi : List Byte) (s : State) : Host.Outcome State Fault Refusal :=
  if port ≤ 1 ∧ s.transportUp port then
    .next { s with transports := modAt s.transports port fun r =>
      let (bs, o, k) := shiftOut mosi.length r.out r.sent
      { r with miso := bs, out := o, sent := k, rx := mosi.foldl delimit r.rx } }
  else .next s

/-! ### The overrun log and the wrap of DT -/

/-- The 128 bits of an overrun record (Table 2.2). -/
def OverrunRec.bytes (r : OverrunRec) : List Byte :=
  u64 (r.kind * 2 ^ 56 + r.group * 2 ^ 51 + r.count * 2 ^ 44 + r.first * 2 ^ 33 + r.unit * 2 ^ 29 + r.deficit) ++ u64 r.beat

/-- Records of a log from an index on; a slot that holds none reads as zeros. DEDUCED (log 83). -/
def logSlice {α : Type} (enc : α → List Byte) (size : Nat) (l : List α) (first count : Nat) : List Byte :=
  ((List.range count).map fun i => match l[first + i]? with
    | some r => enc r
    | none => rsv size).flatten

def overrunLogCmd : HostCmd :=
  { opcode := 0x1001, len := .fixed 4, priv := 0
    range := fun q _ => [(0, fieldU q.payload 0 2 ≤ 255), (2, 1 ≤ fieldU q.payload 2 2 && fieldU q.payload 2 2 ≤ 128)]
    effect := fun q s =>
      (s, .ok (u32 s.overruns.overwritten
        ++ logSlice OverrunRec.bytes 16 s.overruns.recs (fieldU q.payload 0 2) (fieldU q.payload 2 2))) }

def execOverrunLog (q : Qcp) (s : State) : Host.Outcome State Fault Refusal := runHost overrunLogCmd q s

/-- Put one record into the overrun log (R37). -/
def OverrunLog.add (l : OverrunLog) (r : OverrunRec) : OverrunLog :=
  { l with recs := pushCap 256 l.recs r, overwritten := if l.recs.length < 256 then l.overwritten else sat32 (l.overwritten + 1) }

/-- The tick whose increment carries out of bit 63 advances DT through the wrap and the DT epoch ID with it (R28). -/
def execDtWrap (s : State) : Host.Outcome State Fault Refusal :=
  if s.time.running ∧ s.time.tick < 25999 ∧ 2 ^ 64 ≤ s.time.dt.toNat + (tickStep s.time.acc).2 then .next s.advance else .next s

end Sys2Proof.Machine
end

