-- ==== Sys2Proof/Machine/Memory.lean ====
section
/-! DEFINITION. Managed memory: the address map, the bytes, ownership, access rules, ECC and freezing (R336–R358). -/

namespace Sys2Proof.Machine
open Sys2Proof

/-! ### The address map (R336) -/

def memBase : Nat := 0x10000000
def memLimit : Nat := 0x14000000
def bankBytes : Nat := 524288

/-- The address lies in managed memory. -/
def inMem (a : Nat) : Bool := decide (memBase ≤ a ∧ a < memLimit)

/-- The address lies in the I/O space (R368). -/
def inIo (a : Nat) : Bool := decide (0x02000000 ≤ a ∧ a < 0x03000000)

def MemSys.bank (m : MemSys) (b : Nat) : Bank := (m.banks[b]?).getD Bank.reset

/-- Octet of an address of managed memory. -/
def octetOf (a : Nat) : Nat := (a - memBase) / 0x400000

/-- Bank and offset of an address of managed memory (R336). -/
def MemSys.locate (m : MemSys) (a : Nat) : Nat × Nat :=
  let o := octetOf a
  let x := (a - memBase) % 0x400000
  if (m.bank (8 * o)).interleaved then (8 * o + x / 8 % 8, x / 64 * 8 + x % 8) else (8 * o + x / bankBytes, x % bankBytes)

/-- The cell of an address: bank × 512 KiB + offset. -/
def MemSys.loc (m : MemSys) (a : Nat) : Nat := let (b, o) := m.locate a; b * bankBytes + o

/-! ### Bytes -/

/-- What a byte that is not listed reads as: 0 after zero-fill (R345), a free value where the contents are undefined (R338, R364). DEDUCED (log 4). -/
def MemSys.default (m : MemSys) (l : Nat) : Byte :=
  match (m.bank (l / bankBytes)).stamp with
  | 0 => 0
  | k + 1 => Config.freeByte k l

/-- Read one cell. DEDUCED (log 4). -/
def readCell (d : Byte) : List Host.Cell → Nat → Byte
  | [], _ => d
  | (k, v) :: t, l => if k = l then v else readCell d t l

/-- Write one cell; a cell equal to what it reads as when unlisted is not listed. DEDUCED (log 4). -/
def writeCell (d : Byte) : List Host.Cell → Nat → Byte → List Host.Cell
  | [], l, v => if v = d then [] else [(l, v)]
  | (k, w) :: t, l, v =>
    if l < k then (if v = d then (k, w) :: t else (l, v) :: (k, w) :: t)
    else if l = k then (if v = d then t else (l, v) :: t)
    else (k, w) :: writeCell d t l v

/-- The canonical form: addresses strictly rising, no entry equal to what its address reads as when unlisted. DEDUCED (log 4). -/
def Memory.wf (m : MemSys) : Bool :=
  m.cells.all (fun c => c.2 != m.default c.1) && (m.cells.map (·.1)).Pairwise (· < ·)

/-- The byte at an address of managed memory. -/
def MemSys.byte (m : MemSys) (a : Nat) : Byte := let l := m.loc a; readCell (m.default l) m.cells l

/-- Store a byte at an address of managed memory. -/
def MemSys.setByte (m : MemSys) (a : Nat) (v : Byte) : MemSys :=
  let l := m.loc a; { m with cells := writeCell (m.default l) m.cells l v }

def MemSys.read (m : MemSys) (a n : Nat) : List Byte := (List.range n).map fun i => m.byte (a + i)

def MemSys.write (m : MemSys) (a : Nat) : List Byte → MemSys
  | [] => m
  | b :: bs => (m.setByte a b).write (a + 1) bs

def State.memRead (s : State) (a n : Nat) : List Byte := s.mem.read a n

/-- Words, by location, that a write covers whole: their check bits are written anew (R337). -/
def MemSys.wholeWords (m : MemSys) (a n : Nat) : List Nat :=
  ((List.range ((a + n) / 8 - (a + 7) / 8)).map fun i => m.loc (((a + 7) / 8 + i) * 8) / 8)

def State.memWrite (s : State) (a : Nat) (bs : List Byte) : State :=
  { s with mem := { s.mem.write a bs with
      upsets := if s.mem.upsets.isEmpty then [] else s.mem.upsets.filter fun u => !(s.mem.wholeWords a bs.length).contains u.1 } }

/-- Change one bank. -/
def MemSys.modBank (m : MemSys) (b : Nat) (f : Bank → Bank) : MemSys := { m with banks := modAt m.banks b f }
def State.modBank (s : State) (b : Nat) (f : Bank → Bank) : State := { s with mem := s.mem.modBank b f }
def State.bank (s : State) (b : Nat) : Bank := s.mem.bank b

/-- Drop every listed byte of a bank: it reads zero, or is undefined under a stamp. -/
def MemSys.clearBank (m : MemSys) (b stamp : Nat) : MemSys :=
  { m.modBank b (fun k => { k with stamp := stamp }) with
    cells := m.cells.filter (fun c => c.1 / bankBytes != b), upsets := m.upsets.filter fun u => u.1 * 8 / bankBytes != b }

/-- The banks that share ownership with a bank: its octet when it is interleaved (R339). -/
def MemSys.ownGroup (m : MemSys) (b : Nat) : List Nat :=
  if (m.bank b).interleaved then (List.range 8).map (b / 8 * 8 + ·) else [b]

/-! ### Ownership and handover (R339–R341) -/

/-- MB_EVENT (R365). -/
def State.mbEvent (s : State) (bank kind value : Nat) : State :=
  s.notify 0x8240 (s.dtBytes ++ u8 bank ++ u8 kind ++ u16 value ++ rsv 4)

/-- A write to MB_OWN of port A: PEND sets until the old owner's accesses drain (R341). -/
def Bank.give (b : Bank) (owner : Nat) (use : BankUse) : Bank :=
  if b.ownerA = owner then { b with use := use }
  else { b with ownerA := owner, drainA := some b.ownerA, use := use }

/-- The same of port B of a dual-port bank (R339). -/
def Bank.giveB (b : Bank) (owner : Nat) : Bank :=
  if b.ownerB = owner then b else { b with ownerB := owner, drainB := some b.ownerB }

/-- MB_OWN.PEND. -/
def Bank.pend (b : Bank) : Bool := b.drainA.isSome || b.drainB.isSome

/-- The device gives consecutive banks to a master (Table 15.1). -/
def State.giveBanks (s : State) (first n owner : Nat) (use : BankUse) : State :=
  (List.range n).foldl (fun s i => s.modBank (first + i) fun b => b.give owner use) s

/-- The device takes its banks back: they have no owner. -/
def State.freeBanks (s : State) (first n : Nat) : State := s.giveBanks first n 0xFF .none

/-- Banks a device function may take: on the device, unowned and linear (R60, R79, R110). -/
def State.banksFree (s : State) (first n : Nat) : Bool :=
  decide (first + n ≤ 128) && (List.range n).all fun i =>
    let b := s.bank (first + i)
    b.ownerA == 0xFF && b.ownerB == 0xFF && !b.interleaved

/-- Banks owned by the customer core (R393). -/
def State.ucBanks (s : State) : Nat := s.mem.banks.countP fun b => b.ownerA == 7 || b.ownerB == 7

/-! ### Ranges the cipher units hold (R413, R414) -/

/-- Accepted requests of every unit, running and waiting. -/
def State.cipherReqs (s : State) : List CipherReq :=
  (s.cipher.units.map fun u => u.running.toList ++ u.queue).flatten

/-- The open UNVERIFIED ranges: the 64-byte blocks that cover DST of a single-pass CPC_DEC (R414). -/
def State.unverified (s : State) : List (Nat × Nat) :=
  (s.cipherReqs.filter fun r => r.mode == 11 && r.flags % 2 == 1 && r.length != 0).map fun r =>
    (r.dst / 64 * 64, (r.dst + r.length + 63) / 64 * 64)

/-- SRC, AAD and TAG ranges of every CPC_DEC, which no other master writes until it completes (R413). -/
def State.cpcInputs (s : State) : List (Nat × Nat) :=
  ((s.cipherReqs.filter fun r => r.mode == 11).map fun r =>
    [(r.src, r.src + r.length), (r.aad, r.aad + r.aadLen), (r.tag, r.tag + r.tagLen)]).flatten

def rangesHit (rs : List (Nat × Nat)) (a n : Nat) : Bool := rs.any fun r => decide (r.1 < a + n ∧ a < r.2)

/-- The access stalls on a range a cipher unit holds. -/
def State.cipherStall (s : State) (a n : Nat) (write : Bool) : Bool :=
  rangesHit s.unverified a n || (write && rangesHit s.cpcInputs a n)

/-! ### Access rules (R340, R341, R345) -/

/-- How an access is judged. -/
inductive Verdict where
  | ok | stall | bad (v : Violation)
  deriving DecidableEq, Repr

/-- Masters other than the owner that may read a bank (Table 15.1). -/
def Bank.readers (b : Bank) : List Nat :=
  match b.use with
  | .sampleRing => [0x09, 0x00, 0x14]
  | .dumpRing => [0x01, 0x02, 0x03, 0x04, 0x05, 0x06, 0x00, 0x14]
  | .spectrum => [0x00, 0x14]
  | .carafe => [0x08, 0x09, 0x00, 0x14]
  | .none | .march => if b.ownerA = 7 ∨ b.ownerB = 7 then [0x00] else [0x00, 0x14]

/-- The rules of R340, R341 and R345 for one bank, in that order. -/
def Bank.judge (b : Bank) (master : Nat) (write : Bool) : Verdict :=
  if (b.drainA = some master ∨ b.drainB = some master) ∧ master ≠ b.ownerA ∧ master ≠ b.ownerB then .bad .handover
  else if master ≠ b.ownerA ∧ master ≠ b.ownerB ∧ (write ∨ ¬ b.readers.contains master) then .bad .owner
  else if b.state ≠ .on then (if b.moving = some .on then .stall else .bad .bankOff)
  else if (b.drainA.isSome ∧ master = b.ownerA) ∨ (b.drainB.isSome ∧ master = b.ownerB) then .stall
  else .ok

/-- Judge `n` bytes from an address: the first byte that is not permitted decides, with its address. -/
def State.judgeBanks (s : State) (master a n : Nat) (write : Bool) : Verdict × Nat :=
  (((List.range n).map fun i =>
    if inMem (a + i) then ((s.bank (s.mem.locate (a + i)).1).judge master write, a + i) else (Verdict.bad .window, a + i)).find?
      fun v => decide (v.1 ≠ .ok)).getD (.ok, a)

/-! ### Protection windows (R354) -/

def Window.enabled (w : Window) : Bool := bitOf w.flags 0
def Window.isRs (w : Window) : Bool := bitOf w.flags 1

def State.windows (s : State) (core : Nat) : List Window := (s.mem.windows[core]?).getD []

/-- The core's enabled RS window, with its number. -/
def State.rsWindow (s : State) (core : Nat) : Option (Nat × Window) :=
  ((s.windows core).zipIdx.find? fun w => w.1.enabled && w.1.isRs).map fun w => (w.2, w.1)

/-- Kinds of access for the windows: R, W, X. -/
inductive Access where
  | load | store | fetch
  deriving DecidableEq, Repr

def Access.bit : Access → Nat
  | .load => 0
  | .store => 1
  | .fetch => 2

/-- One window covers the byte and grants the access. -/
def Window.grants (w : Window) (k : Access) (io : Bool) (a : Nat) : Bool :=
  w.enabled && !w.isRs && bitOf w.perm k.bit && bitOf w.perm 3 == io && decide (w.base ≤ a ∧ a < w.limit)

/-- One enabled window covers every byte of the access and grants its kind (R354). -/
def State.windowOk (s : State) (core : Nat) (k : Access) (a n : Nat) : Bool :=
  (s.windows core).any fun w => (List.range n).all fun i => w.grants k (inIo a) (a + i)

/-- The access overlaps an RS window: its number (R354). -/
def State.rsHit (s : State) (core a n : Nat) : Option Nat :=
  ((s.windows core).zipIdx.find? fun w => w.1.enabled && w.1.isRs && decide (w.1.base < a + n ∧ a < w.1.limit)).map (·.2)

/-- First byte of the range that no window covers, or the range's first byte. -/
def State.firstUncovered (s : State) (core : Nat) (k : Access) (a n : Nat) : Nat :=
  (((List.range n).map (a + ·)).find? fun x => !s.windowOk core k x 1).getD a

/-- A data access of a core: the bank rules, the RS windows and the windows; the address is the first that fails (R354, R383). -/
def State.judgeCore (s : State) (core : Nat) (k : Access) (a n : Nat) : Verdict × Nat :=
  let win : Verdict × Nat :=
    if (s.rsHit core a n).isSome then (.bad .rs, a)
    else if s.windowOk core k a n then (.ok, a) else (.bad .window, s.firstUncovered core k a n)
  if inIo a then win
  else match s.judgeBanks core a n (k == .store) with
    | (.bad v, x) => (.bad v, x)
    | (v, x) => match win with
      | (.ok, _) => if v = .ok ∧ s.cipherStall a n (k == .store) then (.stall, a) else (v, x)
      | w => w

/-! ### ECC (R347, R348) -/

/-- ECC_EVENT and the ECC log (Table 15.8). -/
def EccRec.bytes (r : EccRec) : List Byte :=
  leBytes 8 r.dt.toNat ++ u32 r.addr ++ u8 r.bank ++ u8 r.kind ++ u8 r.master ++ u8 r.syndrome

/-- Log one error; notify every uncorrectable error and the first corrected error of each bank in each second. DEDUCED (log 50). -/
def State.logEcc (s : State) (addr bank kind master : Nat) : State :=
  let (s, syn) := s.openVal 1
  let r : EccRec := { dt := s.time.dt, addr := addr, bank := bank, kind := kind, master := master, syndrome := syn % 256 }
  let corrected := kind == 1 || kind == 3
  let b := s.bank bank
  let first := decide (b.ceSecond ≠ some s.second)
  let s := { s with mem := { s.mem.modBank bank (fun b => if corrected then { b with ce := sat32 (b.ce + 1), ceSecond := some s.second }
      else { b with ue := sat32 (b.ue + 1) }) with eccLog := pushCap 64 s.mem.eccLog r } }
  let s := if !corrected || first then s.notify 0x8220 r.bytes else s
  if corrected then s else s.logFault 5

/-- Read `n` bytes through ECC: single-bit errors are corrected and written back, a double-bit error is reported with its address. DEDUCED (log 50). -/
def State.eccRead (s : State) (master a n : Nat) : State × Option Nat :=
  let words := (List.range ((a + n + 7) / 8 - a / 8)).map fun i => (a / 8 + i) * 8
  words.foldl (fun (sx : State × Option Nat) w =>
    let (s, bad) := sx
    let l := s.mem.loc w / 8
    match s.mem.upsets.find? (fun u => u.1 == l) with
    | none => (s, bad)
    | some (_, false) =>
      (({ s with mem := { s.mem with upsets := s.mem.upsets.filter fun u => u.1 != l } }).logEcc w (s.mem.locate w).1 1 master, bad)
    | some (_, true) => (s.logEcc w (s.mem.locate w).1 2 master, bad <|> some w)) (s, none)

/-! ### Freezing (R356, R357) -/

def Violation.code : Violation → Nat
  | .window => 1
  | .rs => 2
  | .owner => 3
  | .bankOff => 4
  | .ecc => 5
  | .handover => 6
  | .tag => 7

/-- The 64 bytes of a freeze record (Table 15.12). -/
def FreezeRec.bytes (r : FreezeRec) : List Byte :=
  u32 r.seq ++ u8 r.master ++ u8 r.sub ++ u8 r.kind ++ u8 r.flags ++ leBytes 8 r.dt.toNat ++ leBytes 4 r.epoch.toNat ++ u32 r.addr
  ++ u32 r.pc ++ u32 r.resid ++ u8 r.window ++ u8 r.access ++ u8 r.bank ++ u8 r.owner ++ (r.instr ++ rsv 8).take 8 ++ u8 r.state
  ++ rsv 3 ++ leBytes 8 r.thawDt.toNat ++ rsv 8

/-- Put a record into the 32-record freeze log: it replaces the oldest that is no longer FROZEN (R357). DEDUCED (log 54). -/
def putFreeze (l : List FreezeRec) (r : FreezeRec) : List FreezeRec :=
  if l.length < 32 then l ++ [r]
  else
    let oldest := (l.filter fun x => x.state != 0).foldl (fun m x => min m x.seq) (2 ^ 32)
    l.map fun x => if x.state ≠ 0 ∧ x.seq = oldest then r else x

/-- The facts of a violation that a freeze record carries. -/
structure FreezeInfo where
  master : Nat
  sub : Nat
  kind : Violation
  sameTick : Bool
  rep : Bool
  lockFreed : Bool
  write : Bool
  addr : Nat
  pc : Nat
  resid : Nat
  window : Nat
  access : Nat
  instr : List Byte
  deriving DecidableEq, Repr

/-- Write a freeze record and send it (R357). DEDUCED (log 54). -/
def State.recordFreeze (s : State) (i : FreezeInfo) : State :=
  let b := if inMem i.addr then (s.mem.locate i.addr).1 else 0xFF
  let r : FreezeRec :=
    { seq := s.mem.freezeSeq + 1, master := i.master, sub := i.sub, kind := i.kind.code
      flags := boolBits [i.sameTick, i.rep, i.lockFreed, i.write], dt := s.time.dt, epoch := s.nv.epoch, addr := i.addr, pc := i.pc
      resid := i.resid, window := i.window, access := i.access, bank := b
      owner := if b = 0xFF then 0xFF else (s.bank b).ownerA, instr := i.instr, state := 0, thawDt := 0 }
  ({ s with mem := { s.mem with freezeSeq := s.mem.freezeSeq + 1, freezeLog := putFreeze s.mem.freezeLog r } }).notifyF 0x8210 i.sameTick
    r.bytes

/-! ### Bank power (R345, R346) -/

/-- The state a bank is in, or toward which its transition moves. -/
def Bank.goal (b : Bank) : BankPower := b.moving.getD b.state

/-- A request for a power state (R346): no change does nothing, a request during a transition is held. -/
def Bank.request (b : Bank) (p : BankPower) : Bank :=
  if p = b.goal then b
  else if b.moving.isSome then { b with power := p, held := some p }
  else { b with power := p, moving := some p }

def BankPower.code : BankPower → Nat
  | .on => 0
  | .retention => 1
  | .off => 2

def bankPowerOf (n : Nat) : Option BankPower :=
  match n with
  | 0 => some .on
  | 1 => some .retention
  | 2 => some .off
  | _ => none

/-- A transition ends: contents are lost through off and zero after it; a held request starts (R345, R346). -/
def State.bankDone (s : State) (b : Nat) : State :=
  match (s.bank b).moving with
  | none => s
  | some p =>
    let k := s.bank b
    let m := if p = .off ∨ k.state = .off then s.mem.clearBank b 0 else s.mem
    let next := k.held.filter fun h => decide (h ≠ p)
    ({ s with mem := m.modBank b fun k => { k with state := p, moving := next, held := none } }).mbEvent b 1 p.code

/-- The handovers of one bank drain: PEND clears and each change is reported (R341, R365). -/
def State.drained (s : State) (b : Nat) : State :=
  let k := s.bank b
  let s := s.modBank b fun k => { k with drainA := none, drainB := none }
  let s := if k.drainA.isSome then s.mbEvent b 2 k.ownerA else s
  if k.drainB.isSome then s.mbEvent b 2 k.ownerB else s

end Sys2Proof.Machine
end

