-- ==== Sys2Proof/Machine/Banks.lean ====
section
/-! DEFINITION. Group 0x02: banks, dual port, march tests, repair, windows, logs, host memory access and their events (R336–R365). -/

namespace Sys2Proof.Machine
open Sys2Proof

/-- A value within 0 to `hi`, or 0xFF. -/
def upToOrFF (hi v : Nat) : Bool := decide (v ≤ hi) || v == 0xFF

/-! ### MB_CFG -/

/-- Banks of the command's range. -/
def bankRange (q : Qcp) : List Nat := (List.range (q.u 1 1)).map (q.u 0 1 + ·)

/-- CRIT of a bank after the command. -/
def critAfter (q : Qcp) (b : Bank) : Bool := if q.u 3 1 = 0xFF then b.crit else q.u 3 1 == 1

/-- MB_CFG may change the power of this bank (R346). -/
def powerAllowed (q : Qcp) (b : Bank) : Bool :=
  match bankPowerOf (q.u 2 1) with
  | none => true
  | some p =>
    decide (p = b.goal) ||
      (!([0x08, 0x09, 0x16].contains b.ownerA) && !b.shadowed && !(critAfter q b && decide (p = .off)))

/-- MB_CFG may change the interleaving of this bank's octet (R338). -/
def interleaveAllowed (q : Qcp) (b : Bank) : Bool :=
  decide (1 < q.u 4 1) || (q.u 4 1 == 1) == b.interleaved ||
    (b.ownerA == 0xFF && b.ownerB == 0xFF && !b.shadowed && !b.dp)

/-- One bank of an MB_CFG. -/
def cfgBank (q : Qcp) (stamp : Nat) (s : State) (n : Nat) : State :=
  let b := s.bank n
  let change := decide (q.u 4 1 ≤ 1) && (q.u 4 1 == 1) != b.interleaved
  let m := if change then (s.mem.clearBank n (stamp + 1)).modBank n fun b => { b with interleaved := q.u 4 1 == 1 } else s.mem
  { s with mem := m.modBank n fun b =>
      let b := { b with crit := critAfter q b }
      match bankPowerOf (q.u 2 1) with
      | some p => b.request p
      | none => b }

def mbCfgCmd : HostCmd :=
  { opcode := 0x0201, len := .fixed 8, priv := 2
    range := fun q _ =>
      [ (0, q.u 0 1 ≤ 127), (1, 1 ≤ q.u 1 1 && q.u 0 1 + q.u 1 1 ≤ 128), (2, upToOrFF 2 (q.u 2 1)), (3, upToOrFF 1 (q.u 3 1)),
        (4, upToOrFF 1 (q.u 4 1) && (q.u 4 1 == 0xFF || (q.u 0 1 % 8 == 0 && q.u 1 1 % 8 == 0))) ]
    state := fun q s => [(bankRange q).all fun n => powerAllowed q (s.bank n) && interleaveAllowed q (s.bank n)]
    effect := fun q s =>
      let (s, k) := s.fresh
      ((bankRange q).foldl (cfgBank q k) s, .ok []) }

def execMbCfg (q : Qcp) (s : State) : Host.Outcome State Fault Refusal := runHost mbCfgCmd q s

/-- The 16 bytes of one bank of MB_STATUS (R363). -/
def bankStatusBytes (n : Nat) (b : Bank) : List Byte :=
  u8 n ++ u8 b.state.code ++ u8 (boolBits [b.interleaved, b.dp, b.crit, b.shadowed, b.pend]) ++ u8 b.ownerA ++ u8 b.ownerB
  ++ u8 b.rows.length ++ u8 b.cols.length ++ rsv 1 ++ u32 b.ce ++ u32 b.ue

def mbStatusCmd : HostCmd :=
  { opcode := 0x0202, len := .fixed 4, priv := 0
    range := fun q _ => [(0, q.u 0 1 ≤ 127), (1, 1 ≤ q.u 1 1 && q.u 0 1 + q.u 1 1 ≤ 128)]
    effect := fun q s => (s, .ok ((bankRange q).map fun n => bankStatusBytes n (s.bank n)).flatten) }

def execMbStatus (q : Qcp) (s : State) : Host.Outcome State Fault Refusal := runHost mbStatusCmd q s

/-! ### Ownership and dual port -/

/-- Owners that MB_OWN_SET takes (Table 15.18). -/
def ownerValue (v : Nat) : Bool := decide (v ≤ 9) || (decide (0x13 ≤ v) && decide (v ≤ 0x16)) || v == 0xFF

/-- The bank is held under R60, R79, R110 or R290. -/
def Bank.deviceHeld (b : Bank) : Bool :=
  match b.use with
  | .sampleRing | .dumpRing | .spectrum | .carafe => true
  | .none | .march => false

def mbOwnSetCmd : HostCmd :=
  { opcode := 0x0203, len := .fixed 8, priv := 2
    range := fun q _ => [(0, q.u 0 1 ≤ 127), (1, q.u 1 1 ≤ 1), (2, ownerValue (q.u 2 1))]
    state := fun q s => [q.u 1 1 == 0 || (s.bank (q.u 0 1)).dp, !(s.bank (q.u 0 1)).deviceHeld]
    late := fun q s =>
      let new := (s.mem.ownGroup (q.u 0 1)).countP fun n => (s.bank n).ownerA != 7 && (s.bank n).ownerB != 7
      if q.u 2 1 = 7 ∧ s.uc.bankLimit < s.ucBanks + new then some .noResource else none
    effect := fun q s =>
      ((s.mem.ownGroup (q.u 0 1)).foldl (fun s n =>
        s.modBank n fun b => if q.u 1 1 = 1 then b.giveB (q.u 2 1) else b.give (q.u 2 1) b.use) s, .ok []) }

def execMbOwnSet (q : Qcp) (s : State) : Host.Outcome State Fault Refusal := runHost mbOwnSetCmd q s

def mbDpCfgCmd : HostCmd :=
  { opcode := 0x0204, len := .fixed 4, priv := 2
    range := fun q _ => [(0, 124 ≤ q.u 0 1 && q.u 0 1 ≤ 127), (1, q.u 1 1 ≤ 1), (2, q.u 2 1 ≤ 1), (3, q.u 3 1 ≤ 1)]
    state := fun q s =>
      let b := s.bank (q.u 0 1)
      [ (q.u 1 1 == 1) == b.dp || (b.ownerA == 0xFF && b.ownerB == 0xFF && !b.interleaved) ]
    effect := fun q s =>
      (s.modBank (q.u 0 1) fun b => { b with dp := q.u 1 1 == 1, winB := q.u 2 1 == 1, notify := q.u 3 1 == 1 }, .ok []) }

def execMbDpCfg (q : Qcp) (s : State) : Host.Outcome State Fault Refusal := runHost mbDpCfgCmd q s

/-! ### March tests and repair (R349–R353, R364) -/

/-- A bank that can serve as a shadow (R350). -/
def shadowEligible (s : State) (bank n : Nat) : Bool :=
  let b := s.bank n
  n != bank && b.ownerA == 0xFF && b.ownerB == 0xFF && decide (b.state = .on) && b.moving.isNone && !b.interleaved && !b.crit && !b.dp

/-- The shadow bank that a command names or the highest-numbered eligible one (R350). -/
def pickShadow (s : State) (bank named : Nat) : Option Nat :=
  if named = 0xFF then ((List.range 128).reverse).find? (shadowEligible s bank)
  else if shadowEligible s bank named then some named else none

/-- Start a test or a repair: the shadow goes to the march engine and the bank is shadowed. -/
def startMarch (s : State) (m : March) : State :=
  let s := { s with mem := { s.mem with march := some m } }
  if m.shadow = 0xFF then s
  else (s.modBank m.shadow fun b => b.give 0x15 .march).modBank m.bank fun b => { b with shadowed := true }

def marchRun (q : Qcp) (s : State) : State × Reply :=
  let bank := q.u 0 1
  let destructive := q.u 2 1 == 1
  let sh := if destructive then 0xFF else (pickShadow s bank (q.u 3 1)).getD 0xFF
  let s := startMarch s
    { phase := if destructive then 2 else 1, bank := bank, shadow := sh, algo := q.u 1 1, destructive := destructive
      repair := bitOf (q.u 6 1) 0, target := none, origin := q.origin 0x0210 }
  let s := { s with nv := { s.nv with marchOpen := some (bank, destructive) } }
  let (s, v) := s.openVal 2
  (s.mbEvent bank 3 v, ⟨stAccepted, []⟩)

def marchRunCmd : HostCmd :=
  { opcode := 0x0210, len := .fixed 8, priv := 2
    range := fun q _ =>
      [ (0, q.u 0 1 ≤ 127), (1, q.u 1 1 ≤ 1), (2, q.u 2 1 ≤ 1), (3, upToOrFF 127 (q.u 3 1)),
        (4, 1 ≤ q.u 4 2 && q.u 4 2 ≤ 10000), (6, q.u 6 1 ≤ 1) ]
    state := fun q s =>
      let b := s.bank (q.u 0 1)
      [ s.mem.march.isNone,
        if q.u 2 1 = 1 then b.ownerA == 0xFF && b.ownerB == 0xFF && !b.crit else decide (b.state = .on) && b.moving.isNone ]
    late := fun q s =>
      if q.u 2 1 = 0 ∧ (pickShadow s (q.u 0 1) (q.u 3 1)).isNone then some .noResource else none
    effect := marchRun }

def execMarchRun (q : Qcp) (s : State) : Host.Outcome State Fault Refusal := runHost marchRunCmd q s

def mbRepairCmd : HostCmd :=
  { opcode := 0x0212, len := .fixed 8, priv := 2
    range := fun q _ =>
      [ (0, q.u 0 1 ≤ 127), (1, q.u 1 1 ≤ 1), (2, q.u 2 2 ≤ if q.u 1 1 = 0 then 1023 else 71), (4, upToOrFF 127 (q.u 4 1)) ]
    state := fun _ s => [s.mem.march.isNone]
    late := fun q s =>
      if (s.bank (q.u 0 1)).state = .on ∧ (pickShadow s (q.u 0 1) (q.u 4 1)).isNone then some .noResource else none
    effect := fun q s =>
      let bank := q.u 0 1
      let sh := if (s.bank bank).state = .on then (pickShadow s bank (q.u 4 1)).getD 0xFF else 0xFF
      (startMarch s { phase := 4, bank := bank, shadow := sh, algo := 0, destructive := false, repair := true
                      target := some (q.u 1 1, q.u 2 2), origin := q.origin 0x0212 }, ⟨stAccepted, []⟩) }

def execMbRepair (q : Qcp) (s : State) : Host.Outcome State Fault Refusal := runHost mbRepairCmd q s

/-- The 16 bytes of a result (Table 15.19). -/
def MarchResult.bytes (r : MarchResult) : List Byte :=
  u8 r.bank ++ u8 r.status ++ u16 r.rowsFailed ++ u8 r.colsFailed ++ u8 r.rowsLeft ++ u8 r.colsLeft ++ rsv 1 ++ u16 r.firstRow
  ++ u8 r.firstBit ++ rsv 1 ++ u32 r.duration

/-- Keep one of each. -/
def distinct : List Nat → List Nat
  | [] => []
  | x :: xs => if xs.contains x then distinct xs else x :: distinct xs

/-- Map one failing row (kind 0) or bit position (kind 1) to a spare, while spares last (R353). -/
def Bank.repair (b : Bank) (kind index : Nat) : Option Bank :=
  if kind = 0 then (if b.rows.length < 8 then some { b with rows := b.rows ++ [index] } else none)
  else if b.cols.length < 2 then some { b with cols := b.cols ++ [index] } else none

/-- Bit positions failing in more than one row. -/
def failedCols (fails : List (Nat × Nat)) : List Nat :=
  (distinct (fails.map (·.2))).filter fun c => decide (1 < (distinct ((fails.filter fun f => f.2 == c).map (·.1))).length)

/-- Repair every failure while spares last: column groups first, then the rows that still fail; the repairs made and whether all failures are covered. -/
def repairAll (b : Bank) (fails : List (Nat × Nat)) : Bank × Nat × Bool :=
  let cols := (failedCols fails).take (2 - b.cols.length)
  let rest := distinct ((fails.filter fun f => !cols.contains f.2).map (·.1))
  let rows := rest.take (8 - b.rows.length)
  ({ b with cols := b.cols ++ cols, rows := b.rows ++ rows }, cols.length + rows.length, rows.length == rest.length)

/-- Repairs are written to MRAM and reapplied at every start-up (R353). -/
def State.saveRepairs (s : State) (bank : Nat) : State :=
  let b := s.bank bank
  { s with nv := { s.nv with repairs := (s.nv.repairs.filter fun r => r.1 != bank) ++ [(bank, b.rows, b.cols)] } }

/-- The test or repair is over: the shadow has no owner, the bank is no longer shadowed. -/
def endMarch (s : State) (m : March) : State :=
  let s := { s with mem := { s.mem with march := none } }
  if m.shadow = 0xFF then s
  else (s.modBank m.shadow fun b => b.give 0xFF .none).modBank m.bank fun b => { b with shadowed := false }

/-- Store a result, report it and complete the command. -/
def finishMarch (s : State) (m : March) (r : MarchResult) : State :=
  ({ s with mem := { s.mem with lastMarch := some r } }).complete m.origin stOk r.bytes

/-- A march test ends: `fails` are the failing rows and bit positions that the test found, in order (R353, R364). DEDUCED (log 51). -/
def marchEnd (fails : List (Nat × Nat)) (micros : Nat) (m : March) (s : State) : State :=
  let s := endMarch s m
  let s := { s with nv := { s.nv with marchOpen := none } }
  let s := if m.destructive then { s with mem := s.mem.clearBank m.bank 0 } else s
  let b := s.bank m.bank
  let (b', n, all) := if m.repair then repairAll b fails else (b, 0, fails.isEmpty)
  let s := if n = 0 then s else ((s.modBank m.bank fun _ => b').saveRepairs m.bank)
  let s := (List.range n).foldl (fun s _ => s.mbEvent m.bank 5 1) s
  let status := if fails.isEmpty then 0 else if m.repair && all then 1 else 2
  let (s, fr) := s.openVal 3
  let (s, fb) := s.openVal 4
  let (s, pr) := s.openVal 5
  let (s, ff) := s.openVal 6
  let r : MarchResult :=
    { bank := m.bank, status := status, rowsFailed := (distinct (fails.map (·.1))).length, colsFailed := (failedCols fails).length
      rowsLeft := 8 - b'.rows.length, colsLeft := 2 - b'.cols.length
      firstRow := ((fails.head?).map (·.1)).getD (fr % 1024), firstBit := ((fails.head?).map (·.2)).getD (fb % 72), duration := micros }
  let s := { s with mem := { s.mem with progress := pr % 2 ^ 32, fails := fails.length, firstFail := ff % 2 ^ 32 } }
  finishMarch (s.mbEvent m.bank 4 status) m r

/-- DEDUCED (log 51). -/
def execMarchEnd (fails : List (Nat × Nat)) (micros : Nat) (s : State) : Host.Outcome State Fault Refusal :=
  match s.mem.march with
  | some m => if s.live ∧ m.target = none then .next (marchEnd fails micros m s) else .next s
  | none => .next s

/-- A repair ends (R353): with no spare left the status is FAIL and the bank is unchanged. DEDUCED (log 51). -/
def repairEnd (kind index micros : Nat) (m : March) (s : State) : State :=
  let s := endMarch s m
  let (s, status) := match (s.bank m.bank).repair kind index with
    | some b => ((s.modBank m.bank fun _ => b).saveRepairs m.bank, 1)
    | none => (s, 2)
  let b := s.bank m.bank
  let (s, v0) := s.openVal 7
  let (s, v1) := s.openVal 8
  let (s, v2) := s.openVal 9
  let (s, v3) := s.openVal 10
  let r : MarchResult :=
    { bank := m.bank, status := status, rowsFailed := v0 % 65536, colsFailed := v1 % 256, rowsLeft := 8 - b.rows.length
      colsLeft := 2 - b.cols.length, firstRow := v2 % 65536, firstBit := v3 % 256, duration := micros }
  finishMarch (s.mbEvent m.bank 5 status) m r

def execRepairEnd (micros : Nat) (s : State) : Host.Outcome State Fault Refusal :=
  match s.mem.march with
  | some m =>
    match m.target with
    | some (kind, index) => if s.live then .next (repairEnd kind index micros m s) else .next s
    | none => .next s
  | none => .next s

/-- STATE of MARCH_STATUS: the phases of a shadowed test or repair follow each other at instants the spec gives only without contention. -/
def marchPhase (m : March) (v : Nat) : Nat :=
  let work := if m.target.isSome then 4 else 2
  if m.shadow = 0xFF then work else ([1, work, 3][v % 3]?).getD work

def marchStatusCmd : HostCmd :=
  { opcode := 0x0211, len := .fixed 0, priv := 0
    effect := fun _ s =>
      let last := ((s.mem.lastMarch).map MarchResult.bytes).getD (rsv 16)
      match s.mem.march with
      | none =>
        let (s, b) := s.openVal 15
        let (s, sh) := s.openVal 16
        let (s, al) := s.openVal 17
        (s, .ok (u8 0 ++ u8 b ++ u8 sh ++ u8 al ++ u32 s.mem.progress ++ u32 s.mem.fails ++ u32 s.mem.firstFail ++ last))
      | some m =>
        let (s, v) := s.openVal 11
        let (s, pr) := s.openVal 12
        let (s, fa) := s.openVal 13
        let (s, ff) := s.openVal 14
        (s, .ok (u8 (marchPhase m v) ++ u8 m.bank ++ u8 m.shadow ++ u8 m.algo ++ u32 pr ++ u32 fa ++ u32 ff ++ last)) }

def execMarchStatus (q : Qcp) (s : State) : Host.Outcome State Fault Refusal := runHost marchStatusCmd q s

/-! ### Protection windows (R354, R355) -/

/-- The window that 16 bytes spell (Table 15.11). -/
def windowOf (p : List Byte) : Window := { base := fieldU p 0 4, limit := fieldU p 4 4, perm := fieldU p 8 1, flags := fieldU p 9 1 }

def Window.bytes (w : Window) : List Byte := u32 w.base ++ u32 w.limit ++ u8 w.perm ++ u8 w.flags ++ rsv 6

/-- Write one window of a core. -/
def State.setWindow (s : State) (core n : Nat) (w : Window) : State :=
  { s with mem := { s.mem with windows := modAt s.mem.windows core fun ws => modAt ws n fun _ => w } }

/-- Another enabled RS window of UC exists. -/
def otherRs (s : State) (n : Nat) : Bool :=
  match s.rsWindow 7 with
  | some (k, _) => k != n
  | none => false

def protWindowSetCmd : HostCmd :=
  { opcode := 0x0220, len := .fixed 24, priv := 2
    range := fun q s =>
      let w := windowOf (q.payload.drop 8)
      [ (0, q.u 0 1 == 7), (1, q.u 1 1 ≤ 31), (8, !w.enabled || w.base % 64 == 0),
        (12, !w.enabled || (w.limit % 64 == 0 && w.base < w.limit)), (16, w.perm < 16),
        (17, w.flags < 8 && !(w.enabled && w.isRs && otherRs s (q.u 1 1))) ]
    state := fun q s => [!bitOf (((s.windows 7)[q.u 1 1]?).getD Window.reset).flags 2]
    effect := fun q s =>
      let w := windowOf (q.payload.drop 8)
      let s := s.setWindow 7 (q.u 1 1) w
      (if w.enabled && w.isRs then { s with cores := modAt s.cores 7 fun c => { c with rsp := BitVec.ofNat 32 w.limit } } else s, .ok []) }

def execProtWindowSet (q : Qcp) (s : State) : Host.Outcome State Fault Refusal := runHost protWindowSetCmd q s

def protWindowReadCmd : HostCmd :=
  { opcode := 0x0221, len := .fixed 4, priv := 0
    range := fun q _ => [(0, q.u 0 1 ≤ 7)]
    effect := fun q s => (s, .ok ((s.windows (q.u 0 1)).map Window.bytes).flatten) }

def execProtWindowRead (q : Qcp) (s : State) : Host.Outcome State Fault Refusal := runHost protWindowReadCmd q s

/-! ### DMA assignment and status -/

def DmaState.code : DmaState → Nat
  | .idle => 0
  | .running => 1
  | .waiting => 2
  | .frozen => 3
  | .stopped => 4
  | .aborted => 5

/-- A DMA channel. -/
def State.dmaChan (s : State) (n : Nat) : DmaChan := (s.mem.dma[n]?).getD (DmaChan.reset n)

def State.modDma (s : State) (n : Nat) (f : DmaChan → DmaChan) : State := { s with mem := { s.mem with dma := modAt s.mem.dma n f } }

/-- A peripheral request line is asserted: 1 + 2n while UAn holds a received character, 2 + 2n while it can take one (R436). -/
def State.dmaLine (s : State) (line : Nat) : Bool :=
  match s.periph.uarts[(line - 1) / 2]? with
  | some u => if line % 2 = 1 then u.rxHold.isSome else u.hold.isNone && u.txen
  | none => false

/-- The channel waits for a beat boundary or for its request line (Table 15.17). -/
def DmaChan.held (c : DmaChan) (s : State) : Bool :=
  (c.waitBeat.map fun b => decide (s.time.beat ≤ b)).getD false || (c.run.map fun d => bitsOf d.ctrl 12 8 != 0 && !s.dmaLine (bitsOf d.ctrl 12 8)).getD false

/-- The source and destination addresses of the next burst. -/
def DmaChan.source (c : DmaChan) : Nat := match c.run with
  | some d => if bitOf d.ctrl 3 then d.src else (d.src + c.moved) % 2 ^ 32
  | none => c.cur
def DmaChan.dest (c : DmaChan) : Nat := match c.run with
  | some d => if bitOf d.ctrl 4 then d.dst else (d.dst + c.moved) % 2 ^ 32
  | none => 0

/-- Bytes of the next burst: 64, the rest of the descriptor, or one word when a request line paces it (R359, R436). -/
def DmaChan.burst (c : DmaChan) : Nat := match c.run with
  | some d => min (if bitsOf d.ctrl 12 8 = 0 then 64 else 4) (d.length - c.moved)
  | none => 32

/-- STATE as read: a running channel that cannot start its next burst is WAITING. -/
def DmaChan.shown (c : DmaChan) (s : State) : DmaState :=
  match c.state with
  | .running => if c.held s || rangesHit s.unverified c.source c.burst then .waiting else .running
  | x => x

/-- The channel runs, waits or is frozen. -/
def DmaChan.busy (c : DmaChan) : Bool :=
  match c.state with
  | .running | .waiting | .frozen => true
  | .idle | .stopped | .aborted => false

def dmaAssignCmd : HostCmd :=
  { opcode := 0x0230, len := .fixed 4, priv := 2
    range := fun q _ => [(0, 8 ≤ q.u 0 1 && q.u 0 1 ≤ 23), (1, q.u 1 1 == 7 || q.u 1 1 == 0xFF), (2, q.u 2 1 ≤ 3)]
    state := fun q s => [!(s.dmaChan (q.u 0 1)).busy]
    effect := fun q s =>
      (s.modDma (q.u 0 1) fun c => { c with master := q.u 1 1, classMax := q.u 2 1, cls := max c.cls (q.u 2 1) }, .ok []) }

def execDmaAssign (q : Qcp) (s : State) : Host.Outcome State Fault Refusal := runHost dmaAssignCmd q s

def dmaStatusCmd : HostCmd :=
  { opcode := 0x0231, len := .fixed 0, priv := 0
    effect := fun _ s =>
      (s, .ok (s.mem.dma.map fun c => u8 (c.shown s).code ++ u8 c.master ++ u8 c.cls ++ u8 (boolBits [c.done, c.err])).flatten) }

def execDmaStatus (q : Qcp) (s : State) : Host.Outcome State Fault Refusal := runHost dmaStatusCmd q s

/-! ### Logs -/

def freezeReadCmd : HostCmd :=
  { opcode := 0x0240, len := .fixed 4, priv := 0
    range := fun q _ => [(0, q.u 0 1 ≤ 31), (1, 1 ≤ q.u 1 1 && q.u 1 1 ≤ 16 && q.u 0 1 + q.u 1 1 ≤ 32)]
    effect := fun q s => (s, .ok (logSlice FreezeRec.bytes 64 s.mem.freezeLog (q.u 0 1) (q.u 1 1))) }

def execFreezeRead (q : Qcp) (s : State) : Host.Outcome State Fault Refusal := runHost freezeReadCmd q s

def eccReadCmd : HostCmd :=
  { opcode := 0x0250, len := .fixed 4, priv := 0
    range := fun q _ => [(0, q.u 0 1 ≤ 63), (1, 1 ≤ q.u 1 1 && q.u 0 1 + q.u 1 1 ≤ 64)]
    effect := fun q s => (s, .ok (logSlice EccRec.bytes 16 s.mem.eccLog (q.u 0 1) (q.u 1 1))) }

def execEccRead (q : Qcp) (s : State) : Host.Outcome State Fault Refusal := runHost eccReadCmd q s

/-! ### Host memory access (R363) -/

/-- The range stays in the bank of its first byte, or in its octet when that is interleaved. -/
def oneBankRange (s : State) (a n : Nat) : Bool :=
  let span := if (s.bank (8 * octetOf a)).interleaved then 0x400000 else bankBytes
  decide ((a - memBase) % span + n ≤ span)

/-- The banks that a range of managed memory touches: all on. -/
def rangeOn (s : State) (a n : Nat) : Bool :=
  (List.range n).all fun i => decide ((s.bank (s.mem.locate (a + i)).1).state = .on)

def memRange (q : Qcp) (s : State) : List (Int × Bool) :=
  [(0, inMem (q.u 0 4)), (4, 1 ≤ q.u 4 2 && q.u 4 2 ≤ 4000 && oneBankRange s (q.u 0 4) (q.u 4 2))]

def memReadCmd : HostCmd :=
  { opcode := 0x0260, len := .fixed 8, priv := 2, range := memRange
    state := fun q s =>
      let b := s.bank (s.mem.locate (q.u 0 4)).1
      [ b.ownerA != 7 && b.ownerB != 7, rangeOn s (q.u 0 4) (q.u 4 2), !s.cipherStall (q.u 0 4) (q.u 4 2) false ]
    effect := fun q s =>
      let d := s.memRead (q.u 0 4) (q.u 4 2)
      match s.eccRead 0x14 (q.u 0 4) (q.u 4 2) with
      | (s, none) => (s, .ok d)
      | (s, some _) => (s, ⟨stFault, []⟩) }

def execMemRead (q : Qcp) (s : State) : Host.Outcome State Fault Refusal := runHost memReadCmd q s

def memWriteCmd : HostCmd :=
  { opcode := 0x0261, len := ⟨9, 4008, fun p => some (8 + clampN 1 4000 (fieldU p 4 2))⟩, priv := 2, range := memRange
    state := fun q s =>
      let b := s.bank (s.mem.locate (q.u 0 4)).1
      [ b.ownerA == 0x14 || b.ownerB == 0x14, rangeOn s (q.u 0 4) (q.u 4 2), !s.cipherStall (q.u 0 4) (q.u 4 2) true ]
    effect := fun q s => (s.memWrite (q.u 0 4) (q.payload.drop 8), .ok []) }

def execMemWrite (q : Qcp) (s : State) : Host.Outcome State Fault Refusal := runHost memWriteCmd q s

/-! ### Events of the banks -/

/-- A bank power transition completes (R345, R346). -/
def execBankPowerDone (bank : Nat) (s : State) : Host.Outcome State Fault Refusal := .next (if s.live then s.bankDone bank else s)

/-- The granted accesses of the old owner have drained (R341). -/
def execHandoverDrain (bank : Nat) (s : State) : Host.Outcome State Fault Refusal :=
  .next (if s.live then (s.mem.ownGroup bank).foldl State.drained s else s)

/-- The next word, by address, of a bank that is on. -/
def nextScrub (m : MemSys) : Nat → Nat → Option Nat
  | 0, _ => none
  | f + 1, w =>
    let a := memBase + 8 * (w % 8388608)
    let b := (m.locate a).1
    if (m.bank b).state = .on then some (w % 8388608)
    else if (m.bank b).interleaved then
      (if (List.range 8).any fun i => decide ((m.bank (b / 8 * 8 + i)).state = .on) then nextScrub m f (w + 1)
       else nextScrub m f ((w / 524288 + 1) * 524288))
    else nextScrub m f ((w / 65536 + 1) * 65536)

/-- The patrol scrubber reads and corrects one word (R348).  `strike` is an upset that the environment put into a word of memory. DEDUCED (log 50). -/
def execPatrolScrub (strike : Option (Nat × Bool)) (s : State) : Host.Outcome State Fault Refusal :=
  if s.live then
    let s := match strike with
      | some (w, double) =>
        { s with mem := { s.mem with upsets := (w, double) :: s.mem.upsets.filter fun u => u.1 != w } }
      | none => s
    match nextScrub s.mem 400 s.mem.scrub with
    | none => .next s
    | some w =>
      let a := memBase + 8 * w
      let l := s.mem.loc a / 8
      let s := match s.mem.upsets.find? (fun u => u.1 == l) with
        | none => s
        | some (_, false) =>
          ({ s with mem := { s.mem with upsets := s.mem.upsets.filter fun u => u.1 != l } }).logEcc a (s.mem.locate a).1 3 0xFF
        | some (_, true) => s.logEcc a (s.mem.locate a).1 4 0xFF
      .next { s with mem := { s.mem with scrub := (w + 1) % 8388608 } }
  else .next s

/-- Writing 1 to MB_COLL_INFO.VALID by an owner of either port (R344). -/
def collClear (master bank : Nat) (s : State) : State :=
  let b := s.bank bank
  if 124 ≤ bank ∧ bank ≤ 127 ∧ (master = b.ownerA ∨ master = b.ownerB) then
    s.modBank bank fun b => { b with collValid := false, collCount := 0 }
  else s

def execMbCollClear (master bank : Nat) (s : State) : Host.Outcome State Fault Refusal :=
  .next (if s.live then collClear master bank s else s)

/-- A write of MB_CTRL.POWER under its lock (Table 15.6). -/
def ctrlPower (bank value : Nat) (s : State) : State :=
  let b := s.bank bank
  match bankPowerOf value with
  | some p =>
    if b.ownerA = 7 ∧ ¬ b.shadowed ∧ ¬ (b.crit ∧ p = .off ∧ p ≠ b.goal) then s.modBank bank fun b => b.request p else s
  | none => s

/-- UC writes MB_CTRL.POWER of a bank it owns (R346). -/
def execMbCtrlPower (bank value : Nat) (s : State) : Host.Outcome State Fault Refusal :=
  .next (if s.live then ctrlPower bank value s else s)

end Sys2Proof.Machine
end

