-- ==== Sys2Proof/Machine/Inputs.lean ====
section
/-! DEFINITION. Sample inputs: installation record, conditioning, statistics, checks, sub-band streams and their rings (R45–R65). -/

namespace Sys2Proof.Machine
open Sys2Proof

/-! ### The installation record (R49) -/

/-- One 64-byte input entry (Table 3.3). -/
def installInputOf (p : List Byte) : InstallInput :=
  { rate := fieldU p 0 1, antenna := fieldU p 1 1, invert := bitOf (fieldU p 2 1) 0, loFreq := fieldU p 4 8, rfLow := fieldU p 12 4
    rfHigh := fieldU p 16 4, groupDelay := fieldU p 20 4, delaySlope := fieldI p 24 4, gain := fieldI p 28 2, nf := fieldU p 30 2
    iqGain := fieldU p 32 2, iqPhase := fieldI p 34 2, nomRms := fieldU p 36 2 }

/-- The record that 576 bytes spell (Tables 3.2, 3.3). -/
def installOf (p : List Byte) : Install :=
  { bytes := p, nodeId := fieldU p 4 2, inputMask := fieldU p 6 1, refinKind := fieldU p 7 1, refinOffset := fieldI p 8 4
    serial := fieldU p 12 4, inputs := (List.range 8).map fun n => installInputOf (fieldB p (64 + 64 * n) 64) }

/-- Field checks of one entry; an entry of an unfitted input must be all zero. -/
def installInputRange (p : List Byte) (n : Nat) : List (Int × Bool) :=
  let e := fieldB p (64 + 64 * n) 64
  let o : Int := (64 + 64 * n : Nat)
  let r := installInputOf e
  if bitOf (fieldU p 6 1) n then
    [ (o, r.rate ≤ 3), (o + 1, r.antenna ≤ 7), (o + 2, fieldU e 2 1 ≤ 1),
      (o + 4, 1100000000000000 ≤ r.loFreq && r.loFreq ≤ 1700000000000000),
      (o + 12, 1100000 ≤ r.rfLow && r.rfLow + 1 ≤ r.rfHigh), (o + 16, r.rfHigh ≤ 1700000), (o + 20, r.groupDelay ≤ 1000000),
      (o + 24, -100000 ≤ r.delaySlope && r.delaySlope ≤ 100000), (o + 28, 0 ≤ r.gain && r.gain ≤ 6000), (o + 30, r.nf ≤ 1500),
      (o + 32, 14336 ≤ r.iqGain && r.iqGain ≤ 18432), (o + 34, -2048 ≤ r.iqPhase && r.iqPhase ≤ 2048),
      (o + 36, 512 ≤ r.nomRms && r.nomRms ≤ 10240) ]
  else [(o, e.all (· == 0))]

/-- CHECK: CRC-32C over the record with this field as 0. -/
def installCheck (p : List Byte) : Bool := crc32c (p.take 60 ++ rsv 4 ++ p.drop 64) == fieldU p 60 4

def installRange (p : List Byte) : List (Int × Bool) :=
  [ (0, fieldU p 0 2 == 1), (2, fieldU p 2 2 == 576), (4, fieldU p 4 2 ≤ 0xFFF), (7, fieldU p 7 1 ≤ 1),
    (8, -500000 ≤ fieldI p 8 4 && fieldI p 8 4 ≤ 500000), (60, installCheck p) ]
  ++ ((List.range 8).map (installInputRange p)).flatten

def State.input (s : State) (n : Nat) : SampleInput := (s.inputs[n]?).getD SampleInput.reset
def State.modInput (s : State) (n : Nat) (f : SampleInput → SampleInput) : State := { s with inputs := modAt s.inputs n f }
def State.subband (s : State) (n : Nat) : Subband := (s.subbands[n]?).getD Subband.reset
def State.modSubband (s : State) (n : Nat) (f : Subband → Subband) : State := { s with subbands := modAt s.subbands n f }

def installWriteCmd : HostCmd :=
  { opcode := 0x0301, len := .fixed 576, priv := 2
    range := fun q _ => installRange q.payload
    state := fun _ s => [s.inputs.all fun i => decide (i.state = .off)]
    effect := fun q s => ({ s with nv := { s.nv with install := some (installOf q.payload) } }, .ok []) }

def execInstallWrite (q : Qcp) (s : State) : Host.Outcome State Fault Refusal := runHost installWriteCmd q s

/-- Bytes that the spec leaves open. DESIGN CHOICE (log 8). DEDUCED (log 26). -/
def State.openBytes (s : State) (n : Nat) : State × List Byte :=
  let (s, k) := s.fresh
  (s, (List.range n).map (Config.freeByte k))

/-- DEDUCED (log 26). -/
def installReadCmd : HostCmd :=
  { opcode := 0x0302, len := .fixed 0, priv := 0
    effect := fun _ s => match s.nv.install with
      | some r => (s, .ok r.bytes)
      | none => let (s, b) := s.openBytes 576; (s, .ok b) }

def execInstallRead (q : Qcp) (s : State) : Host.Outcome State Fault Refusal := runHost installReadCmd q s

/-! ### States and notices (R61–R63) -/

def InputState.code : InputState → Nat
  | .off => 0
  | .training => 1
  | .run => 2
  | .lostClock => 3
  | .disabled => 4

/-- The installation entry of an input. -/
def State.installInput (s : State) (n : Nat) : Option InstallInput := (s.nv.install).bind fun r => r.inputs[n]?

/-- The input is fitted (INPUT_MASK). -/
def State.fitted (s : State) (n : Nat) : Bool := ((s.nv.install).map fun r => bitOf r.inputMask n).getD false

/-- INPUT_CHECK (Table 3.11). DEDUCED (log 25). -/
def State.inputCheck (s : State) (n check value : Nat) : State :=
  s.notify 0x8310 (s.beatBytes ++ u8 n ++ u8 check ++ u8 (s.input n).state.code ++ rsv 1 ++ u32 value)

/-- Move an input to a state, with the notice of a state change that no check causes (R63): its CHECK and VALUE are not stated. DEDUCED (log 25). -/
def State.moveInput (s : State) (n : Nat) (st : InputState) : State :=
  if (s.input n).state = st then s
  else
    let (s, c) := (s.modInput n fun i => { i with state := st }).openVal 20
    let (s, v) := s.openVal 21
    s.inputCheck n (c % 11) v

/-- An input starts in TRAINING. -/
def SampleInput.train (i : SampleInput) : SampleInput :=
  { i with aligned := none, ran := false, runs := List.replicate 8 0, lastSkew := none, clkLost := false }

/-- DC_SHIFT range (Table 3.12). -/
def dcShiftOk (v : Nat) : Bool := v == 0 || (decide (10 ≤ v) && decide (v ≤ 20))

def inputEnable (q : Qcp) (s : State) : State × Reply :=
  let n := q.u 0 1
  let s := s.modInput n fun i => { i with cfg := i.cfg.commit { i.cfg.committed with dcShift := q.u 2 1 } }
  if q.u 1 1 = 0 then
    ((s.moveInput n .off).modInput n fun i => { i with ran := false, aligned := none, stat := none, clkLost := false }, .ok [])
  else match (s.input n).state with
    | .off | .disabled => ((s.modInput n SampleInput.train).moveInput n .training, .ok [])
    | .training | .run | .lostClock => (s, .ok [])

def inputEnableCmd : HostCmd :=
  { opcode := 0x0310, len := .fixed 4, priv := 1
    range := fun q _ => [(0, q.u 0 1 ≤ 7), (1, q.u 1 1 ≤ 1), (2, dcShiftOk (q.u 2 1))]
    state := fun q s => [q.u 1 1 == 0 || s.fitted (q.u 0 1)]
    effect := inputEnable }

def execInputEnable (q : Qcp) (s : State) : Host.Outcome State Fault Refusal := runHost inputEnableCmd q s

/-- The 64 bytes of a statistics record (Table 3.5). -/
def InputStat.bytes (n : Nat) (r : InputStat) : List Byte :=
  u64 r.beat ++ u8 n ++ u8 r.state ++ u16 r.flags ++ u32 r.powerIn ++ u32 r.powerOut ++ i16 r.meanI ++ i16 r.meanQ ++ u32 r.clip
  ++ u32 r.blanked ++ u32 r.skew ++ (r.notches.map fun x => i16 x.1 ++ u8 x.2.1 ++ u8 x.2.2).flatten ++ (r.hist.map u16).flatten

def inputStatsCmd : HostCmd :=
  { opcode := 0x0330, len := .fixed 4, priv := 0
    range := fun q _ => [(0, q.u 0 1 ≤ 7)]
    state := fun q s => [(s.input (q.u 0 1)).state != .off, (s.input (q.u 0 1)).stat.isSome]
    effect := fun q s => (s, .ok (((s.input (q.u 0 1)).stat.map (InputStat.bytes (q.u 0 1))).getD [])) }

def execInputStats (q : Qcp) (s : State) : Host.Outcome State Fault Refusal := runHost inputStatsCmd q s

/-- The domain of an input is on. DEDUCED (log 12). -/
def State.inputOn (s : State) (n : Nat) : Bool := s.live && (if n < 4 then s.on 3 else s.on 4)

/-- A check sets at once: notice it when it had been clear for 1,000 beats (R63). -/
def State.raiseCheck (s : State) (n bit value : Nat) : State :=
  let fresh := decide (1000 ≤ (((s.input n).clear)[bit]?).getD 0)
  let s := s.modInput n fun i => { i with clear := modAt i.clear bit fun _ => 0 }
  if fresh then s.inputCheck n bit value else s

/-- CLK_LOSS acts at once (R62): alignment is discarded; an input in RUN moves to LOST_CLOCK. -/
def execClkLoss (input : Nat) (s : State) : Host.Outcome State Fault Refusal :=
  match (s.input input).state with
  | .off | .disabled | .lostClock => .next s
  | .training =>
    if s.inputOn input then
      let (s, v) := (s.modInput input fun i => { i with aligned := none, clkLost := true }).openVal 22
      .next (s.raiseCheck input 0 v)
    else .next s
  | .run =>
    if s.inputOn input then
      let (s, v) := (s.modInput input fun i => { i with state := .lostClock, aligned := none, clkLost := true }).openVal 22
      .next ((s.modInput input fun i => { i with clear := modAt i.clear 0 fun _ => 0 }).inputCheck input 0 v)
    else .next s

/-- Clock edges resume on an input in LOST_CLOCK (R61). -/
def execClockResume (input : Nat) (s : State) : Host.Outcome State Fault Refusal :=
  if s.inputOn input ∧ (s.input input).state = .lostClock then
    .next ((s.modInput input fun i => { i with aligned := none, runs := List.replicate 8 0, lastSkew := none }).moveInput input .training)
  else .next s

/-- The nibbles from an offset on decode as `n` consecutive training words 0xA, 0x5, 0x5, 0xA (R47). -/
def trainingRun : Nat → List (BitVec 4) → Bool
  | 0, _ => true
  | n + 1, a :: b :: c :: d :: rest => a == 0xA && b == 0x5 && c == 0x5 && d == 0xA && trainingRun n rest
  | _ + 1, _ => false

/-- The first alignment at which the nibble stream holds 64 consecutive training words. -/
def findAlignment : Nat → List (BitVec 4) → Option Nat
  | k, ns =>
    if trainingRun 64 ns then some (k % 4)
    else match ns with
      | [] => none
      | _ :: t => findAlignment (k + 1) t

/-- The alignment is fixed after 64 consecutive samples decode as the training word (R47). -/
def execAlignmentFixed (input : Nat) (nibbles : List (BitVec 4)) (s : State) : Host.Outcome State Fault Refusal :=
  if s.inputOn input ∧ (s.input input).state = .training ∧ (s.input input).aligned = none then
    match findAlignment 0 nibbles with
    | some k => .next (s.modInput input fun i => { i with aligned := some k })
    | none => .next s
  else .next s

/-! ### Conditioning (R50–R54) -/

/-- Input rate in hertz. -/
def fIn (rate : Nat) : Nat := 104000000 / 2 ^ rate

/-- Sub-band rate in hertz. -/
def fSb (rate : Nat) : Nat := 52000000 / 2 ^ rate

def signed8 (v : Nat) : Int := toSigned 1 (v % 256)

/-- The complex sample of four nibbles (Table 3.1), with INVERT. -/
def rawSample (invert : Bool) (w : BitVec 16) : Cplx :=
  let i := signed8 (w.toNat / 256)
  let q := signed8 w.toNat
  (i, if invert then -q else q)

/-- One sample of DC removal (R51); values carry 24 fractional bits. DEDUCED (log 23). -/
def dcStep (shift : Nat) (dc x : Int) : Int × Int :=
  if shift = 0 then (dc, x * 2 ^ 24)
  else
    let dc := dc + (x * 2 ^ 24 - dc) / (2 ^ shift : Nat)
    (dc, x * 2 ^ 24 - dc)

/-- Round to quarter LSB and saturate to ±127.5 LSB (R52): the conditioned path carries 10 bits. DEDUCED (log 23). -/
def toPath (v : Int) (frac : Nat) : Int := clampI (-510) 510 (roundDiv (v * 4) (2 ^ frac))

/-- I/Q correction (R52): inputs carry 24 fractional bits. -/
def iqCorrect (gain : Nat) (phase : Int) (x : Cplx) : Cplx :=
  (toPath x.1 24, toPath ((gain : Int) * (x.2 * 2 ^ 15 - phase * x.1)) 53)

/-- Stages 4 and 5 over a list of raw samples. -/
def condition (shift gain : Nat) (phase : Int) : Cplx → List Cplx → List Cplx × Cplx
  | dc, [] => ([], dc)
  | dc, x :: xs =>
    let (di, yi) := dcStep shift dc.1 x.1
    let (dq, yq) := dcStep shift dc.2 x.2
    let (ys, dc') := condition shift gain phase (di, dq) xs
    (iqCorrect gain phase (yi, yq) :: ys, dc')

/-- The sample meets BLANK_THR (R53). -/
def overThr (thr : Nat) (x : Cplx) : Bool := thr != 0 && decide (4 * thr ≤ max x.1.natAbs x.2.natAbs)

/-- Pulse blanking (R53): a sample is zero when it or one of the 8 after it meets the threshold, or while BLANK_HOLD lasts. DEDUCED (log 23). -/
def blank (thr hold : Nat) : Nat → List Cplx → Nat → List (Cplx × Bool) × Nat
  | 0, _, left => ([], left)
  | _ + 1, [], left => ([], left)
  | n + 1, x :: xs, left =>
    let hit := overThr thr x
    let z := hit || left != 0 || (xs.take 8).any (overThr thr)
    let (r, l) := blank thr hold n xs (if hit then hold else left - 1)
    ((if z then (0, 0) else x, z) :: r, l)

/-- Sum of I² + Q². -/
def power (xs : List Cplx) : Nat := (xs.map fun x => x.1.natAbs ^ 2 + x.2.natAbs ^ 2).sum

/-- The largest d with 10^((2d − 1) / (2k)) ≤ num / den: the nearest integer of k·log₁₀(num / den), for a result between 0 and `fuel`. -/
def logSteps (k num den : Nat) : Nat → Nat
  | 0 => 0
  | d + 1 => if den ^ (2 * k) * 10 ^ (2 * (d + 1) - 1) ≤ num ^ (2 * k) then d + 1 else logSteps k num den d

/-- DEPTH of a notch in 0.5 dB: ratio of the powers at its input and output (R54). -/
def notchDepth (pin pout : Nat) : Nat := if pin ≤ pout then 0 else if pout = 0 then 255 else logSteps 20 pin pout 255

/-- ±0.45 f_in in units of f_in / 65,536. -/
def clampNotch (f : Int) : Int := clampI (-29491) 29491 f

/-- Run one notch over a beat: its output, and the notch with its frequency and DEPTH. DESIGN CHOICE (log 24). -/
def runNotch (c : InputCfg) (stamp : Nat) (n : Notch) (xs : List Cplx) : List Cplx × Notch :=
  let adapting := n.state == 1 || n.state == 2
  let ys := Config.notchOut stamp n.freq c.notchWidth xs
  let f := if adapting then clampNotch (Config.notchFreq stamp n.freq c.notchStep xs) else n.freq
  if n.state = 0 then (xs, n)
  else
    let d := notchDepth (power xs) (power (ys.take xs.length))
    (if n.state = 1 then xs else (ys ++ List.replicate xs.length (0, 0)).take xs.length, { n with freq := f, depth := d })

/-- Notches N0 to N3 in series. -/
def runNotches (c : InputCfg) : Nat → List Notch → List Cplx → List Cplx × List Notch
  | _, [], xs => (xs, [])
  | stamp, n :: ns, xs =>
    let (ys, n') := runNotch c (4 * stamp + ns.length) n xs
    let (zs, r) := runNotches c stamp ns ys
    (zs, n' :: r)

/-- The state a notch moves to at a boundary (Table 3.4): mode and fixed frequency as commanded, thresholds in dB. -/
def nextNotch (c : InputCfg) (mode : Nat × Int) (n : Notch) : Notch :=
  let engaged := decide (2 * c.engage ≤ n.depth)
  let low := decide (n.depth < 2 * c.release)
  match n.state, mode.1 with
  | 0, 1 => { n with state := 1 }
  | 0, 2 => { n with state := 4, freq := clampNotch mode.2 }
  | 0, _ => n
  | 4, 2 => { n with freq := clampNotch mode.2 }
  | 4, _ => { n with state := 0 }
  | 1, 1 => if engaged then { n with state := 2 } else n
  | 2, 1 => if low then { n with state := 3, below := 1 } else n
  | 3, 1 =>
    if !low then { n with state := 2, below := 0 }
    else if 9 ≤ n.below then { n with state := 1, below := 0 } else { n with below := n.below + 1 }
  | _, 2 => { n with state := 4, freq := clampNotch mode.2 }
  | _, _ => { n with state := 0 }

/-- The notch is in the path. -/
def Notch.inPath (n : Notch) : Bool := decide (2 ≤ n.state)

/-- At most one notch changes state per input and beat, the lowest-numbered first (R54); the flag says that one entered or left the path. -/
def stepNotches (c : InputCfg) : List (Nat × Int) → List Notch → Bool → List Notch × Bool
  | m :: ms, n :: ns, used =>
    let n' := nextNotch c m n
    let change := n'.state != n.state
    let keep := change && used
    let n'' := if keep then (if n.state = 3 then { n with below := n.below + 1 } else n) else n'
    let (r, p) := stepNotches c ms ns (used || change)
    (n'' :: r, p || (n''.inPath != n.inPath))
  | _, ns, _ => (ns, false)

/-! ### The end of a beat for one input (R55, R62) -/

/-- Index of the first set bit that stays constant: some bit of I or Q has one value over the beat. -/
def stuck (ws : List (BitVec 16)) : Bool :=
  !ws.isEmpty && (List.range 16).any fun b => (ws.all fun w => w.getLsbD b) || (ws.all fun w => !w.getLsbD b)

/-- Fractions of magnitudes in units of 2⁻¹⁶ (HIST). -/
def histogram (xs : List Cplx) : List Nat :=
  let ms := (xs.map fun x => [x.1.natAbs, x.2.natAbs]).flatten
  [(0, 1), (2, 3), (4, 7), (8, 15), (16, 63), (64, 128)].map fun r =>
    if ms.isEmpty then 0 else min 65535 (roundDiv (65536 * (ms.countP fun m => decide (r.1 ≤ m ∧ m ≤ r.2)) : Nat) ms.length).toNat

/-- What one input did in the beat: its conditioned samples with blanking marks, and its statistics without flags. -/
structure BeatResult where
  out : List (Cplx × Bool)
  stat : InputStat
  input : SampleInput
  stuck : Bool

/-- The mean of a sum in units of 2⁻⁸, ties away from zero. -/
def mean8 (sum : Int) (n : Nat) : Int := if n = 0 then 0 else roundDiv (256 * sum) n

/-- Stages 1 to 8 of R50 for the beat that ends. DEDUCED (log 23). -/
def conditionBeat (e : InstallInput) (b : InputBeat) (beat stamp : Nat) (i : SampleInput) : BeatResult :=
  let c := i.cfg.inForce
  let ws := b.raw.filterMap id
  let raw := ws.map (rawSample e.invert)
  let (ys, dc) := condition c.dcShift e.iqGain e.iqPhase i.dc raw
  let (ah, _) := condition c.dcShift e.iqGain e.iqPhase dc ((b.ahead.take 8).map (rawSample e.invert))
  let (bl, left) := blank c.blankThr c.blankHold ys.length (ys ++ ah) i.holdLeft
  let (zs, notches) := runNotches c stamp i.notches (bl.map (·.1))
  let n := raw.length
  let st : InputStat :=
    { beat := beat, state := i.state.code, flags := 0, powerIn := (mean8 (power raw : Nat) n).toNat
      powerOut := if n = 0 then 0 else (roundDiv (16 * power zs : Nat) n).toNat, meanI := mean8 (raw.map (·.1)).sum n
      meanQ := mean8 (raw.map (·.2)).sum n
      clip := raw.countP fun x => x.1 == -128 || x.1 == 127 || x.2.natAbs == 128 || x.2 == 127, blanked := bl.countP (·.2)
      skew := b.skew, skewBefore := (i.stat.map (·.skew)).getD b.skew, notches := notches.map fun k => (k.freq, k.state, min 255 k.depth), hist := histogram raw }
  { out := zs.zip (bl.map (·.2)), stat := st, input := { i with dc := dc, holdLeft := left, notches := notches }, stuck := stuck ws }

/-- Consecutive-beat counts after a beat. DEDUCED (log 25). -/
def runCount (cond : Bool) (n : Nat) : Nat := if cond then n + 1 else 0

/-- POWER_IN stands `db` × 2 dB … below 2 × NOM_RMS²: exact comparison of fifth powers for 6 dB. -/
def belowNom6 (p nom : Nat) : Bool := decide ((p * 256) ^ 5 * 1000 < (2 * nom ^ 2) ^ 5)
def belowNom20 (p nom : Nat) : Bool := decide (p * 256 * 100 < 2 * nom ^ 2)
def aboveNom6 (p nom : Nat) : Bool := decide ((2 * nom ^ 2) ^ 5 * 1000 < (p * 256) ^ 5)

/-- The check bits of Table 3.10 raised in the beat, bits 1 to 10 the new counts, and the lowest check that disables. DEDUCED (log 25). -/
def evalChecks (e : InstallInput) (b : InputBeat) (r : BeatResult) : List Bool × List Nat × Option Nat :=
  let i := r.input
  let run := i.state == .run
  let n := b.raw.length
  let k (j : Nat) := (i.runs[j]?).getD 0
  let ratio := runCount (run && decide (1 < ((b.clocks : Int) - (2 * fIn e.rate / 1000 : Nat)).natAbs)) (k 0)
  let train := runCount (i.state == .training && i.aligned.isNone) (k 1)
  let stk := runCount (run && r.stuck) (k 2)
  let over_ := runCount (run && decide (n < 10 * r.stat.clip)) (k 3)
  let low6 := runCount (run && belowNom6 r.stat.powerIn e.nomRms) (k 4)
  let low20 := runCount (run && belowNom20 r.stat.powerIn e.nomRms) (k 5)
  let high := runCount (run && aboveNom6 r.stat.powerIn e.nomRms) (k 6)
  let dc := runCount (run && (decide (4096 < r.stat.meanI.natAbs) || decide (4096 < r.stat.meanQ.natAbs))) (k 7)
  let jump := run && match i.lastSkew with
    | some p => decide (64000000000 < 8 * ((b.skew : Int) - p).natAbs * fIn e.rate)
    | none => false
  ([ i.clkLost, decide (2 ≤ ratio), jump, decide (10 ≤ train), decide (1 ≤ stk), run && decide (n < 100 * r.stat.clip), decide (100 ≤ low6),
     decide (100 ≤ high), decide (100 ≤ dc), run && decide (n < 2 * r.stat.blanked), !run ],
   [ratio, train, stk, over_, low6, low20, high, dc],
   if 2 ≤ ratio then some 1 else if 3 ≤ stk then some 4 else if 1000 ≤ low20 then some 6 else none)

/-- The measured quantity of a check's notice; where Table 3.11 names none, a free value. -/
def checkValue (b : InputBeat) (st : InputStat) (openV : Nat) : Nat → Nat
  | 1 => b.clocks
  | 2 => b.skew
  | 5 => st.clip
  | 6 | 7 => st.powerIn
  | 8 => leNat (i32 (if 4096 < st.meanI.natAbs then st.meanI else st.meanQ))
  | 9 => st.blanked
  | _ => openV

/-- The checks, notices and state changes of one input at the boundary (R62, R63). DEDUCED (log 25). -/
def applyChecks (n : Nat) (e : InstallInput) (b : InputBeat) (r : BeatResult) (s : State) : State × Nat :=
  let (flags, runs, cause) := evalChecks e b r
  let i := r.input
  let lost := i.state == .lostClock
  let flags := modAt flags 0 fun f => f || lost
  let (s, v) := s.openVal 23
  let was := i.clear
  let st : InputState := if cause.isSome then .disabled else if i.state = .training ∧ i.aligned.isSome then .run else i.state
  let changed := st != i.state
  let s := s.modInput n fun _ =>
    { i with runs := if changed then List.replicate 8 0 else runs, clear := flags.zipWith (fun f c => if f then 0 else min 1000 (c + 1)) was
             lastSkew := if i.state = .run then some b.skew else none, clkLost := false, state := st, ran := st == .run
             stat := some { r.stat with flags := boolBits flags } }
  let s := (List.range 11).foldl (fun s j =>
    let set := (flags[j]?).getD false && (j != 0 || !lost)
    let due := if j = 5 then (runs[3]?).getD 0 == 10 else set && decide (1000 ≤ (was[j]?).getD 0)
    if due || cause == some j then s.inputCheck n j (checkValue b r.stat v j) else s) s
  let s := if changed && cause.isNone then (let (s, c) := s.openVal 20; s.inputCheck n (c % 11) v) else s
  (s, boolBits flags)

/-! ### Sub-band streams (R56–R60) -/

/-- Table 3.6. -/
def rateOk (rateIn rate : Nat) : Bool := decide (rateIn ≤ rate + 1) && decide (rate + 1 - rateIn ≤ 4)

/-- The two conditions on MIX_WORD (R57). -/
def mixOk (e : InstallInput) (rate : Nat) (mix : Int) : Bool :=
  let fi := fIn e.rate
  let fs := fSb rate
  let m : Int := mix * fi * 1000000 * 10
  let half : Int := (4 * fs * 1000000 * 2 ^ 32 : Nat)
  decide (10 * mix.natAbs * fi + 4 * fs * 2 ^ 32 ≤ 5 * fi * 2 ^ 32) &&
    decide (((e.rfLow * 1000000000 * 10 * 2 ^ 32 : Nat) : Int) ≤ (e.loFreq * 10 * 2 ^ 32 : Nat) + m - half) &&
    decide (((e.loFreq * 10 * 2 ^ 32 : Nat) : Int) + m + half ≤ (e.rfHigh * 1000000000 * 10 * 2 ^ 32 : Nat))

/-- Bytes of one slot's samples, padded to 64. -/
def slotBytes (c : SubbandCfg) : Nat := (fSb c.rate / 1000 * (c.format + 1) + 63) / 64 * 64

/-- Bytes of the tags, padded to 64. -/
def tagBytes (c : SubbandCfg) : Nat := (16 * c.depth + 63) / 64 * 64

/-- Banks of a ring (R60). -/
def ringBanks (c : SubbandCfg) : Nat := (tagBytes c + c.depth * slotBytes c + bankBytes - 1) / bankBytes

/-- Address of a tag and of a slot of the ring. -/
def ringBase (c : SubbandCfg) : Nat := memBase + c.firstBank * bankBytes
def tagAddr (c : SubbandCfg) (beat : Nat) : Nat := ringBase c + 16 * (beat % c.depth)
def slotAddr (c : SubbandCfg) (beat : Nat) : Nat := ringBase c + tagBytes c + slotBytes c * (beat % c.depth)

def subbandOf (q : Qcp) : SubbandCfg :=
  { enable := q.u 1 1 == 1, rate := q.u 2 1, format := q.u 3 1, mixWord := q.i 4 4, depth := q.u 8 2, firstBank := q.u 10 1
    agc := q.u 11 1, scale := q.u 12 1 }

/-- The stream runs: it is enabled, or its disabling waits for the boundary. -/
def Subband.runs (b : Subband) : Bool := b.cfg.committed.enable || b.cfg.inForce.enable

/-- The Stop fields of two settings agree. -/
def sameStop (a b : SubbandCfg) : Bool := a.rate == b.rate && a.format == b.format && a.depth == b.depth && a.firstBank == b.firstBank

/-- SUBBAND_SET: `locked` says that the Carafe records the stream (R291). DEDUCED (log 26). -/
def subbandSetCmd (locked : Nat → State → Bool) : HostCmd :=
  { opcode := 0x0320, len := .fixed 16, priv := 1
    range := fun q s =>
      let c := subbandOf q
      let e := s.installInput (q.u 0 1 / 4)
      let known := s.installed
      [ (0, q.u 0 1 ≤ 31), (1, q.u 1 1 ≤ 1), (2, c.rate ≤ 3 && (!known || (e.map fun e => rateOk e.rate c.rate).getD false)),
        (3, c.format ≤ 1 && (c.format == 0 || 1 ≤ c.rate)), (4, !known || (e.map fun e => mixOk e c.rate c.mixWord).getD false),
        (8, 4 ≤ c.depth && c.depth ≤ 256), (10, c.firstBank ≤ 127 && c.firstBank + ringBanks c ≤ 128), (11, c.agc ≤ 1), (12, c.scale ≤ 160) ]
    state := fun q s =>
      let c := subbandOf q
      let b := s.subband (q.u 0 1)
      [ s.installed, !b.runs || sameStop c b.cfg.committed,
        !(c.enable && b.ring.isNone) || s.banksFree c.firstBank (ringBanks c),
        c.enable || !b.runs || !locked (q.u 0 1) s ]
    effect := fun q s =>
      let c := subbandOf q
      let b := s.subband (q.u 0 1)
      let take := c.enable && b.ring.isNone
      let s := if take then s.giveBanks c.firstBank (ringBanks c) 0x08 .sampleRing else s
      (s.modSubband (q.u 0 1) fun b =>
        { b with cfg := b.cfg.commit c, ring := if take then some (c.firstBank, ringBanks c) else b.ring }, .ok []) }

/-- The nearest integer of |x| × 10^(−scale/80) for x in 2⁻¹⁶ LSB, at most `top` (R59). -/
def requant (scale : Nat) (x : Nat) : Nat → Nat
  | 0 => 0
  | n + 1 => if ((2 * n + 1) * 65536) ^ 80 * 10 ^ scale ≤ (2 * x) ^ 80 then n + 1 else requant scale x n

/-- Scale, round and saturate one component: 4-bit or 8-bit. -/
def quantise (format scale : Nat) (x : Int) : Int :=
  let top := if format = 0 then 8 else 128
  let m := requant scale x.natAbs top
  if x < 0 then -(m : Int) else (min m (top - 1) : Nat)

/-- A sample in the ring format. -/
def ringSample (format : Nat) (x : Cplx) : List Byte :=
  if format = 0 then u8 ((x.1 % 16).toNat * 16 + (x.2 % 16).toNat) else i8 x.1 ++ i8 x.2

/-- AGC: the direction of one step toward the target (R59): r² = (ΣI² + ΣQ²) / 2N against 2.5 or 20 LSB ± 1 dB. -/
def agcStep (format : Nat) (xs : List Cplx) (scale : Nat) : Nat :=
  if xs.isEmpty then scale
  else
    -- (r² / target²)^10 against 10^±1, with target² = 25/4 or 400
    let num := power xs * (if format = 0 then 4 else 1)
    let den := 2 * xs.length * (if format = 0 then 25 else 400)
    if den ^ 10 * 10 < num ^ 10 then min 160 (scale + 1)
    else if num ^ 10 * 10 < den ^ 10 then scale - 1 else scale

/-- Write bytes to managed memory where the bank is on. -/
def State.memPut (s : State) (a : Nat) (bs : List Byte) : State :=
  if (s.bank (s.mem.locate a).1).state = .on then s.memWrite a bs else s

/-- The 16 bytes of a ring tag (Table 3.8). -/
def ringTag (beat count blanked scale flags : Nat) : List Byte := u16 flags ++ u8 0 ++ u8 scale ++ u16 (min 65535 blanked) ++ u16 count ++ u64 beat

/-- Write the slot of the beat that ended and take the SCALE of the next (R59, R60).
`hook`: the Carafe writer takes the stream's number, SCALE, filter output, ring samples and tag (R288). DESIGN CHOICE (log 24). -/
def subbandBeat (hook : Nat → Nat → List Cplx → List Cplx → List Byte → State → State) (n rateIn : Nat) (out : List (Cplx × Bool)) (delivered full beat flags : Nat) (change : Bool) (s : State) : State :=
  let b := s.subband n
  let c := b.cfg.inForce
  if !c.enable then s
  else
    let (s, k) := s.fresh
    let (s, bv) := s.openVal 24
    let total := fSb c.rate / 1000
    let count := if full = 0 then 0 else min total (delivered * total / full)
    let filt := (List.range count).map (Config.subbandOut k c.mixWord rateIn c.rate (out.map (·.1)))
    let ys := filt.map fun x => (quantise c.format b.scale x.1, quantise c.format b.scale x.2)
    let blanked := if out.any (·.2) then bv % (count + 1) else 0
    let fl := flags + (if b.scale = b.prevScale then 0 else 2048) + (if change then 4096 else 0)
    let data := (ys.map (ringSample c.format)).flatten
    let tag := ringTag beat count blanked b.scale fl
    let s := (s.memPut (slotAddr c beat) (data ++ rsv (slotBytes c - data.length))).memPut (tagAddr c beat) tag
    let s := hook n b.scale filt ys tag s
    s.modSubband n fun b =>
      { b with prevScale := b.scale, scale := if c.agc = 0 then agcStep c.format ys b.scale else b.scale }

/-- The Beat-coded copy of one sub-band: SCALE starts or stays as commanded; a disabled stream releases its banks (R59, R60, R64). -/
def subbandLatch (n : Nat) (s : State) : State :=
  let b := s.subband n
  let start := b.cfg.committed.enable && !b.cfg.inForce.enable
  let s := s.modSubband n fun b =>
    let sc := if start || b.cfg.committed.agc == 1 then b.cfg.committed.scale else b.scale
    { b with cfg := b.cfg.latch, scale := sc, prevScale := if start then sc else b.prevScale }
  match (s.subband n).ring with
  | some (f, k) => if (s.subband n).cfg.inForce.enable then s else (s.freeBanks f k).modSubband n fun b => { b with ring := none }
  | none => s

/-- One input at the boundary that ends a beat. -/
def inputBeat (hook : Nat → Nat → List Cplx → List Cplx → List Byte → State → State) (n : Nat) (b : InputBeat) (s : State) : State :=
  match s.installInput n with
  | none => s
  | some e =>
    let i := s.input n
    if i.state = .off || !s.inputOn n then s
    else
      let beat := s.time.beat - 1
      let (s, k) := s.fresh
      let b := if i.state = .lostClock && !i.ran then { b with raw := [] } else b
      let r := conditionBeat e b beat k i
      let change := i.notchChange
      let (s, flags) := applyChecks n e b r s
      let deliver := i.ran
      let s := (List.range 4).foldl (fun s j =>
        subbandBeat hook (4 * n + j) e.rate (if deliver then r.out else []) (if deliver then r.out.length else 0) (fIn e.rate / 1000) beat flags
          change s) s
      let (ns, p) := stepNotches (s.input n).cfg.inForce (s.input n).cfg.inForce.notchMode (s.input n).notches false
      s.modInput n fun i => { i with notches := ns, notchChange := p }

/-- All inputs at a boundary, then the Beat-coded copies. -/
def inputsBoundary (hook : Nat → Nat → List Cplx → List Cplx → List Byte → State → State) (bs : List InputBeat) (s : State) : State :=
  let s := (List.range 8).foldl (fun s n => inputBeat hook n ((bs[n]?).getD ⟨[], [], 0, 0⟩) s) s
  let s := { s with inputs := s.inputs.map fun i => { i with cfg := i.cfg.latch } }
  (List.range 32).foldl (fun s n => subbandLatch n s) s

end Sys2Proof.Machine
end

