-- ==== Sys2Proof/Machine/Catalogue.lean ====
section
/-! DEFINITION. The signal catalogue (R96–R98), user signals (R118), admission (R114) and exact rounding. -/

namespace Sys2Proof.Machine
open Sys2Proof

/-! ### Rounding -/

/-- The nearest integer, ties away from zero. DESIGN CHOICE (log 10). -/
def roundRat (r : Rat) : Int := roundDiv r.num r.den

/-! ### The catalogue (Table 5.1) -/

/-- What a signal of one satellite is. -/
structure Sig where
  /-- µHz -/
  carrier : Nat
  /-- chips (chip slots) per second -/
  chipRate : Nat
  /-- code length in chip slots -/
  length : Nat
  /-- P, ms -/
  period : Nat
  hasData : Bool
  pilot : Bool
  /-- BOC(1,1) of the data and pilot replicas -/
  bocD : Bool
  bocP : Bool
  /-- secondary lengths; 0: none -/
  secD : Nat
  secP : Nat
  deriving DecidableEq, Repr

/-- Catalogue IDs of QZSS that are as a GPS signal. -/
def baseSignal (id : Nat) : Nat := match id with
  | 0x40 => 0x01 | 0x41 => 0x02 | 0x42 => 0x03 | 0x43 => 0x04 | n => n

/-- SAT ranges (Table 5.2). -/
def satOk (id sat : Nat) : Bool :=
  if id ≤ 0x04 ∨ (0x20 ≤ id ∧ id ≤ 0x23) ∨ (0xE0 ≤ id ∧ id ≤ 0xEF) then decide (1 ≤ sat ∧ sat ≤ 63)
  else if 0x10 ≤ id ∧ id ≤ 0x13 then decide (1 ≤ sat ∧ sat ≤ 50)
  else if id = 0x30 ∨ id = 0x31 then decide (sat ≤ 13)
  else if 0x40 ≤ id ∧ id ≤ 0x44 then decide (1 ≤ sat ∧ sat ≤ 10)
  else if id = 0x50 then decide (1 ≤ sat ∧ sat ≤ 14)
  else if id = 0x60 ∨ id = 0x61 then decide (20 ≤ sat ∧ sat ≤ 58) else false

/-- BeiDou GEO satellites (R139). -/
def bdsGeo (sat : Nat) : Bool := decide (sat ≤ 5) || decide (59 ≤ sat)

def dSig (carrier chip len p secD : Nat) : Sig :=
  { carrier := carrier, chipRate := chip, length := len, period := p, hasData := true, pilot := false, bocD := false, bocP := false, secD := secD, secP := 0 }

def dpSig (carrier chip len p : Nat) (boc : Bool) (secD secP : Nat) : Sig :=
  { carrier := carrier, chipRate := chip, length := len, period := p, hasData := true, pilot := true, bocD := boc, bocP := boc, secD := secD, secP := secP }

/-- Carriers in µHz. -/
def l1 : Nat := 1575420000000000
def l5 : Nat := 1176450000000000
def mhz : Nat := 1000000000000

/-- A catalogue signal other than a user signal. -/
def catalogueSig (id sat : Nat) : Option Sig :=
  if !satOk id sat then none
  else match baseSignal id with
    | 0x01 => some (dSig l1 1023000 1023 1 0)
    | 0x02 => some (dpSig l1 1023000 10230 10 true 0 1800)
    | 0x03 => some (dpSig 1227600000000000 1023000 1534500 20 false 0 0)
    | 0x04 => some (dpSig l5 10230000 10230 1 false 10 20)
    | 0x10 => some (dpSig l1 1023000 4092 4 true 0 25)
    | 0x11 => some (dpSig l5 10230000 10230 1 false 20 100)
    | 0x12 => some (dpSig 1207140000000000 10230000 10230 1 false 4 100)
    | 0x13 => some (dpSig 1278750000000000 5115000 5115 1 false 0 100)
    | 0x20 => some (dSig 1561098000000000 2046000 2046 1 (if bdsGeo sat then 0 else 20))
    | 0x21 => some (dpSig l1 1023000 10230 10 true 0 1800)
    | 0x22 => some (dpSig l5 10230000 10230 1 false 5 100)
    | 0x23 => some (dSig 1268520000000000 10230000 10230 1 (if bdsGeo sat then 0 else 20))
    | 0x30 => some (dSig (1602 * mhz + 562500000000 * sat - 562500000000 * 7) 511000 511 1 20)
    | 0x31 => some (dSig (1246 * mhz + 437500000000 * sat - 437500000000 * 7) 511000 511 1 20)
    | 0x44 => some (dSig 1278750000000000 5115000 20460 4 0)
    | 0x50 => some (dSig l5 1023000 1023 1 0)
    | 0x60 => some (dSig l1 1023000 1023 1 0)
    | 0x61 => some (dpSig l5 10230000 10230 1 false 10 20)
    | _ => none

def isUser (id : Nat) : Bool := decide (0xE0 ≤ id ∧ id ≤ 0xEF)

/-- A component held in the code RAM. -/
def State.userCode (s : State) (id sat comp : Nat) : Option UserCode :=
  s.fabric.codes.find? fun c => c.signal == id && c.sat == sat && c.comp == comp

/-- A user signal that is loaded for a satellite (R118). -/
def userSig (d p : Option UserCode) : Option Sig :=
  match d.or p with
  | none => none
  | some c => some
    { carrier := c.carrier, chipRate := c.chipRate, length := c.length, period := c.period, hasData := d.isSome, pilot := p.isSome
      bocD := (d.map (·.boc)).getD false, bocP := (p.map (·.boc)).getD false, secD := (d.map (·.sec.length)).getD 0
      secP := (p.map (·.sec.length)).getD 0 }

/-- The signal that SIGNAL and SAT name (R96, R97, R118). -/
def State.sig (s : State) (id sat : Nat) : Option Sig :=
  if isUser id then userSig (s.userCode id sat 0) (s.userCode id sat 1) else catalogueSig id sat

/-- SIGNAL is in the catalogue, or a user signal held for some satellite. -/
def State.signalKnown (s : State) (id : Nat) : Bool :=
  if isUser id then s.fabric.codes.any fun c => c.signal == id
  else [0x01, 0x02, 0x03, 0x04, 0x10, 0x11, 0x12, 0x13, 0x20, 0x21, 0x22, 0x23, 0x30, 0x31, 0x40, 0x41, 0x42, 0x43, 0x44, 0x50, 0x60, 0x61].contains id

/-- The longest secondary code, over which SEC_INDEX counts (R98). -/
def Sig.secLen (g : Sig) : Nat := max g.secD g.secP

/-- The tracking component is the pilot if the signal has one (R104, R118). -/
def Sig.trackPilot (g : Sig) : Bool := g.pilot

/-- The tracking component is on a BOC(1,1) replica. -/
def Sig.boc (g : Sig) : Bool := if g.pilot then g.bocP else g.bocD

/-- Chip slots of one primary period: windows may close at its multiples (R96, R106). -/
def Sig.epoch (g : Sig) : Nat := g.chipRate * g.period / 1000

/-! ### Replicas -/

/-- The chip of a component: +1, −1, or 0 on the slots of the other time-multiplexed code. -/
def State.chip (s : State) (id sat comp slot : Nat) : Int :=
  if isUser id then
    match s.userCode id sat comp with
    | some c => if (c.chips[slot]?).getD false then -1 else 1
    | none => 0
  else Config.chip (baseSignal id) sat comp slot

/-- The secondary chip of a component at a primary period (R98). -/
def State.secChip (s : State) (id sat comp idx : Nat) : Int :=
  match s.sig id sat with
  | none => 1
  | some g =>
    let n := if comp = 0 then g.secD else g.secP
    if n = 0 then 1
    else if id = 0x30 ∨ id = 0x31 then (if idx % n < 10 then 1 else -1)
    else if isUser id then
      match s.userCode id sat comp with
      | some c => if (c.sec[idx % n]?).getD false then -1 else 1
      | none => 1
    else if Config.secChip (baseSignal id) sat comp (idx % n) then -1 else 1

/-! ### Frequencies -/

/-- Frequency of the signal's carrier at the sub-band output, in µHz × 2³², without Doppler (R94). -/
def basebandConst (e : InstallInput) (mix : Int) (carrier : Nat) : Int :=
  ((carrier * 2 ^ 32 : Nat) : Int) - (e.loFreq * 2 ^ 32 : Nat) - mix * (fIn e.rate * 1000000 : Nat)

/-- CARR_WORD of a baseband frequency in Hz (R94). DEDUCED (log 86). -/
def carrWordOf (fbb : Rat) (fsb : Nat) : Int := roundRat (fbb * (2 ^ 48 : Nat) / fsb)

/-- CODE_WORD of a code rate in chips per second (R95). -/
def codeWordOf (rate : Rat) (fsb : Nat) : Int := roundRat (rate * (2 ^ 48 : Nat) / fsb)

/-- |f_bb| + 0.5 × chip rate ≤ 0.5 × f_sb for a carrier word (R94). -/
def carrWordOk (g : Sig) (fsb : Nat) (w : Int) : Bool :=
  decide (2 * w.natAbs * fsb + g.chipRate * 2 ^ 48 ≤ fsb * 2 ^ 48)

/-- The nominal code word. -/
def codeNominal (g : Sig) (fsb : Nat) : Nat := (roundDiv (g.chipRate * 2 ^ 48 : Nat) fsb).toNat

/-- The code word lies within ±0.1 % of nominal and the chip rate is below f_sb (R95). -/
def codeWordOk (g : Sig) (fsb w : Nat) : Bool :=
  decide (999 * codeNominal g fsb ≤ 1000 * w ∧ 1000 * w ≤ 1001 * codeNominal g fsb) && decide (g.chipRate < fsb)

/-! ### Admission (R21, R114) -/

/-- The admission limit for the lane domains that are on. -/
def limitFor (pd5 pd6 : Bool) : Nat := if pd5 && pd6 then 23712000 else if pd5 || pd6 then 11856000 else 0

def State.admitLimit (s : State) : Nat := limitFor (s.on 5) (s.on 6)

/-- The admitted total. -/
def State.admitted (s : State) : Nat := (s.fabric.chans.map fun c => c.2.cost).sum

/-- The limit of a claim: host claims leave ADMIT_RESERVE. -/
def State.claimLimit (s : State) (host : Bool) : Nat := if host then s.admitLimit - s.fabric.admitReserve else s.admitLimit

def State.admits (s : State) (host : Bool) (cost : Nat) : Bool := decide (s.admitted + cost ≤ s.claimLimit host)

/-- ST_BUDGET with ADMITTED, LIMIT and REQUESTED (R114). -/
def Reply.budget (admitted limit requested : Nat) : Reply := ⟨stBudget, u32 admitted ++ u32 limit ++ u32 requested⟩

/-! ### Channels -/

def State.chan (s : State) (n : Nat) : Chan := Tab.get Chan.reset s.fabric.chans n
def State.setChan (s : State) (n : Nat) (c : Chan) : State :=
  { s with fabric := { s.fabric with chans := Tab.set Chan.reset s.fabric.chans n c } }
def State.modChan (s : State) (n : Nat) (f : Chan → Chan) : State := s.setChan n (f (s.chan n))

/-- The channel is IDLE. -/
def Chan.idle (c : Chan) : Bool := c.act.state == 0

/-- No channel is out of IDLE and no claim reserves one. -/
def State.allIdle (s : State) : Bool := s.fabric.chans.all fun c => c.2.idle && c.2.claim.isNone

/-- A sub-band stream that a channel may read: the ring of 0–31, or stream s of Carafe window w at 32 + 4w + s. -/
def State.streamSub (s : State) (sb : Nat) : Nat :=
  if sb < 32 then sb else (s.carafe.cfg.streams[(sb - 32) % 4]?).getD 0xFF

/-- Settings of the stream in force; a stream of a window has the rate and format of the recording and the MIX_WORD of its trigger (R290). -/
def State.streamCfg (s : State) (sb : Nat) : SubbandCfg :=
  if sb < 32 then (s.subband sb).cfg.inForce
  else
    let j := (sb - 32) % 4
    { SubbandCfg.reset with
      enable := true, rate := (s.carafe.rates[j]?).getD 0, format := s.carafe.cfg.format
      mixWord := ((s.carafe.windows[(sb - 32) / 4]?).bind fun w => w.mix[j]?).getD 0 }

/-- Cost of a channel on a stream (R114). -/
def State.chanCost (s : State) (sb : Nat) : Nat := fSb (s.streamCfg sb).rate / 1000

/-- TINT in milliseconds (Table 5.3). -/
def tintMs (code : Nat) : Nat := ([1, 2, 4, 5, 10, 20, 40, 50, 100][code]?).getD 0

/-- A claim reserves an IDLE channel, and its cost counts from now (R42, R114). -/
def State.reserve (s : State) (n : Nat) (c : Claim) : State :=
  let cost := s.chanCost c.desc.subband
  s.modChan n fun k => { k with claim := some c, cost := cost }

end Sys2Proof.Machine
end

