-- ==== Sys2Proof/Machine/Clock.lean ====
section
/-! DEFINITION. The clock model, time scales and the states of reported time (R241–R251). -/

namespace Sys2Proof.Machine
open Sys2Proof

/-- The integer at or below a rational. -/
def floorRat (r : Rat) : Int := r.num / (r.den : Int)

/-- The integer at or above a rational. -/
def ceilRat (r : Rat) : Int := -((-r.num) / (r.den : Int))

def absRat (r : Rat) : Rat := if r < 0 then -r else r
def clampRat (lo hi v : Rat) : Rat := if v < lo then lo else if hi < v then hi else v

/-- One nanosecond in the units of the clock model (R241). -/
def nsUnit : Int := 2 ^ 32

def State.clock (s : State) : Clock := s.timeSys.clock
def State.modClock (s : State) (f : Clock → Clock) : State := { s with timeSys := { s.timeSys with clock := f s.timeSys.clock } }

/-! ### Reported time (R241–R246) -/

/-- Time on a segment, in 2⁻³² ns: what the fraction cannot hold is cut off (R241). -/
def Seg.time (g : Seg) (dt : Nat) : Int := g.t + floorRat ((((dt : Int) - (g.dt : Int) : Int) : Rat) * (1 + g.slope) * 67108864)

/-- The segment in force at a DT (R243). -/
def Clock.seg (c : Clock) (dt : Nat) : Option Seg := c.segs.find? fun g => decide (g.dt ≤ dt)

/-- Reported GPS time at a DT in 2⁻³² ns; none before it is first set. -/
def Clock.time (c : Clock) (dt : Nat) : Option Int := (c.seg dt).map fun g => g.time dt

/-- Reported GPS time in whole ns, 0 in NO_TIME. -/
def Clock.gpsNs (c : Clock) (dt : Nat) : Nat := ((c.time dt).map fun t => (t / nsUnit).toNat).getD 0

/-- The time generation at a DT (R243, R244). -/
def Clock.genAt (c : Clock) (dt : Nat) : Nat := ((c.seg dt).map (·.gen)).getD 0

/-- GEN after a step (R244). -/
def nextGen (g : Nat) : Nat := if g = 0xFFFF then 1 else g + 1

/-- The first DT at which a segment reads a time. -/
def Seg.dtOf (g : Seg) (t : Int) : Int := (g.dt : Int) + ceilRat (((t - g.t : Int) : Rat) / ((1 + g.slope) * 67108864))

/-- Start a segment at a DT (R241): its time is that of the old segment moved by a step in 2⁻³² ns. DESIGN CHOICE (log 21). -/
def Clock.newSeg (c : Clock) (dt : Nat) (slope : Rat) (step : Int) (gen : Nat) : Clock :=
  match c.time dt with
  | some t => { c with segs := { dt := dt, t := t + step, slope := slope, gen := gen } :: c.segs, gen := gen }
  | none => c

/-- The value of a slewed offset at a DT, in ns (R246). -/
def Delta.at (d : Delta) (slewMax dt : Nat) : Rat :=
  let room : Rat := ((dt - d.since : Nat) : Rat) / 64 * slewMax / 1000000000
  d.start + clampRat (-room) room (d.target - d.start)

/-- δ of Galileo 0, BeiDou 1, GLONASS 2, UTC 3, in 2⁻³² ns; 0 before its first determination. -/
def Clock.delta (c : Clock) (i dt : Nat) : Int :=
  match (c.deltas[i]?).join with
  | some d => floorRat (d.at c.cfg.inForce.slewMax dt * 4294967296)
  | none => 0

/-- LEAP at a DT: decoded, or else that of QDP (R230); none until then. -/
def Clock.leapAt (c : Clock) (dt : Nat) : Option Nat := ((c.leaps.find? fun x => decide (x.1 ≤ dt)).map (·.2)).orElse fun _ => c.qdpLeap

def seconds (n : Int) : Int := n * 1000000000 * nsUnit

/-- GPS time to a scale's value (Table 10.1); none while the scale is not available (R245). -/
def Clock.scaleOf (c : Clock) (scale dt : Nat) (t : Int) : Option Int :=
  match scale with
  | 0 => some t
  | 1 => some (t + c.delta 0 dt)
  | 2 => some (t - seconds 14 + c.delta 1 dt)
  | 3 => (c.leapAt dt).map fun l => t - seconds l + seconds 10800 + c.delta 2 dt
  | 4 => (c.leapAt dt).map fun l => t - seconds l + c.delta 3 dt
  | _ => (c.leapAt dt).map fun _ => t + seconds 19 + c.delta 3 dt

/-- Reported time in a scale at a DT. -/
def Clock.scaleTime (c : Clock) (scale dt : Nat) : Option Int := (c.time dt).bind (c.scaleOf scale dt)

/-! ### Validity and uncertainty (R251) -/

/-- The state whose quality holds: that of the state STEP_PENDING came from. -/
def Clock.effective (c : Clock) : Nat := if c.state = 4 then c.from_ else c.state

/-- TIME_VALID (Table 10.4). -/
def Clock.valid (c : Clock) : Bool := c.effective == 1 || c.effective == 2 || c.effective == 3

/-- Quality: 0 QUALIFIED, 1 HOLDOVER, 2 UNQUALIFIED. -/
def Clock.quality (c : Clock) : Nat :=
  match c.effective with
  | 1 => 0
  | 3 => if absRat c.e ≤ c.cfg.inForce.stepThr then 0 else 1
  | 2 => 1
  | _ => 2

/-- QDP CLASS (Table 10.4). -/
def Clock.qdpClass (c : Clock) : Nat :=
  match c.effective with
  | 1 | 3 => 0
  | 2 => 1
  | 5 => 2
  | _ => 3

/-- Elapsed holdover in ns, from the last epoch with a valid source. -/
def Clock.elapsed (c : Clock) (dt : Nat) : Rat := ((dt - c.lastValid : Nat) : Rat) / 64

/-- UNC at a DT in ns; none: unbounded. -/
def Clock.unc (c : Clock) (dt : Nat) : Option Rat :=
  match c.effective with
  | 0 => none
  | 1 | 3 => some c.uncH
  | _ => let d := c.elapsed dt; some (c.uncH + absRat c.sigmaY * d + absRat c.aging * d * d / 2)

/-- An UNC field (R251). -/
def Clock.uncField (c : Clock) (dt : Nat) : Nat := ((c.unc dt).map fun u => sat32 (roundRat u).toNat).getD 0xFFFFFFFF

/-! ### Sources and the servo (R242, R247) -/

def ppb (n : Nat) : Rat := (n : Rat) / 1000000000

/-- The servo slope of LOCKED and SLEW (R242): e in ns over SERVO_TAU in s. -/
def servoSlope (c : TimeCfg) (f : SourceFix) : Rat := -f.y - clampRat (-(ppb c.slewMax)) (ppb c.slewMax) (f.e / c.servoTau / 1000000000)

/-- Mean rate of change of e over accepted PPSIN edges, in ns per ns, and the rms of the residuals of the line through the mean e. -/
def ppsFit (es : List (Nat × Rat)) : Rat × Rat :=
  match es, es.getLast? with
  | (d1, e1) :: _ :: _, some (d0, e0) =>
    let r := (e1 - e0) / (((d1 - d0 : Nat) : Rat) / 64)
    let n : Rat := es.length
    let me := (es.map (·.2)).foldl (· + ·) 0 / n
    let md := (es.map fun x => ((x.1 : Nat) : Rat) / 64).foldl (· + ·) 0 / n
    let ss := (es.map fun x => let v := x.2 - me - r * (((x.1 : Nat) : Rat) / 64 - md); v * v).foldl (· + ·) 0
    (r, Config.fn .sqrt (ss / n))
  | _, _ => (0, 0)

/-- The nearest whole second of a GPS time in 2⁻³² ns. -/
def nearestSecond (t : Int) : Int := roundDiv t (1000000000 * 4294967296) * 1000000000 * nsUnit

/-- PPSIN as a source at an epoch (Table 10.2): edges at the last three whole seconds, each within 1 µs of 1 s after the one before. -/
def Clock.ppsFix (c : Clock) (te : Nat) : Option SourceFix :=
  let es := c.pps.filter fun x => decide (x.1 ≤ te)
  match es with
  | (d2, e2) :: (d1, e1) :: (d0, e0) :: _ =>
    let near (a b : Nat) : Bool := decide (absRat (((a - b : Nat) : Rat) / 64 - 1000000000) ≤ 1000)
    let recent := decide (te < d2 + 64000000000 + 64000)
    if c.state ≠ 0 ∧ near d2 d1 ∧ near d1 d0 ∧ recent then
      let _ := (e0, e1)
      let (r, rms) := ppsFit (es.take 10)
      some { e := e2, y := c.y + r, sigma := 1 + rms }
    else none
  | _ => none

/-- The highest-priority source that is valid and enabled: its code and what it gives (Table 10.2). -/
def Clock.pick (c : Clock) (te : Nat) (gnss ptp0 ptp1 : Option SourceFix) : Option (Nat × SourceFix) :=
  let en (b : Nat) (f : Option SourceFix) : Option SourceFix := if bitOf c.cfg.inForce.sources b then f else none
  match en 0 gnss, en 1 ptp0, en 1 ptp1, en 2 (c.ppsFix te) with
  | some f, _, _, _ => some (1, f)
  | none, some f, _, _ => some (2, f)
  | none, none, some f, _ => some (3, f)
  | none, none, none, some f => some (4, f)
  | none, none, none, none => none

/-! ### State changes (R248, R249) -/

/-- TIME_STATE: sent on every state change (R248, R262). -/
def State.timeState (s : State) (prev : Nat) : State :=
  let c := s.clock
  if c.state = prev then s
  else s.notify 0x8911 (s.beatBytes ++ u8 c.state ++ u8 prev ++ u8 c.source ++ rsv 1 ++ u16 c.gen ++ rsv 2 ++ u32 (c.uncField s.now))

/-- TIME_STEP (R262). DEDUCED (log 22). -/
def State.timeStep (s : State) (dt : Nat) (ps : Int) (kind scale : Nat) : State :=
  s.notify 0x8910 (u64 (dt % 2 ^ 64) ++ i64 ps ++ u16 s.clock.gen ++ u8 kind ++ rsv 1 ++ u8 scale ++ rsv 3)

/-- The first whole second of reported GPS time that begins at least 200 ms from now (R249), in ns. -/
def Clock.stepSecond (c : Clock) (now : Nat) : Nat :=
  match c.seg now with
  | some g =>
    let t := g.time (now + 12800000)
    (ceilRat ((t : Rat) / (1000000000 * 4294967296))).toNat * 1000000000
  | none => 0

/-- Enter STEP_PENDING (R249). -/
def Clock.toStep (c : Clock) (now : Nat) (f : SourceFix) : Clock :=
  { c with from_ := c.state, state := 4, step := some (c.stepSecond now), next := some (.slope (-f.y)), good := 0, big := 0 }

/-- The loss of every source (R242, R248): the holdover slope with the estimates of the last valid epoch. -/
def Clock.lose (c : Clock) : Clock := { c with state := 2, yh := c.y, good := 0, big := 0, changed := false, source := 0 }

/-- The holdover slope at an epoch (R242). -/
def Clock.holdSlope (c : Clock) (te : Nat) : Rat := -(c.yh + c.aging * c.elapsed te)

/-- A valid epoch in LOCKED or SLEW feeds the servo. -/
def Clock.use (c : Clock) (te : Nat) (f : SourceFix) : Clock :=
  { c with e := f.e, y := f.y, lastValid := te, uncH := f.sigma + absRat f.e, next := some (.slope (servoSlope c.cfg.inForce f)) }

/-- HOLDOVER has passed HOLD_LIMIT or HOLD_UNC at an epoch (Table 10.3). DEDUCED (log 22). -/
def Clock.pastLimit (c : Clock) (te : Nat) : Bool :=
  let k := c.cfg.inForce
  decide ((k.holdLimit * 1000000000 : Nat) < c.elapsed te) || (k.holdUnc != 0 && ((c.unc te).map fun u => decide ((k.holdUnc : Rat) < u)).getD false)

/-- The rows of Table 10.3 that decide a return, after `good` consecutive valid epochs. -/
def Clock.return_ (c : Clock) (now te : Nat) (code : Nat) (f : SourceFix) : Clock :=
  let k := c.cfg.inForce
  if c.good + 1 < k.returnEpochs then { c with good := c.good + 1, e := f.e }
  else if absRat f.e ≤ k.stepThr ∨ !k.stepEn then
    { (({ c with state := 3, source := code, good := 0, changed := false } : Clock).use te f) with y := f.y }
  else ({ c with e := f.e, y := f.y, source := code, changed := false } : Clock).toStep now f

/-- One evaluation of Table 10.3 at an epoch, in row order (R248).  `now`: the completion of the computation. -/
def Clock.evaluate (c : Clock) (now te : Nat) (src : Option (Nat × SourceFix)) : Clock :=
  let k := c.cfg.inForce
  match c.state, src with
  | 0, some (code, f) =>
    if code = 4 then c
    else
      let t := floorRat ((((te : Nat) : Rat) / 64 - f.e) * 4294967296)
      { c with next := some (.first te t f.y), source := code, e := f.e, y := f.y, lastValid := te, uncH := f.sigma + absRat f.e }
  | 0, none => c
  | 1, none => let c := c.lose; { c with next := some (.slope (c.holdSlope te)) }
  | 1, some (code, f) =>
    if k.stepThr < absRat f.e then
      if k.returnEpochs ≤ c.big + 1 ∨ code ≠ c.source then
        if k.stepEn then ({ c with e := f.e, y := f.y, source := code, lastValid := te, uncH := f.sigma + absRat f.e } : Clock).toStep now f
        else { (({ c with state := 3, source := code } : Clock).use te f) with big := 0 }
      else { c with big := c.big + 1, lastValid := te, uncH := f.sigma + absRat f.e }
    else { (({ c with source := code } : Clock).use te f) with big := 0 }
  | 2, src =>
    if c.pastLimit te then { c with state := 5, good := if src.isSome then c.good + 1 else 0, next := some (.slope (c.holdSlope te)) }
    else match src with
      | some (code, f) => let c' := c.return_ now te code f; if c'.state = 2 then { c' with next := some (.slope (c.holdSlope te)) } else c'
      | none => { c with good := 0, next := some (.slope (c.holdSlope te)) }
  | 5, some (code, f) => let c' := c.return_ now te code f; if c'.state = 5 then { c' with next := some (.slope (c.holdSlope te)) } else c'
  | 5, none => { c with good := 0, next := some (.slope (c.holdSlope te)) }
  | 3, none => let c := c.lose; { c with next := some (.slope (c.holdSlope te)) }
  | 3, some (code, f) =>
    if code ≠ c.source ∨ c.changed then
      let c := if code ≠ c.source then { c with changed := true, source := code, good := 0 } else c
      let e := c.e
      let c' := c.return_ now te code f
      if c'.changed then { c' with lastValid := te, e := e } else c'
    else
      let c := c.use te f
      if absRat f.e ≤ k.lockTol then { c with state := 1, big := 0 } else c
  | 4, none =>
    let back := c.from_
    let c := { c with state := back, step := none, good := 0 }
    if back = 2 ∨ back = 5 then { c with next := some (.slope (c.holdSlope te)) } else c
  | _, some (code, f) => { c with e := f.e, y := f.y, source := code, next := some (.slope (-f.y)) }
  | _, none => c

/-- Reported time evaluated at an epoch, with its TIME_STATE notice (R248). -/
def State.evalTime (s : State) (te : Nat) (gnss ptp0 ptp1 : Option SourceFix) : State :=
  let c := { s.clock with cfg := s.clock.cfg.latch }
  let c' := c.evaluate s.now te (c.pick te gnss ptp0 ptp1)
  (s.modClock fun _ => c').timeState c.state

/-- The clock model at a beat boundary: a waiting segment starts (R241, R248). -/
def clockBoundary (s : State) : State :=
  let c := s.clock
  let now := s.now
  match c.next with
  | none => s
  | some (.slope r) =>
    s.modClock fun c => { (if (c.seg now).any fun g => decide (g.slope = r) then c else c.newSeg now r 0 c.gen) with next := none }
  | some (.first te t y) =>
    if c.state = 0 then
      let ta := t + floorRat ((((now : Int) - (te : Int) : Int) : Rat) * (1 - y) * 67108864)
      let s := s.modClock fun c => { c with segs := [{ dt := now, t := ta, slope := -y, gen := 1 }], gen := 1, state := 1, next := none, big := 0 }
      (s.timeStep now 0 4 0xFF).timeState 0
    else s.modClock fun c => { c with next := none }

/-- A fractional offset is determined (R246): the first determination is a step of that scale, later ones are slewed. -/
def State.setDelta (s : State) (i : Nat) (v : Rat) : State :=
  let c := s.clock
  match (c.deltas[i]?).join with
  | some d =>
    s.modClock fun c => { c with deltas := modAt c.deltas i fun _ => some { start := d.at c.cfg.inForce.slewMax s.now, since := s.now, target := v } }
  | none =>
    let s := s.modClock fun c => { c with deltas := modAt c.deltas i fun _ => some { start := v, since := s.now, target := v } }
    if c.state = 0 then s
    else
      let s := s.modClock fun c =>
        { c.newSeg s.now (((c.seg s.now).map (·.slope)).getD 0) 0 (nextGen c.gen) with steps := (c.steps + 1) % 65536 }
      s.timeStep s.now (roundRat (v * 1000)) 3 ([1, 2, 3, 4].getD i 4)

/-- UTC parameters decoded (R245, R246): LEAP, δ_UTC, and the GPS instant in ns of a leap second to come with the new LEAP. -/
def State.setUtc (s : State) (leap : Nat) (delta : Rat) (to_ : Option (Nat × Nat)) : State :=
  let s := s.modClock fun c =>
    { c with leaps := if c.leaps.isEmpty then [(s.now, leap)] else c.leaps, leapNext := to_.filter fun x => x.2 != leap }
  s.setDelta 3 delta

end Sys2Proof.Machine
end

