-- ==== Sys2Proof/Machine/TimeIo.lean ====
section
/-! DEFINITION. Time commands, pulses, FOUT, steps and event captures (R248–R262). -/

namespace Sys2Proof.Machine
open Sys2Proof

/-! ### TIME_CONFIG and TIME_STATUS -/

def timeCfgOf (q : Qcp) : TimeCfg :=
  { sources := q.u 0 1 % 8, stepEn := q.u 1 1 == 1, returnEpochs := q.u 2 1, holdLimit := q.u 4 4, holdUnc := q.u 8 4, stepThr := q.u 12 4
    slewMax := q.u 16 2, servoTau := q.u 18 2, lockTol := q.u 20 2, validSig := q.u 22 2 }

def timeConfigCmd : HostCmd :=
  { opcode := 0x0901, len := .fixed 24, priv := 2
    range := fun q _ =>
      [ (0, q.u 0 1 ≤ 7), (1, q.u 1 1 ≤ 1), (2, 1 ≤ q.u 2 1 && q.u 2 1 ≤ 20), (4, 1 ≤ q.u 4 4 && q.u 4 4 ≤ 86400),
        (8, q.u 8 4 == 0 || (10 ≤ q.u 8 4 && q.u 8 4 ≤ 1000000000)), (12, 10 ≤ q.u 12 4 && q.u 12 4 ≤ 1000000000),
        (16, 1 ≤ q.u 16 2 && q.u 16 2 ≤ 1000), (18, 1 ≤ q.u 18 2 && q.u 18 2 ≤ 100),
        (20, 1 ≤ q.u 20 2 && q.u 20 2 ≤ 1000 && q.u 20 2 < q.u 12 4), (22, 1 ≤ q.u 22 2 && q.u 22 2 ≤ 10000) ]
    effect := fun q s => (s.modClock fun c => { c with cfg := c.cfg.commit (timeCfgOf q) }, .ok []) }

def execTimeConfig (q : Qcp) (s : State) : Host.Outcome State Fault Refusal := runHost timeConfigCmd q s

/-- The action mask of the spoofing state (Table 7.5). DEDUCED (log 35). -/
def Spoof.actions (p : Spoof) : Nat := match p.state with
  | 0 => 0
  | 1 => p.cfg.inForce.actWarn
  | _ => p.cfg.inForce.actAlarm

/-- TIME_HOLD is active (R168). -/
def State.timeHold (s : State) : Bool := bitOf s.nav.spoof.actions 4

/-- A signed 32-bit field that saturates. -/
def satI32 (r : Rat) : List Byte := i32 (clampI (-2147483648) 2147483647 (roundRat r))

def timeStatusBytes (s : State) : List Byte :=
  let c := s.clock
  let now := s.now
  u8 c.state ++ u8 c.source ++ u8 c.qdpClass ++ u8 ((c.leapAt now).getD 0) ++ u16 c.gen
  ++ u16 ((if (c.leapAt now).isSome then 1 else 0) + (if s.timeHold then 2 else 0)) ++ leBytes 4 s.nv.epoch.toNat ++ u32 (c.uncField now)
  ++ s.dtBytes ++ u64 (c.gpsNs now) ++ satI32 (c.e * 100) ++ satI32 ((((c.seg now).map (·.slope)).getD 0) * 1000000000000)
  ++ u32 (if c.effective = 2 ∨ c.effective = 5 then (floorRat (c.elapsed now / 1000000000)).toNat else 0) ++ u16 c.steps ++ rsv 2
  ++ (s.timeSys.tps.map fun t => u32 t.omitted).flatten

def timeStatusCmd : HostCmd :=
  { opcode := 0x0902, len := .fixed 0, priv := 0, effect := fun _ s => (s, .ok (timeStatusBytes s)) }

def execTimeStatus (q : Qcp) (s : State) : Host.Outcome State Fault Refusal := runHost timeStatusCmd q s

/-! ### TP outputs (R252–R256) -/

def State.tp (s : State) (n : Nat) : TpOut := (s.timeSys.tps[n]?).getD TpOut.reset
def State.modTp (s : State) (n : Nat) (f : TpOut → TpOut) : State :=
  { s with timeSys := { s.timeSys with tps := modAt s.timeSys.tps n f } }
def State.modFout (s : State) (f : FoutOut → FoutOut) : State := { s with timeSys := { s.timeSys with fout := f s.timeSys.fout } }

def tpConfigCmd : HostCmd :=
  { opcode := 0x0910, len := .fixed 20, priv := 1
    range := fun q _ =>
      [ (0, q.u 0 1 ≤ 3), (1, q.u 1 1 ≤ 1), (2, q.u 2 1 ≤ 5), (3, q.u 3 1 ≤ 5), (4, q.u 4 1 ≤ 15), (8, 1 ≤ q.u 8 4 && q.u 8 4 ≤ 100000),
        (16, -500000000 ≤ q.i 16 4 && q.i 16 4 ≤ 500000000) ]
    state := fun q s =>
      let t := s.tp (q.u 0 1)
      [!t.enable || (t.scale == q.u 2 1 && t.period == q.u 3 1 && t.offset == q.i 16 4)]
    effect := fun q s =>
      let p : TpPulse := { policy := q.u 4 1, width := q.u 8 4, cable := q.i 12 4 }
      (s.modTp (q.u 0 1) fun t =>
        let on := q.u 1 1 == 1
        { t with enable := on, scale := q.u 2 1, period := q.u 3 1, offset := q.i 16 4
                 pulse := if t.enable && on then t.pulse.commit p else .at p
                 enabledAt := if on && !t.enable then s.now else t.enabledAt, pulseEnd := if on then t.pulseEnd else none }, .ok []) }

def execTpConfig (q : Qcp) (s : State) : Host.Outcome State Fault Refusal := runHost tpConfigCmd q s

/-- PERIOD in seconds. -/
def tpPeriod (code : Nat) : Nat := ([1, 2, 5, 10, 30, 60][code]?).getD 1

/-- Units of DT in 500 ms. -/
def halfSecond : Nat := 32000000000

/-- Units of DT of a 500 ms spacing apart (R254). -/
def tooClose (last : Option Nat) (edge : Int) : Bool :=
  (last.map fun l => decide ((edge - (l : Int)).natAbs < halfSecond)).getD false

/-- The pin DT of an edge: a multiple of 16 units (R252). DESIGN CHOICE (log 21). -/
def placeEdge (dt : Int) : Int :=
  if dt % 16 = 0 then dt else dt / 16 * 16 + (if Config.edgeUp dt.toNat then 16 else 0)

/-- The scale an output follows: GPS while its own is not available (R252). -/
def gridScale (c : Clock) (scale dt : Nat) : Nat := if (c.scaleTime scale dt).isSome then scale else 0

/-- The time T of a grid of a given step, in 2⁻³² ns, that is first reached at a DT under the segment in force there (R252). -/
def gridTime (c : Clock) (scale : Nat) (step off : Int) (dt : Nat) : Option Int :=
  match c.seg dt with
  | none => none
  | some g =>
    match c.scaleOf scale dt (g.time dt), c.scaleOf scale dt (g.t + floorRat ((((dt : Int) - 1 - (g.dt : Int) : Int) : Rat) * (1 + g.slope) * 67108864)) with
    | some b, some a => let k := (b - off) / step; if (a - off) / step < k then some (k * step + off) else none
    | _, _ => none

/-- The grid instant of an output at a DT: its time T in ns (0 in NO_TIME). -/
def tpGrid (c : Clock) (t : TpOut) (dt : Nat) : Option Nat :=
  if c.state = 0 then (if dt % (tpPeriod t.period * 64000000000) = 0 then some 0 else none)
  else (gridTime c (gridScale c t.scale dt) (seconds (tpPeriod t.period)) (t.offset * nsUnit) dt).map fun x => (x / nsUnit).toNat

/-- Quality of a grid instant: an output on a scale that is not available is UNQUALIFIED (R251, R252). -/
def tpQuality (c : Clock) (scale dt : Nat) : Nat := if c.state ≠ 0 && gridScale c scale dt != scale then 2 else c.quality

/-- An instant lies in the present tick. -/
def State.inTick (s : State) (dt : Int) : Bool := decide ((s.now : Int) ≤ dt) && decide (dt < (dtAt s.time.beat (s.time.tick + 1) : Nat))

/-- TP_MARK (Table 10.6). -/
def State.tpMark (s : State) (n : Nat) (edge : Int) (grid time quality kind : Nat) (same first : Bool) : State :=
  let c := s.clock
  s.notifyF 0x8920 same (u64 ((edge % (2 ^ 64 : Nat)).toNat) ++ u64 time ++ leBytes 4 s.nv.epoch.toNat ++ u32 (c.uncField grid)
    ++ u16 (c.genAt grid) ++ u8 n ++ u8 quality ++ u8 kind ++ u8 ((if same then 1 else 0) + (if first then 2 else 0)) ++ rsv 2)

/-- A grid instant of a TP output whose leading edge lies in the present tick (R252–R256). -/
def execTimePulseEdge (tp grid : Nat) (sameTick : Bool) (s : State) : Host.Outcome State Fault Refusal :=
  let c := s.clock
  let t := { s.tp tp with pulse := (s.tp tp).pulse.latch }
  let edge := placeEdge ((grid : Int) - t.pulse.inForce.cable)
  if !(s.live && s.on 13 && t.enable && decide (tp ≤ 3) && s.inTick edge && decide (t.enabledAt + halfSecond ≤ grid)) then .next s
  else match tpGrid c t grid with
    | none => .next s
    | some time =>
      let p := t.pulse.inForce
      let quality := tpQuality c t.scale grid
      let mark := bitOf p.policy 2
      if tooClose t.lastEdge edge then
        let s := s.modTp tp fun _ => { t with omitted := sat32 (t.omitted + 1) }
        .next (if mark then s.tpMark tp edge grid time quality 1 sameTick false else s)
      else if quality = 2 ∧ bitOf p.policy 0 then
        let s := s.modTp tp fun _ => t
        .next (if mark then s.tpMark tp edge grid time quality 2 sameTick false else s)
      else
        let k := if bitOf p.policy 1 then quality + 1 else 1
        let first := t.markGen != some (c.genAt grid)
        let s := s.modTp tp fun _ =>
          { t with lastEdge := some edge.toNat, pulseEnd := some (edge.toNat + p.width * 64000 * k)
                   markGen := if mark then some (c.genAt grid) else t.markGen }
        .next (if mark then s.tpMark tp edge grid time quality 0 sameTick first else s)

/-- The level of a TP pin (R252, R255). -/
def State.tpLevel (s : State) (n : Nat) : Bool :=
  let t := s.tp n
  let active := (t.pulseEnd.map fun e => decide (s.now < e)).getD false
  s.on 13 && t.enable && (active != bitOf t.pulse.inForce.policy 3) || (s.on 13 && !t.enable && bitOf t.pulse.inForce.policy 3)

/-! ### FOUT (R257) -/

def foutConfigCmd : HostCmd :=
  { opcode := 0x0911, len := .fixed 12, priv := 1
    range := fun q _ => [(0, q.u 0 1 ≤ 1), (1, q.u 1 1 ≤ 5), (2, q.u 2 1 ≤ 1), (4, 1 ≤ q.u 4 4 && q.u 4 4 ≤ 50000000)]
    state := fun q s => let f := s.timeSys.fout; [!f.enable || (f.scale == q.u 1 1 && f.freq == q.u 4 4)]
    effect := fun q s =>
      (s.modFout fun f =>
        let on := q.u 0 1 == 1
        let p := (q.u 2 1 == 1, q.i 8 4)
        { f with enable := on, scale := q.u 1 1, freq := q.u 4 4, pulse := if f.enable && on then f.pulse.commit p else .at p
                 level := if on then f.level else false, waiting := if on && !f.enable then true else f.waiting
                 lastEdge := if on && f.enable then f.lastEdge else none }, .ok []) }

def execFoutConfig (q : Qcp) (s : State) : Host.Outcome State Fault Refusal := runHost foutConfigCmd q s

/-- The half-period index of FOUT that is first reached at a DT: even: rising. -/
def foutGrid (c : Clock) (f : FoutOut) (dt : Nat) : Option Int :=
  let idx (t : Int) : Int := t * (2 * f.freq : Nat) / seconds 1
  if c.state = 0 then
    let a := (((dt : Int) - 1) * (2 * f.freq : Nat)) / 64000000000
    let b := ((dt : Int) * (2 * f.freq : Nat)) / 64000000000
    if a < b then some b else none
  else match c.seg dt with
    | none => none
    | some g =>
      let sc := gridScale c f.scale dt
      match c.scaleOf sc dt (g.time dt), c.scaleOf sc dt (g.t + floorRat ((((dt : Int) - 1 - (g.dt : Int) : Int) : Rat) * (1 + g.slope) * 67108864)) with
      | some b, some a => if idx a < idx b then some (idx b) else none
      | _, _ => none

/-- An edge of FOUT: rising on even half periods; after a step the level holds until half a nominal period has passed (R257). -/
def execFoutEdge (grid : Nat) (s : State) : Host.Outcome State Fault Refusal :=
  let c := s.clock
  let f := { s.timeSys.fout with pulse := s.timeSys.fout.pulse.latch }
  let edge := placeEdge ((grid : Int) - f.pulse.inForce.2)
  if !(s.live && s.on 13 && f.enable && s.inTick edge) then .next s
  else match foutGrid c f grid with
    | none => .next s
    | some k =>
      if f.waiting ∧ k % (2 * f.freq : Nat) ≠ 0 then .next s
      else if f.pulse.inForce.1 ∧ c.effective = 5 then .next (s.modFout fun _ => { f with level := false, waiting := false })
      else
        let room := (f.lastEdge.map fun l => decide (64000000000 ≤ (edge - (l : Int) + 16) * (2 * f.freq : Nat))).getD true
        if room then .next (s.modFout fun _ => { f with level := decide (k % 2 = 0), lastEdge := some edge.toNat, waiting := false })
        else .next s

/-! ### Steps (R246, R249) -/

/-- Frames that the device queued for launch are withdrawn at a step (R272): complete their entries WITHDRAWN. -/
def EthPort.withdraw (now : Nat) (p : EthPort) : EthPort :=
  let own := p.launches.filter (·.own)
  { p with launches := p.launches.filter fun f => !f.own, launchDrop := sat32 (p.launchDrop + own.length)
           entries := p.entries.map fun e => if own.any fun f => f.id == some e.id then { e with done := some (3, 0, false, now) } else e }

/-- The step instant (R249): the whole second that STEP_PENDING fixed lies in the present tick. -/
def execStepInstant (s : State) : Host.Outcome State Fault Refusal :=
  let c := s.clock
  match c.step, c.seg s.now with
  | some sec, some g =>
    let at_ := g.dtOf (seconds 0 + (sec : Int) * nsUnit)
    if c.state = 4 ∧ s.on 13 ∧ at_ < (dtAt s.time.beat (s.time.tick + 1) : Nat) then
      let dt := at_.toNat
      let kind := if (c.from_ = 1 ∨ c.from_ = 3) ∧ (c.source = 2 ∨ c.source = 3) then 2 else 0
      let s := s.modClock fun c =>
        { c.newSeg dt (-c.y) (-(roundRat (c.e * 4294967296))) (nextGen c.gen) with
          state := 1, step := none, next := none, e := 0, steps := (c.steps + 1) % 65536, big := 0, lastValid := s.now }
      let s := { s with eth := s.eth.map (EthPort.withdraw s.now) }
      .next ((s.timeStep dt (-(roundRat (c.e * 1000))) kind 0xFF).timeState 4)
    else .next s
  | _, _ => .next s

/-- A leap second takes effect (R246): UTC and GLONASS counts step and GEN increments. DEDUCED (log 22). -/
def execLeapSecond (s : State) : Host.Outcome State Fault Refusal :=
  let c := s.clock
  match c.leapNext, c.seg s.now with
  | some (at_, leap), some g =>
    let dt := g.dtOf ((at_ : Int) * nsUnit)
    if s.on 13 ∧ dt < (dtAt s.time.beat (s.time.tick + 1) : Nat) then
      let d := dt.toNat
      let old := ((c.leapAt s.now).getD leap : Nat)
      let s := s.modClock fun c =>
        { c.newSeg d g.slope 0 (nextGen c.gen) with leaps := (d, leap) :: c.leaps, leapNext := none, steps := (c.steps + 1) % 65536 }
      let (s, v) := s.openVal 30
      .next (s.timeStep d (((old : Int) - (leap : Int)) * 1000000000000) 1 (v % 256))
    else .next s
  | _, _ => .next s

/-- Holdover past HOLD_LIMIT or HOLD_UNC (Table 10.3). DEDUCED (log 22). -/
def execHoldoverLimit (s : State) : Host.Outcome State Fault Refusal :=
  let c := s.clock
  if c.state = 2 ∧ c.pastLimit s.now then .next ((s.modClock fun c => { c with state := 5 }).timeState 2) else .next s

/-- In WATCH the command core evaluates reported time once per second (R455): only PPSIN can be valid. -/
def execWatchTimeEval (s : State) : Host.Outcome State Fault Refusal :=
  if s.live ∧ s.power.state = .watch ∧ s.on 13 then .next (s.evalTime s.now none none none) else .next s

/-! ### Event captures (R258, R259) -/

def State.ev (s : State) (n : Nat) : EvInput := (s.timeSys.evs[n]?).getD EvInput.reset
def State.modEv (s : State) (n : Nat) (f : EvInput → EvInput) : State :=
  { s with timeSys := { s.timeSys with evs := modAt s.timeSys.evs n f } }

def evConfigCmd : HostCmd :=
  { opcode := 0x0920, len := .fixed 12, priv := 1
    range := fun q _ => [(0, q.u 0 1 ≤ 8), (1, q.u 1 1 ≤ 3), (2, q.u 2 1 ≤ 1), (3, q.u 3 1 ≤ 1), (4, 1 ≤ q.u 4 2 && q.u 4 2 ≤ 1000)]
    state := fun q s => let e := s.ev (q.u 0 1); [e.owner == q.u 2 1 || e.edge == 0 || q.u 1 1 == 0]
    effect := fun q s =>
      (s.modEv (q.u 0 1) fun e =>
        { e with edge := q.u 1 1, owner := q.u 2 1, notify := q.u 3 1 == 1, minWidth := q.u 4 2, cable := q.i 8 4 }, .ok []) }

def execEvConfig (q : Qcp) (s : State) : Host.Outcome State Fault Refusal := runHost evConfigCmd q s

/-- The 32 bytes of an event record (Table 10.9). -/
def EvRec.bytes (r : EvRec) : List Byte :=
  u32 r.seq ++ u8 r.input ++ u8 r.flags ++ u16 r.gen ++ leBytes 8 r.dt.toNat ++ leBytes 4 r.epoch.toNat ++ u32 r.unc ++ u64 r.time

def evReadCmd : HostCmd :=
  { opcode := 0x0921, len := .fixed 8, priv := 0
    range := fun q _ => [(0, q.u 0 1 ≤ 8), (1, 1 ≤ q.u 1 1 && q.u 1 1 ≤ 64)]
    effect := fun q s =>
      let rs := ((s.ev (q.u 0 1)).ring.filter fun r => decide (q.u 4 4 ≤ r.seq)).take (q.u 1 1)
      (s, .ok (u8 rs.length ++ rsv 3 ++ (rs.map EvRec.bytes).flatten)) }

def execEvRead (q : Qcp) (s : State) : Host.Outcome State Fault Refusal := runHost evReadCmd q s

/-- A record enters the customer core's FIFO (R396). -/
def UcBlock.evcPush (u : UcBlock) (r : EvRec) : UcBlock :=
  if u.evc.length < 16 then { u with evc := u.evc ++ [{ r with flags := r.flags ||| (if u.evcMark then 8 else 0) }.bytes], evcMark := false }
  else { u with evcOvf := true, evcMark := true, evcDropped := u.evcDropped + 1 }

/-- EDGE selects the polarity. -/
def EvInput.selects (e : EvInput) (rising : Bool) : Bool := bitOf e.edge (if rising then 0 else 1)

/-- An accepted edge on a capture input: pin DT of the transition (R258). -/
def capture (n : Nat) (rising : Bool) (pin : Nat) (same : Bool) (s : State) : State :=
  let e := s.ev n
  if !e.selects rising then s
  else if e.beat = s.time.beat ∧ 8 ≤ e.count then s.modEv n fun e => { e with dropped := true }
  else
    let c := s.clock
    let at_ : Int := (pin : Int) - e.cable
    let dt := at_.toNat
    let valid := c.valid
    let r : EvRec :=
      { seq := e.seq, input := n, gen := c.genAt dt, dt := BitVec.ofInt 64 at_, epoch := s.nv.epoch, unc := c.uncField dt
        time := if c.state = 0 then 0 else c.gpsNs dt
        flags := (if rising then 1 else 0) + (if same then 2 else 0) + (if valid then 4 else 0) + (if e.dropped then 8 else 0) }
    let s := if n = 8 ∧ bitOf c.cfg.inForce.sources 2 ∧ c.state ≠ 0 then
        match c.time dt with
        | some t => s.modClock fun c => { c with pps := ((dt, ((t - nearestSecond t : Int) : Rat) / 4294967296) :: c.pps).take 16 }
        | none => s
      else s
    let s := s.modEv n fun e =>
      { e with seq := (e.seq + 1) % 2 ^ 32, beat := s.time.beat, count := if e.beat = s.time.beat then e.count + 1 else 1, dropped := false
               ring := if e.owner = 0 then pushCap 64 e.ring r else e.ring }
    if e.owner = 0 then (if e.notify then s.notifyF 0x8930 same r.bytes else s)
    else { s with uc := s.uc.evcPush r }

end Sys2Proof.Machine
end

