-- ==== Sys2Proof/Machine/Fabric.lean ====
section
/-! DEFINITION. The correlation fabric: descriptors, commands, correlation, dump rings, the lane plan and the latch (R92–R121). -/

namespace Sys2Proof.Machine
open Sys2Proof

/-! ### Descriptors (Table 5.3) -/

/-- A tap word as stored: its reserved bits read 0 (R5, Tables 5.4 and 5.5). -/
def tapStored (t w : Nat) : BitVec 16 := BitVec.ofNat 16 w &&& (if t < 10 then 0xC1FF else 0xFFFF)

/-- The descriptor and phases of 64 bytes. -/
def claimOf (p : List Byte) : Claim :=
  { desc := { signal := fieldU p 0 1, sat := fieldU p 1 1, subband := fieldU p 2 1, state := fieldU p 3 1, tint := fieldU p 4 1
              ctrl := BitVec.ofNat 8 (fieldU p 5 1 % 128), epochMod := fieldU p 6 1, carrWord := fieldI p 8 8, codeWord := fieldU p 16 8
              secIndex := fieldU p 40 2, taps := (List.range 11).map fun t => tapStored t (fieldU p (42 + 2 * t) 2) }
    carr := fieldU p 24 8, code := fieldU p 32 8 }

/-- A tap accumulates, and its component. -/
def tapOn (w : BitVec 16) : Bool := w.getLsbD 15
def tapPilot (w : BitVec 16) : Bool := w.getLsbD 14

/-- OFFSET of T0–T9 in 1/64 chip (Table 5.4); NOISE of T10 in chips (Table 5.5). DEDUCED (log 29). -/
def tapOffset (w : BitVec 16) : Int := let v := w.toNat % 512; if v < 256 then (v : Int) else (v : Int) - 512
def tapNoise (w : BitVec 16) : Nat := w.toNat % 16384

/-- The tap word is in range and names a component the signal has (R101–R103). -/
def tapOk (g : Sig) (t : Nat) (w : BitVec 16) : Bool :=
  (!tapOn w || (if tapPilot w then g.pilot else g.hasData)) &&
    (if t < 10 then decide (-128 ≤ tapOffset w ∧ tapOffset w ≤ 192) else decide (8 ≤ tapNoise w ∧ tapNoise w ≤ min (g.length - 8) 16383))

/-- TINT is a multiple of P; 40, 50 and 100 ms only on a pilot whose secondary code is wiped or absent (R101). -/
def tintOk (g : Sig) (d : Desc) : Bool :=
  decide (d.tint ≤ 8) && tintMs d.tint % g.period == 0 &&
    (decide (d.tint ≤ 5) || ((d.taps.all fun w => !tapOn w || tapPilot w) && (g.secP == 0 || d.ctrl.getLsbD 3)))

/-- The checks of R101 on TINT and the taps, with the offsets at which a command reports them. -/
def tintTapRange (g : Sig) (d : Desc) (tintOff tapOff : Int) : List (Int × Bool) :=
  (tintOff, tintOk g d) :: (List.range 11).map fun t => (tapOff + (2 * t : Nat), tapOk g t ((d.taps[t]?).getD 0))

/-- The acceptance checks of a descriptor (R101), at offset + `o`. -/
def descRange (s : State) (c : Claim) (o : Int) : List (Int × Bool) :=
  let d := c.desc
  let sb := (s.subband d.subband).cfg.committed
  let fsb := fSb sb.rate
  [ (o, s.signalKnown d.signal && (!isUser d.signal || (s.sig d.signal d.sat).isSome)), (o + 1, satOk d.signal d.sat),
    (o + 2, d.subband ≤ 31 && sb.enable), (o + 3, d.state == 1) ]
  ++ match s.sig d.signal d.sat with
    | none => []
    | some g =>
      [ (o + 4, tintOk g d), (o + 6, d.epochMod < tintMs d.tint / g.period), (o + 8, carrWordOk g fsb d.carrWord),
        (o + 16, codeWordOk g fsb d.codeWord), (o + 24, c.carr < 2 ^ 32), (o + 32, c.code / 2 ^ 32 < g.length),
        (o + 40, if g.secLen = 0 then d.secIndex == 0 else d.secIndex < g.secLen) ]
      ++ (tintTapRange g d (o + 4) (o + 42)).drop 1

/-! ### Commands (R120, R121, R118) -/

def chanStartCmd : HostCmd :=
  { opcode := 0x0510, len := .fixed 68, priv := 1
    range := fun q s => (0, q.u 0 2 ≤ 2047) :: descRange s (claimOf (q.payload.drop 4)) 4
    state := fun q s => [(s.chan (q.u 0 2)).idle, (s.chan (q.u 0 2)).claim.isNone]
    late := fun q s =>
      let cost := fSb (s.subband (q.u 6 1)).cfg.committed.rate / 1000
      if s.admits true cost then none else some (.budget s.admitted (s.claimLimit true) cost)
    effect := fun q s =>
      let c := claimOf (q.payload.drop 4)
      let cost := fSb (s.subband c.desc.subband).cfg.committed.rate / 1000
      (s.modChan (q.u 0 2) fun k => { k with claim := some c, cost := cost, stop := false }, .ok []) }

def execChanStart (q : Qcp) (s : State) : Host.Outcome State Fault Refusal := runHost chanStartCmd q s

/-- Ask for IDLE at the next boundary (R115); a channel already IDLE and unreserved is unchanged. -/
def stopChan (s : State) (n : Nat) : State :=
  let c := s.chan n
  if c.idle && c.claim.isNone then s else s.setChan n { c with stop := true }

def chanRangeCheck (q : Qcp) (hi : Nat) : List (Int × Bool) :=
  [(0, q.u 0 2 ≤ 2047), (2, 1 ≤ q.u 2 2 && q.u 2 2 ≤ hi && q.u 0 2 + q.u 2 2 ≤ 2048)]

def chanStopCmd : HostCmd :=
  { opcode := 0x0511, len := .fixed 4, priv := 1, range := fun q _ => chanRangeCheck q 2048
    effect := fun q s => ((List.range (q.u 2 2)).foldl (fun s i => stopChan s (q.u 0 2 + i)) s, .ok []) }

def execChanStop (q : Qcp) (s : State) : Host.Outcome State Fault Refusal := runHost chanStopCmd q s

/-- The code phase lies on an epoch. -/
def Nco.atEpoch (n : Nco) (g : Sig) : Bool := n.code % (g.epoch * 2 ^ 48) == 0

/-- The 64 bytes of a descriptor as read (R100): the active set, with the phases at the latest boundary. DEDUCED (log 29). -/
def descBytes (d : Desc) (n : Nco) : List Byte :=
  u8 d.signal ++ u8 d.sat ++ u8 d.subband ++ u8 d.state ++ u8 d.tint ++ leBytes 1 d.ctrl.toNat ++ u8 d.epochMod ++ rsv 1
  ++ i64 d.carrWord ++ u64 d.codeWord ++ u32 (n.carr / 65536) ++ u32 n.cycles ++ u64 (n.code / 65536) ++ u16 d.secIndex
  ++ (d.taps.map fun w => leBytes 2 w.toNat).flatten

/-- DEDUCED (log 29). -/
def chanReadCmd : HostCmd :=
  { opcode := 0x0512, len := .fixed 4, priv := 0, range := fun q _ => chanRangeCheck q 63
    effect := fun q s =>
      (s, .ok (((List.range (q.u 2 2)).map fun i =>
        let c := s.chan (q.u 0 2 + i)
        descBytes c.act c.nco).flatten)) }

def execChanRead (q : Qcp) (s : State) : Host.Outcome State Fault Refusal := runHost chanReadCmd q s

/-- The descriptor that the last values committed make (R39). -/
def Chan.committed (c : Chan) : Desc :=
  let h := c.shadow
  { c.act with tint := h.tint.getD c.act.tint, ctrl := h.ctrl.getD c.act.ctrl
               taps := c.act.taps.zipWith (fun a o => o.getD a) h.taps }

/-- The committed descriptor with the fields that a CHAN_MODIFY names. -/
def modified (q : Qcp) (d : Desc) : Desc :=
  let m := q.u 2 2
  { d with tint := if bitOf m 0 then q.u 4 1 else d.tint, ctrl := if bitOf m 1 then BitVec.ofNat 8 (q.u 5 1 % 128) else d.ctrl
           taps := d.taps.zipIdx.map fun w => if bitOf m (2 + w.2) then tapStored w.2 (q.u (6 + 2 * w.2) 2) else w.1 }

def chanModifyCmd : HostCmd :=
  { opcode := 0x0513, len := .fixed 28, priv := 1
    range := fun q s =>
      let c := s.chan (q.u 0 2)
      ([(0, q.u 0 2 ≤ 2047), (2, q.u 2 2 < 8192)] : List (Int × Bool))
      ++ match s.sig c.act.signal c.act.sat with
        | some g => if c.idle then [] else tintTapRange g (modified q c.committed) 4 6
        | none => []
    state := fun q s => [!(s.chan (q.u 0 2)).idle]
    effect := fun q s =>
      let m := q.u 2 2
      (s.modChan (q.u 0 2) fun c =>
        let d := modified q c.committed
        { c with shadow := { c.shadow with
            tint := if bitOf m 0 then some d.tint else c.shadow.tint, ctrl := if bitOf m 1 then some d.ctrl else c.shadow.ctrl
            taps := (c.shadow.taps.zip d.taps).zipIdx.map fun w => if bitOf m (2 + w.2) then some w.1.2 else w.1.1 } }, .ok []) }

def execChanModify (q : Qcp) (s : State) : Host.Outcome State Fault Refusal := runHost chanModifyCmd q s

def slotSize : Nat := 11328

/-- Banks of the dump rings at a depth (R110). -/
def dumpBanks (depth : Nat) : Nat := (32 * depth * slotSize + bankBytes - 1) / bankBytes

/-- The banks are free for the dump rings, which may already hold some of them. -/
def dumpBanksOk (s : State) (first depth : Nat) : Bool :=
  decide (first + dumpBanks depth ≤ 128) && (List.range (dumpBanks depth)).all fun i =>
    let b := s.bank (first + i)
    (b.ownerA == 0xFF && b.ownerB == 0xFF && !b.interleaved) || decide (b.use = .dumpRing)

/-- FABRIC_CFG moves the dump rings. -/
def dumpMoves (q : Qcp) (s : State) : Bool :=
  !s.fabric.placed || q.u 0 1 != s.fabric.dumpFirst || q.u 1 1 != s.fabric.dumpDepth

def fabricCfgCmd : HostCmd :=
  { opcode := 0x0501, len := .fixed 8, priv := 2
    range := fun q _ => [(0, q.u 0 1 ≤ 127), (1, 2 ≤ q.u 1 1 && q.u 1 1 ≤ 16), (4, q.u 4 4 ≤ 4000000)]
    state := fun q s => [!dumpMoves q s || (s.allIdle && dumpBanksOk s (q.u 0 1) (q.u 1 1))]
    effect := fun q s =>
      let s :=
        if dumpMoves q s then
          let s := if s.fabric.placed then s.freeBanks s.fabric.dumpFirst (dumpBanks s.fabric.dumpDepth) else s
          s.giveBanks (q.u 0 1) (dumpBanks (q.u 1 1)) 0x08 .dumpRing
        else s
      ({ s with fabric := { s.fabric with dumpFirst := q.u 0 1, dumpDepth := q.u 1 1, placed := true, admitReserve := q.u 4 4 } }, .ok []) }

def execFabricCfg (q : Qcp) (s : State) : Host.Outcome State Fault Refusal := runHost fabricCfgCmd q s

/-- Lanes of the domains that are on: PD5 holds 0–7, PD6 holds 8–15. DEDUCED (log 30). -/
def State.lanes (s : State) : List Nat := (List.range 16).filter fun l => if l < 8 then s.on 5 else s.on 6

/-- DEDUCED (log 30). -/
def fabricStatusCmd : HostCmd :=
  { opcode := 0x0502, len := .fixed 0, priv := 0
    effect := fun _ s =>
      (s, .ok (u32 s.admitted ++ u32 s.admitLimit ++ u32 s.fabric.admitReserve
        ++ u16 ((if s.on 5 then 0xFF else 0) + (if s.on 6 then 0xFF00 else 0))
        ++ u16 (s.fabric.chans.countP fun c => !c.2.idle) ++ (s.fabric.laneWork.map u32).flatten ++ u32 s.fabric.clamps)) }

def execFabricStatus (q : Qcp) (s : State) : Host.Outcome State Fault Refusal := runHost fabricStatusCmd q s

/-- Bytes that a code occupies in the code store (R99). -/
def codeRows (bits : Nat) : Nat := (bits + 511) / 512 * 64

def unpackBits (n : Nat) (p : List Byte) : List Bool := (List.range n).map fun i => ((p[i / 8]?).getD 0).getLsbD (i % 8)

/-- The component of a CODE_LOAD (Table 5.10). -/
def userCodeOf (q : Qcp) : UserCode :=
  let n := q.u 16 4
  { signal := q.u 0 1, sat := q.u 1 1, comp := q.u 2 1, boc := q.u 3 1 == 1, carrier := q.u 4 8, chipRate := q.u 12 4, length := n
    period := q.u 20 1, chips := unpackBits n (q.payload.drop 24), sec := unpackBits (q.u 22 2) (q.payload.drop (24 + (n + 7) / 8)) }

def sameComponent (a b : UserCode) : Bool := a.signal == b.signal && a.sat == b.sat && a.comp == b.comp

def codeLoadLen : LenRule :=
  ⟨32, 4080, fun p => some (24 + (clampN 64 32767 (fieldU p 16 4) + 7) / 8 + (clampN 0 1800 (fieldU p 22 2) + 7) / 8)⟩

/-- A channel out of IDLE, or a PENDING or ACTIVE ledger entry, uses a signal of a satellite. -/
def signalInUse (s : State) (id sat : Nat) : Bool :=
  (s.fabric.chans.any fun c =>
    (!c.2.idle && c.2.act.signal == id && c.2.act.sat == sat) ||
      (match c.2.claim with | some k => k.desc.signal == id && k.desc.sat == sat | none => false)) ||
  s.grinder.entries.any fun e =>
    (e.2.state == .pending || e.2.state == .active) && e.2.signal == id && e.2.sat == sat

def codeLoadCmd : HostCmd :=
  { opcode := 0x0530, len := codeLoadLen, priv := 2
    range := fun q s =>
      let c := userCodeOf q
      let others := s.fabric.codes.filter fun k => k.signal == c.signal && !sameComponent k c
      [ (0, isUser c.signal), (1, 1 ≤ c.sat && c.sat ≤ 63), (2, c.comp ≤ 1), (3, q.u 3 1 ≤ 1),
        (4, 1100000000000000 ≤ c.carrier && c.carrier ≤ 1700000000000000 && others.all fun k => k.carrier == c.carrier),
        (12, 500000 ≤ c.chipRate && c.chipRate ≤ 10230000 && others.all fun k => k.chipRate == c.chipRate),
        (16, 64 ≤ c.length && c.length ≤ 32767 && others.all fun k => k.length == c.length),
        (20, [1, 2, 4, 5, 10, 20].contains c.period && c.length * 1000 == c.chipRate * c.period && others.all fun k => k.period == c.period),
        (22, q.u 22 2 ≤ 1800) ]
    state := fun q s => [!signalInUse s (q.u 0 1) (q.u 1 1)]
    late := fun q s =>
      let c := userCodeOf q
      let held := (s.fabric.codes.filter fun k => !sameComponent k c) ++ [c]
      if (held.map fun k => codeRows k.length + codeRows k.sec.length).sum ≤ 131072 then none else some .noResource
    effect := fun q s =>
      let c := userCodeOf q
      ({ s with fabric := { s.fabric with codes := (s.fabric.codes.filter fun k => !sameComponent k c) ++ [c] } }, .ok []) }

def execCodeLoad (q : Qcp) (s : State) : Host.Outcome State Fault Refusal := runHost codeLoadCmd q s

/-! ### Streams -/

/-- The samples of one beat of a stream, and whether its tag makes the dumps carry INPUT or RING (Table 5.7). -/
structure StreamBeat where
  samples : List Cplx
  input : Bool
  ring : Bool

def nibble (v : Nat) : Int := let n := v % 16; if n < 8 then (n : Int) else (n : Int) - 16

/-- Samples in a ring format: 4-bit or 8-bit (R59). -/
def unpackRing (format n : Nat) (p : List Byte) : List Cplx :=
  (List.range n).map fun i =>
    if format = 0 then let v := fieldU p i 1; (nibble (v / 16), nibble v) else (fieldI p (2 * i) 1, fieldI p (2 * i + 1) 1)

/-- The value of a 2-bit code (R289). -/
def twoBit (v : Nat) : Int := match v % 4 with | 0 => 1 | 1 => 3 | 2 => -1 | _ => -3

/-- Samples in the 2-bit history format. -/
def unpackTwoBit (n : Nat) (p : List Byte) : List Cplx :=
  (List.range n).map fun i => let v := fieldU p (i / 2) 1 / (if i % 2 = 0 then 1 else 16); (twoBit (v / 4), twoBit v)

/-- Bytes of one beat of a stream in the history, padded to 64 (R290). -/
def histStreamBytes (s : State) (j : Nat) : Nat :=
  if 31 < (s.carafe.cfg.streams[j]?).getD 0xFF then 0
  else
    let n := fSb ((s.carafe.rates[j]?).getD 0) / 1000
    ((if s.carafe.cfg.format = 1 then 2 * n else (n + 1) / 2) + 63) / 64 * 64

/-- Size of a history slot. -/
def histSlotBytes (s : State) : Nat := 64 + ((List.range 4).map (histStreamBytes s)).sum

/-- Slots of the history ring. -/
def histDepth (s : State) : Nat := s.carafe.cfg.banks * bankBytes / histSlotBytes s

/-- The slot that holds a beat. -/
def histSlotOf (s : State) (beat : Nat) : Option Nat := (s.carafe.slots.find? fun x => x.2 == beat + 1).map (·.1)

/-- Addresses of the tag and of the samples of a stream in a slot. -/
def histTagAddr (s : State) (slot j : Nat) : Nat := memBase + s.carafe.cfg.first * bankBytes + slot * histSlotBytes s + 16 * j
def histDataAddr (s : State) (slot j : Nat) : Nat :=
  memBase + s.carafe.cfg.first * bankBytes + slot * histSlotBytes s + 64 + ((List.range j).map (histStreamBytes s)).sum

/-- The tag's fields that matter to readers: BEAT, COUNT, SCALE and FLAGS (Table 3.8). -/
structure RingTag where
  beat : Nat
  count : Nat
  scale : Nat
  flags : Nat

def ringTagOf (p : List Byte) : RingTag :=
  { flags := fieldU p 0 2, scale := fieldU p 3 1, count := fieldU p 6 2, beat := fieldU p 8 8 }

/-- The words of a range that hold a double-bit error read as zero by the fabric (Table 15.7). -/
def zeroBad (s : State) (a : Nat) (p : List Byte) : List Byte :=
  if s.mem.upsets.isEmpty then p
  else p.zipIdx.map fun b => if s.mem.upsets.contains (s.mem.loc (a + b.2) / 8, true) then 0 else b.1

def anyBad (s : State) (a n : Nat) : Bool :=
  !s.mem.upsets.isEmpty && (List.range n).any fun i => s.mem.upsets.contains (s.mem.loc (a + i) / 8, true)

/-- Read the beat of a stream that a channel correlates in the live beat after it (R93, R297). -/
def streamBeat (s : State) (sb beat : Nat) : StreamBeat :=
  let c := s.streamCfg sb
  let n := fSb c.rate / 1000
  let (tagA, dataA, len, hist) :=
    if sb < 32 then (tagAddr c beat, slotAddr c beat, slotBytes c, false)
    else
      let src := (beat : Int) - ((s.carafe.replay.map (·.offset)).getD 0)
      match histSlotOf s src.toNat with
      | some k => (histTagAddr s k ((sb - 32) % 4), histDataAddr s k ((sb - 32) % 4), histStreamBytes s ((sb - 32) % 4), true)
      | none => (0, 0, 0, true)
  if len = 0 then { samples := List.replicate n (0, 0), input := true, ring := false }
  else
    let t := ringTagOf (s.memRead tagA 16)
    let p := zeroBad s dataA (s.memRead dataA len)
    let xs := if hist && s.carafe.cfg.format = 0 then unpackTwoBit n p else unpackRing (if hist then 1 else c.format) n p
    { samples := xs, input := decide (t.count < n) || bitOf t.flags 0 || bitOf t.flags 10 || bitOf t.flags 13 || anyBad s dataA len
      ring := bitOf t.flags 11 || bitOf t.flags 12 }

/-! ### Correlation (R93, R105–R108) -/

/-- round(31·cos(2πp/64)) for p = 0 to 16. -/
def cosQuarter : List Int := [31, 31, 30, 30, 29, 27, 26, 24, 22, 20, 17, 15, 12, 9, 6, 3, 0]

def cos31 (p : Nat) : Int :=
  let p := p % 64
  if p ≤ 16 then (cosQuarter[p]?).getD 0
  else if p ≤ 32 then -((cosQuarter[32 - p]?).getD 0)
  else if p ≤ 48 then -((cosQuarter[p - 32]?).getD 0)
  else (cosQuarter[64 - p]?).getD 0

def sin31 (p : Nat) : Int := cos31 (p + 48)

/-- rnd(v, k) of R105. -/
def rndShift (v : Int) (k : Nat) : Int := if k = 0 then v else roundDiv v (2 ^ k)

def sat24 (v : Int) : Int := clampI (-8388608) 8388607 v

/-- Accumulate, staying at a limit once reached; the flag says that a limit is reached (R105). -/
def accumulate (a x : Int) : Int × Bool :=
  if a = 8388607 ∨ a = -8388608 then (a, true) else let v := sat24 (a + x); (v, v == 8388607 || v == -8388608)

/-- The replica of a tap at a code phase, in chips × 2⁴⁸ (R98, R102, R103, R105). DEDUCED (log 29). -/
def replica (s : State) (g : Sig) (d : Desc) (sec : Nat) (phi : Nat) (t : Nat) (w : BitVec 16) : Int :=
  let pilot := tapPilot w
  if !tapOn w || !d.ctrl.getLsbD (if pilot then 1 else 0) then 0
  else
    let off : Int := if t < 10 then tapOffset w * 2 ^ 42 else (tapNoise w * 2 ^ 48 : Nat)
    let raw : Int := (phi : Int) - off
    let ph := (raw % (g.length * 2 ^ 48 : Nat)).toNat
    let e : Int := (g.epoch * 2 ^ 48 : Nat)
    let shift := raw / e - (phi : Int) / e
    let comp := if pilot then 1 else 0
    let chip := s.chip d.signal d.sat comp (ph / 2 ^ 48)
    let boc := if (if pilot then g.bocP else g.bocD) && decide (2 ^ 47 ≤ ph % 2 ^ 48) then -1 else 1
    let idx := if g.secLen = 0 then 0 else (((sec : Int) + shift) % g.secLen).toNat
    let wipe := if d.ctrl.getLsbD (if pilot then 3 else 2) then s.secChip d.signal d.sat comp idx else 1
    chip * boc * wipe

/-- What a channel carries through the samples of a beat. -/
structure Corr where
  nco : Nco
  win : DumpWindow
  cut : Bool
  dumps : List DumpWindow × List (Nat × Bool)

/-- Advance the oscillators by `n` samples (R93): phases, cycle count, and the epochs crossed. -/
def advanceNco (g : Sig) (d : Desc) (n : Nat) (c : Nco) : Nco × Nat :=
  let th : Int := (c.cycles * 2 ^ 48 + c.carr : Nat) + d.carrWord * n
  let th := (th % (2 ^ 80 : Nat)).toNat
  let ph := c.code + d.codeWord * n
  let e := g.epoch * 2 ^ 48
  let cross := ph / e - c.code / e
  ({ carr := th % 2 ^ 48, cycles := th / 2 ^ 48, code := ph % (g.length * 2 ^ 48)
     sec := if g.secLen = 0 then 0 else (c.sec + cross) % g.secLen
     epochMod := (c.epochMod + cross) % max 1 (tintMs d.tint / g.period) }, cross)

/-- Correlate one sample into the open window. -/
def corrSample (s : State) (g : Sig) (d : Desc) (c : Nco) (x : Cplx) (w : DumpWindow) : DumpWindow :=
  let p := c.carr * 64 / 2 ^ 48
  let co := cos31 p
  let si := sin31 p
  let wi := x.1 * co + x.2 * si
  let wq := x.2 * co - x.1 * si
  let sh := d.ctrl.toNat / 16 % 8
  let r := (w.acc.zip d.taps).zipIdx.map fun t =>
    let k := replica s g d c.sec c.code t.2 t.1.2
    let (i, f) := accumulate t.1.1.1 (rndShift (k * wi) sh)
    let (q, h) := accumulate t.1.1.2 (rndShift (k * wq) sh)
    ((i, q), f || h)
  { w with acc := r.map (·.1), satMask := w.satMask ||| boolBits (r.map (·.2)), count := w.count + 1 }

/-- The window that opens after a dump, with the flags of the beat. -/
def freshWindow (epochMod : Nat) (flags : BitVec 8) : DumpWindow :=
  { DumpWindow.reset with partialW := epochMod != 0, flags := flags }

/-- All samples of a beat: `limit` of them are processed (R34); a window ends at an epoch that wraps EPOCH_MOD (R106). -/
def corrBeat (s : State) (g : Sig) (d : Desc) (limit : Nat) (beatFlags : BitVec 8) : Nat → List Cplx → Corr → Corr
  | _, [], k => k
  | i, x :: xs, k =>
    let w := if i < limit then corrSample s g d k.nco x k.win else { k.win with flags := k.win.flags ||| 1#8 }
    let w := { w with len := w.len + 1 }
    let (nco, cross) := advanceNco g d 1 k.nco
    if cross ≠ 0 ∧ (nco.epochMod = 0 ∨ k.cut) then
      let roll := g.secLen != 0 && nco.sec == 0
      corrBeat s g d limit beatFlags (i + 1) xs
        { nco := nco, win := freshWindow nco.epochMod beatFlags, cut := false
          dumps := (k.dumps.1 ++ [{ w with partialW := w.partialW || k.cut }], k.dumps.2 ++ [(i, roll)]) }
    else corrBeat s g d limit beatFlags (i + 1) xs { k with nco := nco, win := w }

/-- The dump record of a closed window. -/
def mkDump (n : Nat) (seq : Nat) (beat : Nat) (d : Desc) (second : Bool) (w : DumpWindow) (e : Nat × Bool) : Dump :=
  { channel := n, seq := seq, endBeat := beat, endSample := e.1, count := w.count
    flags := w.flags ||| (if w.partialW then 2#8 else 0#8) ||| (if second then 0x40#8 else 0#8) ||| (if e.2 then 0x80#8 else 0#8)
    satMask := w.satMask + d.ctrl.toNat / 16 % 8 * 2048
    taps := w.acc.zipWith (fun a t => if tapOn t then a else (0, 0)) d.taps, nominal := w.len, served := false }

/-- Correlate the beat before the last on one channel: the channel with its window, and its dumps in window order. -/
def corrChannel (s : State) (n : Nat) (short : Nat) (beat : Nat) (c : Chan) : Chan × List Dump :=
  let p := c.prev
  match s.sig p.desc.signal p.desc.sat with
  | none => (c, [])
  | some g =>
    if p.desc.state = 0 then (c, [])
    else
      let b := streamBeat s p.desc.subband beat
      let bf : BitVec 8 := (if b.input then 4#8 else 0#8) ||| (if b.ring then 8#8 else 0#8)
      let open_ := c.win.len != 0
      let w := { c.win with flags := c.win.flags ||| bf ||| (if p.coasted && open_ then 0x10#8 else 0#8) ||| (if p.config && open_ then 0x20#8 else 0#8) }
      let k := corrBeat s g p.desc (b.samples.length - short) bf 0 b.samples { nco := p.nco, win := w, cut := p.cut, dumps := ([], []) }
      let ds := (k.dumps.1.zip k.dumps.2).zipIdx.map fun x => mkDump n ((c.seq + x.2) % 32) beat p.desc (x.2 == 1) x.1.1 x.1.2
      ({ c with win := k.win, seq := (c.seq + ds.length) % 32 }, ds)

/-! ### The dump rings (R109, R110) -/

/-- The 80 bytes of a dump record (R108). -/
def Dump.bytes (d : Dump) : List Byte :=
  u16 (d.channel + d.seq * 2048) ++ u32 d.endBeat ++ u16 d.endSample ++ leBytes 3 d.count ++ leBytes 1 d.flags.toNat ++ u16 d.satMask
  ++ (d.taps.map fun t => leBytesI 3 t.1 ++ leBytesI 3 t.2).flatten

/-- Address of a slot of a group's ring. -/
def dumpSlotAddr (s : State) (group beat : Nat) : Nat :=
  memBase + s.fabric.dumpFirst * bankBytes + group * s.fabric.dumpDepth * slotSize + beat % s.fabric.dumpDepth * slotSize

/-- SNAP of one channel: phases at sub-band sample 0 of the beat; zero for an IDLE channel. -/
def snapBytes (c : Chan) : List Byte :=
  if c.prev.desc.state = 0 then rsv 16
  else u32 (c.prev.nco.carr / 65536) ++ u32 c.prev.nco.cycles ++ u64 (c.prev.nco.code / 65536)

/-- Write the slot of one group. -/
def writeSlot (s : State) (group beat lanes : Nat) (chans : Nat → Chan) (dumps : List Dump) : State :=
  if !s.fabric.placed then s
  else
    let ds := dumps.filter fun d => d.channel / 64 == group
    let a := dumpSlotAddr s group beat
    let head := u64 beat ++ u8 group ++ rsv 1 ++ u16 ds.length ++ u16 (ds.countP fun d => d.flags.getLsbD 0) ++ u16 lanes ++ rsv 48
    s.memPut a (head ++ ((List.range 64).map fun i => snapBytes (chans (64 * group + i))).flatten ++ (ds.map Dump.bytes).flatten)

/-! ### The lane plan (R111) -/

def laneCap : Nat := 1560000

/-- The cost of loading a source's beat. -/
def loadCost (bytes : Nat) : Nat := 2 * ((bytes + 63) / 64 + 32)

/-- Bytes of one beat of a source. -/
def sourceBytes (s : State) (sb : Nat) : Nat := if sb < 32 then slotBytes (s.streamCfg sb) else histStreamBytes s ((sb - 32) % 4)

/-- The plan so far: finished lanes in order, the work of the lane in hand, and the lane position of each channel. -/
structure Plan where
  done : List Nat
  cur : Nat
  place : List (Nat × Nat)

/-- Place the channels of one source next-fit. -/
def planSource (load cost : Nat) : List Nat → Bool → Plan → Plan
  | [], _, p => p
  | n :: ns, first, p =>
    let start := if first then load else 0
    let p :=
      if p.cur + start + cost ≤ laneCap then { p with cur := p.cur + start + cost }
      else { p with done := p.done ++ [p.cur], cur := load + cost }
    planSource load cost ns false { p with place := p.place ++ [(n, p.done.length)] }

/-- The lane plan of the channels that are not IDLE: work per powered lane, and the lane of each channel. DEDUCED (log 30). -/
def lanePlan (s : State) : List Nat × List (Nat × Nat) :=
  let run := s.fabric.chans.filter fun c => !c.2.idle
  let p := (List.range 64).foldl (fun p sb =>
    let ns := (run.filter fun c => c.2.act.subband == sb).map (·.1)
    if ns.isEmpty then p else planSource (loadCost (sourceBytes s sb)) (s.chanCost sb + 16) ns true p) ⟨[], 0, []⟩
  let lanes := s.lanes
  (p.done ++ [p.cur], p.place.map fun x => (x.1, (lanes[x.2]?).getD 0))

/-- Work of the sixteen lanes in clocks. -/
def laneClocks (s : State) (work : List Nat) : List Nat :=
  (List.range 16).map fun l => match s.lanes.findIdx? (· == l) with
    | some i => (work[i]?).getD 0 / 2
    | none => 0

/-! ### The latch (R38, R93, R95, R100, R115) -/

/-- Clamp a carrier word to the bound it breaks, and a code word likewise (R95). -/
def clampCarr (g : Sig) (fsb : Nat) (w : Int) : Int :=
  let top : Int := ((fsb - g.chipRate) * 2 ^ 48 / (2 * fsb) : Nat)
  clampI (-top) top w

def clampCode (g : Sig) (fsb w : Nat) : Nat :=
  let n := codeNominal g fsb
  max ((999 * n + 999) / 1000) (min (1001 * n / 1000) w)

/-- Apply the shadow of a running channel: the channel, and the words clamped. DEDUCED (log 29). -/
def applyShadow (g : Sig) (fsb : Nat) (c : Chan) : Chan × Nat :=
  let h := c.shadow
  let d := c.act
  let cw := h.carrWord.map fun w => if carrWordOk g fsb w then w else clampCarr g fsb w
  let kw := h.codeWord.map fun w => if codeWordOk g fsb w then w else clampCode g fsb w
  let clamped := (if cw = h.carrWord then 0 else 1) + (if kw = h.codeWord then 0 else 1)
  let tint := h.tint.getD d.tint
  let per := max 1 (tintMs tint / g.period)
  let em := (h.epochMod.getD c.nco.epochMod) % per
  let cut := tint != d.tint || em != c.nco.epochMod
  let sec := match h.secIndex with
    | some v => if g.secLen = 0 then 0 else if c.nco.atEpoch g then v % g.secLen else (v + g.secLen - 1) % g.secLen
    | none => c.nco.sec
  let ctrl := h.ctrl.getD d.ctrl
  let taps := d.taps.zipWith (fun a o => o.getD a) h.taps
  let words := h.carrWord.isSome
  let missed := c.due && !words
  ({ c with
      act := { d with state := h.state.getD d.state, tint := tint, ctrl := ctrl, carrWord := cw.getD d.carrWord, codeWord := kw.getD d.codeWord, taps := taps
                      epochMod := h.epochMod.getD d.epochMod, secIndex := h.secIndex.getD d.secIndex }
      nco := { c.nco with sec := sec, epochMod := em }, cut := cut, config := ctrl != d.ctrl || taps != d.taps, coasted := missed
      ncoLate := missed, missed := if words then 0 else if missed then c.missed + 1 else c.missed }, clamped)

/-- A claim latches: the descriptor and its phases apply at sub-band sample 0 of the beat that opens (R93). -/
def startChan (g : Sig) (k : Claim) (c : Chan) : Chan :=
  let code := k.code * 65536
  let n : Nco := { carr := k.carr * 65536, cycles := 0, code := code, sec := 0, epochMod := k.desc.epochMod }
  let sec := if g.secLen = 0 then 0 else if n.atEpoch g then k.desc.secIndex % g.secLen else (k.desc.secIndex + g.secLen - 1) % g.secLen
  let whole := n.atEpoch g && k.desc.epochMod == 0
  { c with act := k.desc, nco := { n with sec := sec }, win := { DumpWindow.reset with partialW := !whole }, claim := none, cut := false, config := false
           coasted := false, missed := 0, ncoLate := false, due := false, shadow := Shadow.none, late := Shadow.none }

/-- One channel at a boundary: its oscillators move on, then the stop, the claim or the shadow applies. DEDUCED (log 29). -/
def latchChan (s : State) (c : Chan) : Chan × Nat :=
  let past : PastSet := { desc := c.act, nco := c.nco, config := c.config, coasted := c.coasted, cut := c.cut }
  let moved := match s.sig c.act.signal c.act.sat with
    | some g => if c.act.state = 0 then c.nco else (advanceNco g c.act (s.chanCost c.act.subband) c.nco).1
    | none => c.nco
  let c := { c with prev := past, nco := moved }
  if c.stop then
    ({ c with act := { c.act with state := 0 }, claim := none, stop := false, cost := 0, shadow := Shadow.none, late := Shadow.none, due := false
              config := false, coasted := false, cut := false }, 0)
  else match c.claim with
    | some k => match s.sig k.desc.signal k.desc.sat with
      | some g => (startChan g k c, 0)
      | none => (c, 0)
    | none =>
      if c.act.state = 0 then ({ c with shadow := Shadow.none, late := Shadow.none, due := false }, 0)
      else match s.sig c.act.signal c.act.sat with
        | some g =>
          let (c, n) := applyShadow g (fSb (s.streamCfg c.act.subband).rate) c
          ({ c with shadow := c.late, late := Shadow.none, due := false }, n)
        | none => (c, 0)

/-- Overrun records of NCO_LATE: one for each group with a channel that missed this latch (R36). -/
def ncoLateRecords (s : State) (beat : Nat) : List OverrunRec :=
  (List.range 32).filterMap fun g =>
    let cs := s.fabric.chans.filter fun c => c.2.ncoLate && c.2.coasted && c.1 / 64 == g
    match cs with
    | [] => none
    | c :: _ => some
      { beat := beat, kind := 2, group := g, count := cs.length, first := c.1, unit := (s.fabric.binding[g]?).getD 0
        deficit := min 0x1FFFFFFF ((cs.map (·.2.lateBy)).foldl max 0) }

/-- Overrun records of SHORT: one for each group and lane (R36). -/
def shortRecords (beat : Nat) (place : List (Nat × Nat)) (short : List (Nat × Nat)) : List OverrunRec :=
  ((List.range 32).map fun g => (List.range 16).filterMap fun l =>
    let cs := short.filter fun x => x.1 / 64 == g && place.contains (x.1, l)
    match cs with
    | [] => none
    | _ => some
      { beat := beat, kind := 1, group := g, count := cs.length, first := (cs.map (·.1)).foldl min 2047, unit := l
        deficit := min 0x1FFFFFFF ((cs.map (·.2)).foldl max 0) }).flatten

/-- The OVERRUN notice of the beat after a detection: 1 to 8 records in order of GROUP, KIND and UNIT (R37). -/
def sendOverruns (s : State) : State :=
  if s.overruns.toNotify.isEmpty then s
  else
    let rs := ((List.range 32).map fun g => (s.overruns.toNotify.filter fun r => r.group == g && r.kind == 1) ++
      (s.overruns.toNotify.filter fun r => r.group == g && r.kind == 2)).flatten
    ({ s with overruns := { s.overruns with toNotify := [] } }).notify 0x8520 ((rs.take 8).map OverrunRec.bytes).flatten

/-- Log the overruns of a boundary; they are notified in the next beat. -/
def logOverruns (rs : List OverrunRec) (s : State) : State :=
  { s with overruns := { rs.foldl OverrunLog.add s.overruns with toNotify := rs } }

/-- The fabric at a boundary: dumps of the beat before the last close, then every channel latches (R33, R38, R41).
`short`: channels whose lane left samples unprocessed, with the count of those samples (R34). -/
def fabricBoundary (short : List (Nat × Nat)) (s : State) : State :=
  if !(s.on 5 || s.on 6) then s
  else
    let s := sendOverruns s
    let beat := s.time.beat
    let k := beat - 2
    let (work, place) := lanePlan s
    let short := short.filter fun x => (s.chan x.1).prev.desc.state != 0 && x.2 != 0
    let r := s.fabric.chans.map fun c =>
      let (c', ds) := corrChannel s c.1 (((short.find? fun x => x.1 == c.1).map (·.2)).getD 0) k c.2
      (c.1, c', ds)
    let dumps := (r.map (·.2.2)).flatten
    let chans : Tab Chan := r.map fun x => (x.1, x.2.1)
    let s := { s with fabric := { s.fabric with chans := chans } }
    let s := (List.range 32).foldl (fun s g =>
      let lanes := ((place.filter fun x => x.1 / 64 == g).map fun x => 2 ^ x.2).foldl (· ||| ·) 0
      writeSlot s g k lanes (Tab.get Chan.reset chans) dumps) s
    let l := s.fabric.chans.map fun c => (c.1, latchChan s c.2)
    let clamps := (l.map (·.2.2)).sum
    let s := { s with fabric := { s.fabric with
      chans := Tab.norm Chan.reset (l.map fun x => (x.1, { x.2.1 with due := dumps.any fun d => d.channel == x.1 }))
      laneWork := laneClocks s work, clamps := sat32 (s.fabric.clamps + clamps), slot := dumps, slotBeat := k } }
    logOverruns (shortRecords beat place short ++ ncoLateRecords s beat) s

end Sys2Proof.Machine
end

