-- ==== Sys2Proof/Machine/Grinder.lean ====
section
/-! DEFINITION. The Grinder and the search ledger (R66–R90). -/

namespace Sys2Proof.Machine
open Sys2Proof

/-! ### Entries (Table 4.1) -/

def State.entry (s : State) (n : Nat) : Entry := Tab.get Entry.reset s.grinder.entries n
def State.setEntry (s : State) (n : Nat) (e : Entry) : State :=
  { s with grinder := { s.grinder with entries := Tab.set Entry.reset s.grinder.entries n e } }

def EntryState.code : EntryState → Nat
  | .free => 0 | .pending => 1 | .active => 2 | .found => 3 | .notFound => 4 | .handed => 5 | .failed => 6 | .expired => 7 | .held => 8

/-- Any beat: START_BEAT of all ones. -/
def anyBeat : Nat := 2 ^ 64 - 1

/-- The entry that a write stores: `next` is the first beat that opens after it. -/
def entryOf (next : Nat) (p : List Byte) : Entry :=
  let u (o n : Nat) := fieldU p o n
  { Entry.reset with
    state := if u 0 1 = 8 then .held else .pending, priority := u 1 1 % 8, notify := bitOf (u 1 1) 7, signal := u 2 1, sat := u 3 1
    subband := u 4 1, source := u 5 1, tcoh := u 6 1, noncoh := u 7 1, dstep := u 8 1, pfaExp := u 9 1, thr := u 10 1, ratio := u 11 1
    fftLog2 := u 12 1, retries := u 13 1 / 16, attempts := 0, tag := u 14 2, codeStart := u 16 4, codeSpan := u 20 4
    doppCentre := fieldI p 24 4, doppHalf := u 28 2, target := u 30 2, groupMask := BitVec.ofNat 32 (u 32 4), startBeat := u 36 8
    foundAt := next }

/-- The 64 bytes of an entry as read. -/
def Entry.bytes (e : Entry) : List Byte :=
  u8 e.state.code ++ u8 (e.priority + if e.notify then 128 else 0) ++ u8 e.signal ++ u8 e.sat ++ u8 e.subband ++ u8 e.source ++ u8 e.tcoh
  ++ u8 e.noncoh ++ u8 e.dstep ++ u8 e.pfaExp ++ u8 e.thr ++ u8 e.ratio ++ u8 e.fftLog2 ++ u8 (e.retries * 16 + e.attempts) ++ u16 e.tag
  ++ u32 e.codeStart ++ u32 e.codeSpan ++ i32 e.doppCentre ++ u16 e.doppHalf ++ u16 e.target ++ leBytes 4 e.groupMask.toNat ++ u64 e.startBeat
  ++ u16 e.peak ++ u16 e.second ++ u32 e.codePhase ++ i32 e.doppler ++ u16 e.cn0 ++ leBytes 1 e.flags.toNat ++ rsv 1 ++ u16 e.channel
  ++ u16 e.doneBeat

/-! ### Derived quantities (R67–R69) -/

/-- T_coh in ms. -/
def tcohMs (code : Nat) : Nat := ([1, 2, 4, 5, 10, 20][code]?).getD 1

/-- The settings of the stream an entry reads. -/
def State.entrySub (s : State) (e : Entry) : SubbandCfg :=
  if e.source = 0 then (s.subband e.subband).cfg.committed
  else s.streamCfg (32 + 4 * (e.source - 0x10) + ((s.carafe.cfg.streams.findIdx? (· == e.subband)).getD 0))

/-- Samples of a coherent block. -/
def blockSamples (s : State) (e : Entry) : Nat := fSb (s.entrySub e).rate / 1000 * tcohMs e.tcoh

/-- The smallest n from 12 to 16 with 2ⁿ ≥ L, capped at 16. -/
def autoLog2 (l : Nat) : Nat := ((List.range 5).map (· + 12)).find? (fun n => decide (l ≤ 2 ^ n)) |>.getD 16

/-- N of R66. -/
def fftPoints (s : State) (e : Entry) : Nat := 2 ^ (if e.fftLog2 = 0 then autoLog2 (blockSamples s e) else e.fftLog2)

/-- m of R69. -/
def Entry.m (e : Entry) : Nat := 2 ^ e.dstep

/-- The hypothesis step Δf / m in mHz × 4 (an integer for every code). -/
def Entry.step4 (e : Entry) : Nat := 4000000 / tcohMs e.tcoh / e.m

/-- DOPP_CENTRE as a count of hypothesis steps. -/
def Entry.centreSteps (e : Entry) : Int := roundDiv (4 * e.doppCentre) e.step4

/-- J of R69. -/
def Entry.bigJ (e : Entry) : Nat := (4000 * e.doppHalf + e.step4 - 1) / e.step4

/-- Doppler bins D. -/
def Entry.bins (e : Entry) : Nat := 2 * e.bigJ + 1

/-- The mixer frequency of the stream: that of the ring, or the one recorded with the window. -/
def State.entryMix (s : State) (e : Entry) : Int := (s.entrySub e).mixWord

/-- Baseband frequency of hypothesis j in Hz (R69). -/
def basebandHz (s : State) (g : Sig) (e : Entry) (j : Int) : Rat :=
  match s.installInput (e.subband / 4) with
  | some i =>
    ((basebandConst i (s.entryMix e) g.carrier : Int) : Rat) / (1000000 * 4294967296)
      + (((e.centreSteps + j) * e.step4 : Int) : Rat) / 4000
  | none => 0

/-- The search rate r = N × 1,000 / T_coh. -/
def searchRate (s : State) (e : Entry) : Rat := ((fftPoints s e * 1000 : Nat) : Rat) / tcohMs e.tcoh

/-- Code-phase cells: the first N × P / T_coh points (R68). -/
def codeCells (s : State) (g : Sig) (e : Entry) : Nat := fftPoints s e * g.period / tcohMs e.tcoh

/-- Bytes of the entry's spectrum set (R79). -/
def setBytes (s : State) (e : Entry) : Nat := e.noncoh * e.m * fftPoints s e * 4

def poolBytes (s : State) : Nat := s.grinder.workBanks * bankBytes

/-- Cost in transform points (R80). -/
def entryCost (s : State) (e : Entry) : Nat := e.bins * e.noncoh * fftPoints s e

/-- The sub-band lies in a held Carafe window's streams. -/
def windowStream (s : State) (e : Entry) : Bool := s.carafe.cfg.streams.contains e.subband

/-- The checks of one entry at offset `o`, in ascending order of offset; TCOH, FFT_LOG2 and DOPP_CENTRE carry the conditions of R68. DEDUCED (log 27). -/
def entryRange (s : State) (p : List Byte) (o : Int) : List (Int × Bool) :=
  let u (a n : Nat) := fieldU p a n
  let e := entryOf 0 p
  let known := s.signalKnown e.signal && satOk e.signal e.sat
  let base : List (Int × Bool) :=
    [ (o, u 0 1 ≤ 8), (o + 1, u 1 1 / 8 % 16 == 0), (o + 2, s.signalKnown e.signal), (o + 3, satOk e.signal e.sat),
      (o + 4, e.subband ≤ 31 && (if e.source = 0 then (s.entrySub e).enable else e.source < 0x10 || 0x17 < e.source || windowStream s e)), (o + 5, e.source == 0 || (0x10 ≤ e.source && e.source ≤ 0x17)) ]
  match s.sig e.signal e.sat with
  | none => base ++ [(o + 2, !known)]
  | some g =>
    let n := fftPoints s e
    let r := searchRate s e
    let lim : Rat := (min ((fSb (s.entrySub e).rate : Nat) : Rat) r) / 2
    let hi := absRat (basebandHz s g e (e.bigJ : Int))
    let lo := absRat (basebandHz s g e (-(e.bigJ : Int)))
    let len64 := g.length * 64
    base ++
    [ (o + 6, u 6 1 ≤ 5 && tcohMs e.tcoh % g.period == 0), (o + 7, 1 ≤ e.noncoh && setBytes s e ≤ poolBytes s), (o + 8, e.dstep ≤ 2),
      (o + 9, 2 ≤ e.pfaExp && e.pfaExp ≤ 8), (o + 10, e.thr == 0 || 16 ≤ e.thr), (o + 11, 16 ≤ e.ratio && e.ratio ≤ 64),
      (o + 12, (e.fftLog2 == 0 || (12 ≤ e.fftLog2 && e.fftLog2 ≤ 16)) && ((g.chipRate : Nat) : Rat) ≤ ((n * 1000 : Nat) : Rat) / tcohMs e.tcoh),
      (o + 13, u 13 1 % 16 == 0), (o + 16, e.codeStart < len64), (o + 20, e.codeSpan ≤ len64),
      (o + 24, -50000000 ≤ e.doppCentre && e.doppCentre ≤ 50000000 && hi + ((g.chipRate : Nat) : Rat) / 2 ≤ lim && lo + ((g.chipRate : Nat) : Rat) / 2 ≤ lim),
      (o + 28, e.doppHalf ≤ 50000 && e.bins ≤ 1025 && entryCost s e ≤ 2147483648), (o + 30, e.target ≤ 2047 || e.target == 0xFFFE || e.target == 0xFFFF),
      (o + 44, (p.drop 44).all (· == 0)) ]

/-! ### Notices and state changes (R75, R88) -/

def ledgerDone (n : Nat) (s : State) : State :=
  let e := s.entry n
  if e.notify then s.notify 0x8410 (u16 n ++ rsv 2 ++ e.bytes) else s

/-- Move an entry to a result state, with its notice. -/
def moveEntry (n : Nat) (st : EntryState) (flags : BitVec 8) (s : State) : State :=
  let e := s.entry n
  ledgerDone n (s.setEntry n { e with
    state := st, flags := e.flags ||| flags, doneBeat := s.time.beat % 65536, cancel := false
    channel := if st = .handed ∨ st = .active ∨ st = .pending then e.channel else 0xFFFF })

/-- PENDING, HELD or FOUND fails at once. -/
def failWaiting (n : Nat) (flags : BitVec 8) (s : State) : State :=
  match (s.entry n).state with
  | .pending | .held | .found => moveEntry n .failed flags s
  | _ => s

/-- An entry of a Carafe window fails with INPUT when the window is released (Table 4.2). -/
def failWindow (w : Nat) (s : State) : State :=
  s.grinder.entries.foldl (fun s e => if e.2.source = 0x10 + w then failWaiting e.1 2#8 s else s) s

/-- The entries of a sub-band that reads its ring fail with INPUT when the sub-band is disabled (R84). -/
def failSubband (sb : Nat) (s : State) : State :=
  s.grinder.entries.foldl (fun s e => if e.2.source = 0 ∧ e.2.subband = sb then failWaiting e.1 2#8 s else s) s

def anyActive (s : State) : Bool := s.grinder.entries.any fun e => decide (e.2.state = .active)

/-- Entries first to first + count − 1. -/
def entryRangeOf (first count : Nat) : List Nat := (List.range count).map (first + ·)

/-! ### Commands (R87) -/

def grinderCfgCmd : HostCmd :=
  { opcode := 0x0401, len := .fixed 8, priv := 2
    range := fun q _ =>
      [ (0, q.u 0 1 ≤ 126), (1, 2 ≤ q.u 1 1 && q.u 1 1 ≤ 32 && q.u 0 1 + q.u 1 1 ≤ 128), (2, q.u 2 1 ≤ 1), (4, 100 ≤ q.u 4 2 && q.u 4 2 ≤ 10000) ]
    state := fun q s =>
      let g := s.grinder
      let same := g.placed && g.workFirst == q.u 0 1 && g.workBanks == q.u 1 1
      [!anyActive s, same || (List.range (q.u 1 1)).all fun i =>
        let b := q.u 0 1 + i
        (g.placed && decide (g.workFirst ≤ b) && decide (b < g.workFirst + g.workBanks)) || s.banksFree b 1]
    effect := fun q s =>
      let g := s.grinder
      let same := g.placed && g.workFirst == q.u 0 1 && g.workBanks == q.u 1 1
      let s := if same then s else (if g.placed then s.freeBanks g.workFirst g.workBanks else s).giveBanks (q.u 0 1) (q.u 1 1) 0x09 .spectrum
      ({ s with grinder := { s.grinder with
          workFirst := q.u 0 1, workBanks := q.u 1 1, placed := true, pool := if same then g.pool else []
          reserve := g.reserve.commit (q.u 2 1 == 1), age := g.age.commit (q.u 4 2) } }, .ok []) }

def execGrinderCfg (q : Qcp) (s : State) : Host.Outcome State Fault Refusal := runHost grinderCfgCmd q s

/-- Bytes of the pool that hold no set. -/
def poolFree (s : State) : Nat := poolBytes s - (s.grinder.pool.map (·.2)).sum

def grinderStatusCmd : HostCmd :=
  { opcode := 0x0402, len := .fixed 0, priv := 0
    effect := fun _ s =>
      let g := s.grinder
      (s, .ok ((g.pipes.map fun p => u16 (p.getD 0xFFFF)).flatten ++ u32 (poolFree s)
        ++ ((List.range 8).map fun p => u16 (g.entries.countP fun e => decide (e.2.state = .pending) && e.2.priority == p)).flatten
        ++ u32 g.completions ++ u32 g.overwrites ++ rsv 4)) }

def execGrinderStatus (q : Qcp) (s : State) : Host.Outcome State Fault Refusal := runHost grinderStatusCmd q s

def ledgerWriteLen : LenRule := ⟨68, 4036, fun p => some (4 + 64 * clampN 1 63 (fieldU p 2 2))⟩

def ledgerWriteCmd : HostCmd :=
  { opcode := 0x0410, len := ledgerWriteLen, priv := 1
    range := fun q s =>
      ([ (0, 8192 ≤ q.u 0 2 && q.u 0 2 ≤ 16383), (2, 1 ≤ q.u 2 2 && q.u 2 2 ≤ 63 && q.u 0 2 + q.u 2 2 ≤ 16384) ] : List (Int × Bool))
      ++ ((List.range (q.u 2 2)).map fun i => entryRange s (fieldB q.payload (4 + 64 * i) 64) (4 + 64 * i : Nat)).flatten
    state := fun q s => [(entryRangeOf (q.u 0 2) (q.u 2 2)).all fun n => decide ((s.entry n).state ≠ .active)]
    effect := fun q s =>
      ((List.range (q.u 2 2)).foldl (fun s i =>
        s.setEntry (q.u 0 2 + i) { entryOf (s.time.beat + 1) (fieldB q.payload (4 + 64 * i) 64) with doneBeat := s.time.beat % 65536 }) s, .ok []) }

def execLedgerWrite (q : Qcp) (s : State) : Host.Outcome State Fault Refusal := runHost ledgerWriteCmd q s

def ledgerRange (q : Qcp) (host : Bool) : List (Int × Bool) :=
  [ (0, q.u 0 2 ≤ 16383 && (!host || 8192 ≤ q.u 0 2)), (2, 1 ≤ q.u 2 2 && q.u 2 2 ≤ 63 && q.u 0 2 + q.u 2 2 ≤ 16384) ]

/-- An entry as read: result fields read 0 until it leaves ACTIVE (R75). DEDUCED (log 27). -/
def Entry.readBytes (e : Entry) : List Byte :=
  match e.state with
  | .pending | .active | .held => e.bytes.take 44 ++ rsv 20
  | _ => e.bytes

def ledgerReadCmd : HostCmd :=
  { opcode := 0x0411, len := .fixed 4, priv := 0, range := fun q _ => ledgerRange q false
    effect := fun q s => (s, .ok ((entryRangeOf (q.u 0 2) (q.u 2 2)).map fun n => (s.entry n).readBytes).flatten) }

def execLedgerRead (q : Qcp) (s : State) : Host.Outcome State Fault Refusal := runHost ledgerReadCmd q s

def ledgerCancelCmd : HostCmd :=
  { opcode := 0x0412, len := .fixed 4, priv := 1, range := fun q _ => ledgerRange q true
    effect := fun q s =>
      ((entryRangeOf (q.u 0 2) (q.u 2 2)).foldl (fun s n =>
        if (s.entry n).state = .active then s.setEntry n { s.entry n with cancel := true } else failWaiting n 8#8 s) s, .ok []) }

def execLedgerCancel (q : Qcp) (s : State) : Host.Outcome State Fault Refusal := runHost ledgerCancelCmd q s

def ledgerFreeCmd : HostCmd :=
  { opcode := 0x0413, len := .fixed 4, priv := 1, range := fun q _ => ledgerRange q true
    state := fun q s => [(entryRangeOf (q.u 0 2) (q.u 2 2)).all fun n => decide ((s.entry n).state ≠ .active)]
    effect := fun q s =>
      ((entryRangeOf (q.u 0 2) (q.u 2 2)).foldl (fun s n =>
        match (s.entry n).state with
        | .found | .notFound | .handed | .failed | .expired => s.setEntry n Entry.reset
        | _ => s) s, .ok []) }

def execLedgerFree (q : Qcp) (s : State) : Host.Outcome State Fault Refusal := runHost ledgerFreeCmd q s

def acqPlanOf (q : Qcp) : AcqPlan :=
  { planner := q.u 0 1 == 1, flags := q.u 1 1, timeUnc := q.u 4 4, dtRef := q.u 8 8, timePrior := q.u 16 8
    pos := [q.i 24 4, q.i 28 4, q.i 32 4], posUnc := q.u 36 4 }

def acqPlanCmd : HostCmd :=
  { opcode := 0x0420, len := .fixed 40, priv := 1
    range := fun q _ =>
      let p (o : Nat) : Int × Bool := ((o : Int), -7000000 ≤ q.i o 4 && q.i o 4 ≤ 7000000)
      [ (0, q.u 0 1 ≤ 1), (1, q.u 1 1 ≤ 3), (4, 1 ≤ q.u 4 4 && q.u 4 4 ≤ 4000000000), p 24, p 28, p 32, (36, 1 ≤ q.u 36 4 && q.u 36 4 ≤ 20000000) ]
    effect := fun q s => ({ s with grinder := { s.grinder with plan := s.grinder.plan.commit (acqPlanOf q) } }, .ok []) }

def execAcqPlan (q : Qcp) (s : State) : Host.Outcome State Fault Refusal := runHost acqPlanCmd q s

/-! ### Dispatch (R71, R77, R78) -/

/-- The first sample beat: all ones stands for the first beat that opens after the write. -/
def Entry.start (e : Entry) : Nat := if e.startBeat = anyBeat then e.foundAt else e.startBeat

/-- Sample beats that a search reads. -/
def Entry.beats (e : Entry) : Nat := e.noncoh * tcohMs e.tcoh

def Entry.key (s : State) (e : Entry) : SpectrumKey :=
  { source := e.source, subband := e.subband, start := e.start, tcoh := e.tcoh, n := fftPoints s e, m := e.m, noncoh := e.noncoh }

/-- Keys in use by running entries. -/
def usedKeys (s : State) : List SpectrumKey := (s.grinder.pipes.filterMap id).map fun n => (s.entry n).key s

/-- Evict the least recently used sets that no running entry uses until `need` bytes are free; the most recent stand first. -/
def evict (used : List SpectrumKey) (need cap : Nat) : List (SpectrumKey × Nat) → List (SpectrumKey × Nat)
  | [] => []
  | p :: ps =>
    let rest := evict used need cap ps
    if cap < need + p.2 + (rest.map (·.2)).sum ∧ !used.contains p.1 then rest else p :: rest

/-- The pool can hold the entry's set, or already holds it (R77). -/
def poolFits (s : State) (e : Entry) : Bool :=
  let used := usedKeys s
  let held := ((s.grinder.pool.filter fun p => used.contains p.1).map (·.2)).sum
  s.grinder.pool.any (fun p => p.1 == e.key s) || decide (held + setBytes s e ≤ poolBytes s)

/-- Every sample beat of the entry has completed. -/
def dataReady (s : State) (e : Entry) : Bool :=
  if e.source = 0 then decide (e.start + e.beats ≤ s.time.beat)
  else match s.carafe.windows[e.source - 0x10]? with
    | some w => (match w.state with
      | .frozen | .replaying => true
      | _ => false)
    | none => false

def eligible (s : State) (pipe : Nat) (e : Entry) : Bool :=
  decide (e.state = .pending) && dataReady s e && poolFits s e && (!(s.grinder.reserve.inForce && pipe == 3) || decide (e.priority ≤ 1))

/-- Rank in the dispatcher's order. -/
def before (a b : Nat × Entry) : Bool :=
  decide (a.2.priority < b.2.priority) || (a.2.priority == b.2.priority && (decide (a.2.start < b.2.start) || (a.2.start == b.2.start && decide (a.1 < b.1))))

def bestEntry (s : State) (pipe : Nat) : Option (Nat × Entry) :=
  (s.grinder.entries.filter fun e => eligible s pipe e.2).foldl (fun b e => match b with
    | none => some e
    | some x => if before e x then some e else some x) none

/-- What reading one source beat finds. -/
inductive BeatRead where
  | ok | short | overwrite | input
  deriving DecidableEq, Repr

def readBeat (s : State) (e : Entry) (beat : Nat) : BeatRead :=
  let c := s.entrySub e
  let full := fSb c.rate / 1000
  let loc : Option (Nat × Nat × Nat) :=
    if e.source = 0 then some (tagAddr c beat, slotAddr c beat, slotBytes c)
    else (histSlotOf s beat).map fun k =>
      let j := (s.carafe.cfg.streams.findIdx? (· == e.subband)).getD 0
      (histTagAddr s k j, histDataAddr s k j, histStreamBytes s j)
  match loc with
  | none => .input
  | some (tagA, dataA, len) =>
    let t := ringTagOf (s.memRead tagA 16)
    if t.beat ≠ beat then .overwrite
    else if bitOf t.flags 0 ∨ bitOf t.flags 10 ∨ anyBad s tagA 16 ∨ anyBad s dataA len ∨ t.count * 10 < full * 9 then .input
    else if t.count < full then .short else .ok

/-- The component the replica stands for has a secondary code. -/
def searchSecondary (g : Sig) : Bool := (if g.pilot then g.secP else g.secD) != 0

/-- Reported time is valid with an uncertainty below P / 4 (R71, R141). -/
def timeWithin (s : State) (g : Sig) : Bool :=
  let c := s.clock
  c.valid && ((c.unc s.now).map fun u => decide (u * 4 < ((g.period * 1000000 : Nat) : Rat))).getD false

/-- An eligible entry starts on a free pipeline: its beats are read before any inverse transform (R78). -/
def dispatch (pipe n : Nat) (e : Entry) (s : State) : State :=
  let key := e.key s
  let cached := s.grinder.pool.any fun p => p.1 == key
  let pool := if cached then (s.grinder.pool.filter fun p => p.1 == key) ++ s.grinder.pool.filter fun p => p.1 != key
    else (key, setBytes s e) :: evict (usedKeys s) (setBytes s e) (poolBytes s) s.grinder.pool
  let reads := if cached then [] else (List.range e.beats).map fun i => readBeat s e (e.start + i)
  let e' := { e with state := .active, startBeat := e.start, attempts := min 15 (e.attempts + 1), flags := 0, doneBeat := s.time.beat % 65536, channel := 0 }
  let s := s.setEntry n e'
  let noTime := match s.sig e.signal e.sat with
    | some g => decide (g.period < tcohMs e.tcoh) && searchSecondary g && !timeWithin s g
    | none => false
  match reads.find? fun r => decide (r = .overwrite) || decide (r = .input) with
  | some .overwrite =>
    moveEntry n .failed 1#8 { s with grinder := { s.grinder with overwrites := sat32 (s.grinder.overwrites + 1) } }
  | some _ => moveEntry n .failed 2#8 s
  | none =>
    if noTime then moveEntry n .failed 4#8 s
    else
      let s := { s with grinder := { s.grinder with pool := pool, pipes := modAt s.grinder.pipes pipe fun _ => some n } }
      if reads.contains .short then s.setEntry n { e' with flags := 0x40#8 } else s

/-- The dispatcher gives a free pipeline the best eligible entry (R77). -/
def execEntryDispatch (pipe : Nat) (s : State) : Host.Outcome State Fault Refusal :=
  match s.grinder.pipes[pipe]? with
  | some none =>
    if s.live && s.on 7 && s.grinder.placed then
      match bestEntry s pipe with
      | some (n, e) => .next (dispatch pipe n e s)
      | none => .next s
    else .next s
  | _ => .next s

/-! ### Detection (R72, R73) -/

/-- Partial sum of xⁱ / i! for i below n. -/
def expSum (x : Rat) : Nat → Rat
  | 0 => 0
  | n + 1 =>
    let rec go (i : Nat) (term acc : Rat) : Nat → Rat
      | 0 => acc
      | k + 1 => go (i + 1) (term * x / ((i + 1 : Nat) : Rat)) (acc + term) k
    go 0 1 0 (n + 1)

/-- e^(−x) Σ_{i < k} xⁱ / i! ≤ 10^(−pfa) / M, with e^x taken from its series (R72). -/
def tailOk (x : Rat) (k pfa cells : Nat) : Bool :=
  decide (expSum x k * ((cells * 10 ^ pfa : Nat) : Rat) ≤ expSum x (64 + 8 * (ceilRat x).toNat))

/-- The smallest multiple of 1/16, from i on, that passes. -/
def gammaFrom (k pfa cells : Nat) : Nat → Nat → Nat
  | i, 0 => i
  | i, n + 1 => if tailOk (((i * k : Nat) : Rat) / 16) k pfa cells then i else gammaFrom k pfa cells (i + 1) n

/-- Cells whose code phase lies in the window (CODE_START, CODE_SPAN); all of them for a full period. -/
def windowCells (g : Sig) (cells : Nat) (e : Entry) : Nat × Nat :=
  let len := g.length * 64
  if e.codeSpan = 0 ∨ len ≤ e.codeSpan then (0, cells)
  else
    let first := (e.codeStart * cells + len - 1) / len
    let last := ((e.codeStart + e.codeSpan) * cells + len - 1) / len
    (first, last - first)

/-- γ in 1/16. -/
def gamma16 (s : State) (g : Sig) (e : Entry) : Nat :=
  if e.thr ≠ 0 then e.thr
  else gammaFrom e.noncoh e.pfaExp ((windowCells g (codeCells s g e) e).2 * e.bins) 0 65536

/-- The vertex of the parabola through three neighbours, in steps from the middle one. -/
def vertex (a b c : Nat) : Rat :=
  let d : Int := 2 * ((a : Int) - 2 * b + c)
  if d = 0 then 0 else (((a : Int) - c : Int) : Rat) / (d : Rat)

/-- CN0 in 0.01 dB-Hz of S (R73): 0 when S ≤ 1. -/
def grinderCn0 (sNum sDen tcoh : Nat) : Nat := if sNum ≤ sDen then 0 else logSteps 1000 ((sNum - sDen) * 1000) (sDen * tcoh) 65535

/-- The results of a search, written into the entry; `found` tells the outcome of the test. DEDUCED (log 27). -/
def judge (s : State) (g : Sig) (e : Entry) (r : SearchResult) : Entry × Bool :=
  let cells := max 1 (codeCells s g e)
  let num := r.peak * r.noiseCells
  let den := max 1 r.noiseSum
  let num2 := r.second * r.noiseCells
  let found := decide (gamma16 s g e * den ≤ 16 * num) && decide (e.ratio * num2 ≤ 16 * num)
  let width : Rat := ((g.length * 64 : Nat) : Rat) / (cells : Rat)
  let phase := (roundRat ((((r.cell : Nat) : Rat) + vertex r.before r.peak r.after) * width)) % (g.length * 64 : Nat)
  let fit := clampRat (-1/2) (1/2) (vertex r.lower r.peak r.upper)
  let dopp := roundRat (((((e.centreSteps + r.hyp : Int) : Rat) + fit) * (e.step4 : Rat)) / 4)
  let w := windowCells g cells e
  let edge := decide (w.2 < cells) && (r.cell == w.1 % cells || r.cell == (w.1 + w.2 - 1) % cells)
  ({ e with
      peak := min 65535 (16 * num / den), second := min 65535 (16 * num2 / den), codePhase := phase.toNat, doppler := dopp
      cn0 := if found then grinderCn0 num den (tcohMs e.tcoh) else 0, channel := 0xFFFF
      flags := e.flags ||| (if r.saturated then 0x20#8 else 0) ||| (if edge && found then 0x80#8 else 0) }, found)

def freePipe (pipe : Nat) (s : State) : State :=
  { s with grinder := { s.grinder with pipes := modAt s.grinder.pipes pipe fun _ => none, completions := sat32 (s.grinder.completions + 1) } }

/-- A running entry completes (R72, Table 4.2). -/
def execGrinderEntryDone (pipe : Nat) (result : SearchResult) (s : State) : Host.Outcome State Fault Refusal :=
  match (s.grinder.pipes[pipe]?).join with
  | none => .next s
  | some n =>
    let e := s.entry n
    if !(s.live && s.on 7 && decide (e.state = .active)) then .next s
    else if e.cancel then .next (moveEntry n .failed 8#8 (freePipe pipe s))
    else match s.sig e.signal e.sat with
      | none => .next (moveEntry n .failed 2#8 (freePipe pipe s))
      | some g =>
        let (e', found) := judge s g e result
        let s := freePipe pipe s
        if found then .next (moveEntry n .found 0 (s.setEntry n { e' with foundAt := s.time.beat }))
        else if e.attempts < e.retries then
          .next (s.setEntry n { e with state := .pending, startBeat := anyBeat, foundAt := s.time.beat + 1, flags := 0, doneBeat := s.time.beat % 65536 })
        else .next (moveEntry n .notFound 0 (s.setEntry n e'))

/-- A cancelled entry stops at the end of its hypothesis; its partial results are discarded (R84). -/
def execEntryCancelled (pipe : Nat) (s : State) : Host.Outcome State Fault Refusal :=
  match (s.grinder.pipes[pipe]?).join with
  | none => .next s
  | some n =>
    if s.live ∧ s.on 7 ∧ (s.entry n).state = .active ∧ (s.entry n).cancel then .next (moveEntry n .failed 8#8 (freePipe pipe s)) else .next s

/-! ### Handover (R81–R83) -/

/-- A tap word of T0–T9. -/
def tapWord (pilot : Bool) (off : Int) : BitVec 16 := BitVec.ofNat 16 (0x8000 + (if pilot then 0x4000 else 0) + (off % 512).toNat)

/-- The default layout (Table 5.6). DEDUCED (log 28). -/
def defaultTaps (g : Sig) : List (BitVec 16) :=
  let t := tapWord g.trackPilot
  [t (-128), t (-96), t (-64), t (-48), t (-32), t 0, t 32, t 64, t 128, if g.pilot && g.hasData then tapWord false 0 else t 192,
   BitVec.ofNat 16 (0x8000 + (if g.trackPilot then 0x4000 else 0) + min (g.length / 2) 16383)]

/-- The sub-band field of the channel: the ring, or the window's stream (R297). -/
def entryStream (s : State) (e : Entry) : Nat :=
  if e.source = 0 then e.subband else 32 + 4 * (e.source - 0x10) + ((s.carafe.cfg.streams.findIdx? (· == e.subband)).getD 0)

/-- Source beat that a channel processes in live beat h (R297). -/
def sourceBeat (s : State) (e : Entry) (h : Nat) : Int := if e.source = 0 then (h : Int) else (h : Int) - ((s.carafe.replay.map (·.offset)).getD 0)

/-- The code phase at the boundary opening beat h, in 1/64 chip (R82). DEDUCED (log 28). -/
def phaseAt (g : Sig) (e : Entry) (h : Int) : Nat :=
  let fd : Rat := ((e.doppler : Int) : Rat) / 1000
  let rate : Rat := (g.chipRate : Rat) * (1 + fd / (((g.carrier : Nat) : Rat) / 1000000))
  let chips := ((e.codePhase : Nat) : Rat) / 64 + rate * ((h - (e.startBeat : Int) : Int) : Rat) / 1000
  (roundRat (chips * 64) % (g.length * 64 : Nat)).toNat

/-- TINT code of a primary period. -/
def tintOfMs (p : Nat) : Nat := ([1, 2, 4, 5, 10, 20, 40, 50, 100].findIdx? (· == p)).getD 0

/-- CARR_WORD and CODE_WORD of a Doppler on a stream (R94, R95). -/
def ncoWords (s : State) (g : Sig) (sb : Nat) (doppHz : Rat) : Int × Nat :=
  let c := s.streamCfg sb
  let fsb := fSb c.rate
  let base : Rat := match s.installInput (s.streamSub sb / 4) with
    | some i => ((basebandConst i c.mixWord g.carrier : Int) : Rat) / (1000000 * 4294967296)
    | none => 0
  let rate : Rat := (g.chipRate : Rat) * (1 + doppHz / (((g.carrier : Nat) : Rat) / 1000000))
  (carrWordOf (base + doppHz) fsb, (codeWordOf rate fsb).toNat)

/-- The channels an entry may take, lowest first (R81). -/
def candidates (e : Entry) : List Nat :=
  if e.target = 0xFFFF then (List.range 2048).filter fun n => e.groupMask.getLsbD (n / 64) else if e.target ≤ 2047 then [e.target] else []

/-- A FOUND entry claims a channel in the beat before it latches (R81, R42). DEDUCED (log 28). -/
def handover (n : Nat) (s : State) : State :=
  let e := s.entry n
  match s.sig e.signal e.sat, (candidates e).find? fun c => (s.chan c).idle && (s.chan c).claim.isNone with
  | some g, some ch =>
    let sb := entryStream s e
    let cost := s.chanCost sb
    if s.admits false cost then
      let (carr, code) := ncoWords s g sb (((e.doppler : Int) : Rat) / 1000)
      let (s, v) := s.openVal 40
      let (s, w) := s.openVal 41
      let k : Claim :=
        { desc := { signal := e.signal, sat := e.sat, subband := sb, state := 1, tint := tintOfMs g.period
                    ctrl := BitVec.ofNat 8 ((if g.hasData then 1 else 0) + (if g.pilot then 2 else 0)), epochMod := 0, carrWord := carr
                    codeWord := code, secIndex := if g.secLen = 0 then 0 else w % g.secLen, taps := defaultTaps g }
          carr := v % 2 ^ 32, code := phaseAt g e (sourceBeat s e (s.time.beat + 1)) * 2 ^ 26 }
      let s := s.reserve ch k
      let s := { s with tracking := { s.tracking with
        tracks := Tab.set Track.reset s.tracking.tracks ch { Tab.get Track.reset s.tracking.tracks ch with handover := true } } }
      moveEntry n .handed 0 (s.setEntry n { e with channel := ch, flags := e.flags &&& ~~~0x10#8 })
    else s.setEntry n { e with flags := e.flags ||| 0x10#8 }
  | _, _ => s

/-- The age of a FOUND entry has passed HANDOVER_AGE (R83). DEDUCED (log 27). -/
def tooOld (s : State) (e : Entry) : Bool := decide (e.foundAt + s.grinder.age.inForce ≤ s.time.beat)

def execHandover (index : Nat) (s : State) : Host.Outcome State Fault Refusal :=
  let e := s.entry index
  if s.live ∧ s.on 7 ∧ (s.on 5 ∨ s.on 6) ∧ e.state = .found ∧ e.target ≠ 0xFFFE ∧ !tooOld s e then .next (handover index s) else .next s

/-- DESIGN CHOICE (log 15). -/
def execHandoverExpired (index : Nat) (s : State) : Host.Outcome State Fault Refusal :=
  let e := s.entry index
  if s.live ∧ s.on 7 ∧ e.state = .found ∧ tooOld s e then .next (moveEntry index .expired 0 s) else .next s

/-- Beat-coded fields of GRINDER_CFG at a boundary (R38). -/
def grinderBoundary (s : State) : State :=
  if s.on 7 then { s with grinder := { s.grinder with reserve := s.grinder.reserve.latch, age := s.grinder.age.latch } } else s

end Sys2Proof.Machine
end

