-- ==== Sys2Proof/Machine/Multipath.lean ====
section
/-! DEFINITION. The multipath estimator (R155–R160). -/

namespace Sys2Proof.Machine
open Sys2Proof

def State.track (s : State) (n : Nat) : Track := Tab.get Track.reset s.tracking.tracks n
def State.setTrack (s : State) (n : Nat) (t : Track) : State :=
  { s with tracking := { s.tracking with tracks := Tab.set Track.reset s.tracking.tracks n t } }

def State.mpChan (s : State) (n : Nat) : MpChan := Tab.get MpChan.reset s.nav.mp n
def State.setMpChan (s : State) (n : Nat) (m : MpChan) : State := { s with nav := { s.nav with mp := Tab.set MpChan.reset s.nav.mp n m } }

/-! ### Dump flags (Table 6.3) -/

def Dump.short (d : Dump) : Bool := d.flags.getLsbD 0
def Dump.partial_ (d : Dump) : Bool := d.flags.getLsbD 1
def Dump.input (d : Dump) : Bool := d.flags.getLsbD 2
def Dump.ring (d : Dump) : Bool := d.flags.getLsbD 3
def Dump.config (d : Dump) : Bool := d.flags.getLsbD 5
def Dump.roll (d : Dump) : Bool := d.flags.getLsbD 7

/-- T4, T5 or T6 is saturated. -/
def Dump.saturated (d : Dump) : Bool := bitOf d.satMask 4 || bitOf d.satMask 5 || bitOf d.satMask 6

/-- The dump is unusable for the loop update (Table 6.3). -/
def Dump.unusable (d : Dump) : Bool := d.saturated || ((d.short || d.input) && decide (2 * d.count < d.nominal))

def Dump.tap (d : Dump) (n : Nat) : Cplx := (d.taps[n]?).getD (0, 0)

/-- |X| of a tap sum. -/
def cabs (x : Cplx) : Rat := Config.fn .sqrt ((x.1 * x.1 + x.2 * x.2 : Int) : Rat)

/-! ### Profiles (R155) -/

/-- Taps T0–T9 that enter the profile: enabled and on the tracking component. -/
def profileTaps (taps : List (BitVec 16)) : List Nat :=
  let pilot := tapPilot ((taps[5]?).getD 0)
  (List.range 10).filter fun t => let w := (taps[t]?).getD 0; tapOn w && tapPilot w == pilot

/-- Close the profile in hand: an older one that was not fitted yet is discarded (R160). -/
def closeProfile (n : Nat) (s : State) : State :=
  let m := s.mpChan n
  match m.acc with
  | none => s
  | some p =>
    let s := if m.ready.isSome then { s with nav := { s.nav with mpSkip := sat32 (s.nav.mpSkip + 1) } } else s
    s.setMpChan n { m with acc := none, ready := some p }

/-- Add one dump to a sum of the profile: (I + jQ) × conj(P) / |P|. -/
def profileTerm (x p : Cplx) (mag : Rat) : Rat × Rat :=
  if mag = 0 then (0, 0)
  else ((((x.1 * p.1 + x.2 * p.2 : Int) : Rat) / mag), (((x.2 * p.1 - x.1 * p.2 : Int) : Rat) / mag))

/-- A dump enters the profile of its channel (R155). -/
def mpDump (d : Dump) (s : State) : State :=
  let c := s.chan d.channel
  let cfg := s.nav.mpCfg.inForce
  if !cfg.enable || !(c.act.state == 2 || c.act.state == 3) || decide ((s.track d.channel).cn0 < cfg.cn0) then s
  else
    let wend := (d.endBeat / cfg.window + 1) * cfg.window
    let s := if (s.mpChan d.channel).acc.any fun p => p.windowEnd != wend then closeProfile d.channel s else s
    let m := s.mpChan d.channel
    let p := m.acc.getD
      { sums := List.replicate 10 (0, 0), dumps := 0, nominal := cfg.window / max 1 (tintMs c.act.tint), taps := c.act.taps, changed := false, windowEnd := wend }
    let p := if p.taps = c.act.taps then p else { p with changed := true }
    let p :=
      if d.unusable || d.partial_ || d.config then p
      else
        let pr := d.tap 5
        let mag := cabs pr
        { p with dumps := p.dumps + 1
                 sums := p.sums.zipIdx.map fun x =>
                   if (profileTaps p.taps).contains x.2 then let v := profileTerm (d.tap x.2) pr mag; (x.1.1 + v.1, x.1.2 + v.2) else x.1 }
    s.setMpChan d.channel { m with acc := some p }

/-- At a boundary the windows whose last slot has been serviced close; records of IDLE channels read zero (R158). -/
def mpBoundary (s : State) : State :=
  let s := { s with nav := { s.nav with mpCfg := s.nav.mpCfg.latch } }
  let s := s.nav.mp.foldl (fun s m => if m.2.acc.any fun p => decide (p.windowEnd + 2 ≤ s.time.beat) then closeProfile m.1 s else s) s
  { s with nav := { s.nav with mp := s.nav.mp.filter fun m => !(s.chan m.1).idle } }

/-! ### Fits (R156–R160) -/

/-- Echoes that the fit may accept (R156, R157): 6 taps for one, 8 for two; each 8/64 to 96/64 chip after the path before it, 0.1 ≤ amplitude < 1. -/
def acceptEchoes (taps : Nat) (f : MpFit) : List (Nat × Nat × Nat) :=
  let n := if taps < 6 then 0 else if taps < 8 then 1 else 2
  let ok (prev : Nat) (e : Nat × Nat × Nat) : Bool := decide (prev + 128 ≤ e.1) && decide (e.1 ≤ 1536) && decide (256 ≤ 10 * e.2.1) && decide (e.2.1 < 256)
  match f.echoes with
  | [] => []
  | [a] => if 1 ≤ n ∧ ok 0 a then [a] else []
  | a :: b :: _ => if 1 ≤ n ∧ ok 0 a then (if n = 2 ∧ ok a.1 b then [a, b] else [a]) else []

/-- The record of a closed window (Table 7.1). DESIGN CHOICE (log 32). -/
def mpRecordOf (cfg : MpCfg) (boc lowCn0 : Bool) (beat : Nat) (p : MpProfile) (f : MpFit) : MpRec :=
  let taps := profileTaps p.taps
  let layout := !(decide (3 ≤ taps.length) && taps.contains 4 && taps.contains 5 && taps.contains 6)
  let valid := !layout && !p.changed && decide (p.nominal ≤ 2 * p.dumps)
  let es := if valid then acceptEchoes taps.length f else []
  let los := if valid then clampI (-512) 512 f.los else 0
  let severe := valid && (decide (cfg.severeDelay ≤ los.natAbs) || es.any fun e => decide (cfg.severeAmp ≤ e.2.1))
  { status := (if valid then 1 else 0) + 2 * es.length + (if severe then 8 else 0) + (if lowCn0 then 16 else 0) + (if layout then 32 else 0) + (if boc then 64 else 0)
    quality := if valid then min 255 f.quality else 0, los := los, echoes := es, windowEnd := p.windowEnd % 65536, beat := beat }

/-- The lowest channel of a loop core whose window has closed (R160). -/
def nextFit (core : Nat) (s : State) : Option Nat :=
  (s.nav.mp.find? fun m => m.2.ready.isSome && (s.fabric.binding[m.1 / 64]?).getD 0 == core).map (·.1)

/-- A fit by a loop core (R157, R160). DESIGN CHOICE (log 32). -/
def execMpFit (core : Nat) (fit : MpFit) (s : State) : Host.Outcome State Fault Refusal :=
  let running := ((s.cores[core + 1]?).map fun c => decide (c.mode = .running)).getD false
  if !(s.live && s.on 8 && running && decide (core ≤ 3)) then .next s
  else match nextFit core s with
    | none => .next s
    | some n =>
      let m := s.mpChan n
      match m.ready with
      | none => .next s
      | some p =>
        let cfg := s.nav.mpCfg.inForce
        let c := s.chan n
        let boc := ((s.sig c.act.signal c.act.sat).map fun g => g.boc).getD false
        let r := mpRecordOf cfg boc (decide ((s.track n).cn0 < cfg.cn0)) s.time.beat p fit
        .next (s.setMpChan n { m with ready := none, record := some r })

/-- The 16 bytes of a multipath record; zero for a channel without one. -/
def mpBytes (n : Nat) (r : Option MpRec) : List Byte :=
  match r with
  | none => rsv 16
  | some r =>
    let e (i : Nat) : List Byte := match r.echoes[i]? with
      | some (d, a, p) => u16 d ++ u8 a ++ u8 p
      | none => rsv 4
    u16 n ++ u8 r.status ++ u8 r.quality ++ i16 r.los ++ e 0 ++ e 1 ++ u16 r.windowEnd

def mpCfgCmd : HostCmd :=
  { opcode := 0x0640, len := .fixed 12, priv := 1
    range := fun q _ =>
      [ (0, q.u 0 1 ≤ 1), (1, q.u 1 1 ≤ 1), (2, 20 ≤ q.u 2 2 && q.u 2 2 ≤ 1000), (4, 2000 ≤ q.u 4 2 && q.u 4 2 ≤ 5000), (6, 4 ≤ q.u 6 1 && q.u 6 1 ≤ 64),
        (7, 32 ≤ q.u 7 1), (8, 16 ≤ q.u 8 2 && q.u 8 2 ≤ 1024) ]
    effect := fun q s =>
      ({ s with nav := { s.nav with
          mpCfg := s.nav.mpCfg.commit ⟨q.u 0 1 == 1, q.u 2 2, q.u 4 2, q.u 6 1, q.u 7 1, q.u 8 2⟩, mpApply := s.nav.mpApply.commit (q.u 1 1 == 1) } }, .ok []) }

def execMpCfg (q : Qcp) (s : State) : Host.Outcome State Fault Refusal := runHost mpCfgCmd q s

def mpReadCmd : HostCmd :=
  { opcode := 0x0641, len := .fixed 4, priv := 0, range := fun q _ => chanRangeCheck q 255
    effect := fun q s => (s, .ok (u32 s.nav.mpSkip ++ ((List.range (q.u 2 2)).map fun i => mpBytes (q.u 0 2 + i) (s.mpChan (q.u 0 2 + i)).record).flatten)) }

def execMpRead (q : Qcp) (s : State) : Host.Outcome State Fault Refusal := runHost mpReadCmd q s

end Sys2Proof.Machine
end

