-- ==== Sys2Proof/Machine/Tracking.lean ====
section
/-! DEFINITION. The loop cores: dump service, discriminators, filters, synchronisation, channel states (R122–R153). -/

namespace Sys2Proof.Machine
open Sys2Proof

/-! ### Profiles and status (R150–R153) -/

/-- The profile that 48 bytes spell (Table 6.11). -/
def profileOf (p : List Byte) : Profile :=
  let u (o n : Nat) := fieldU p o n
  { flags := BitVec.ofNat 8 (u 1 1), pllBw := u 2 2, fllBw := u 4 2, dllBw := u 6 2, pullPllBw := u 8 2, pullFllBw := u 10 2, cn0Track := u 12 2
    cn0Loss := u 14 2, cn0LossSky := u 16 2, pldThr := u 18 2, pullinMax := u 20 2, coastMax := u 22 2, coastMaxSky := u 24 2, tintMax := u 26 1
    slipThr := u 27 1, wMin := u 28 2, wMax := u 30 2, wRate := u 32 2, cn0Vec := u 34 2, cn0Scal := u 36 2, innovCode := u 38 2, innovFreq := u 40 2
    skyHoldoff := u 42 2, bsWindow := u 44 2 }

def Profile.bytes (n : Nat) (p : Profile) : List Byte :=
  u8 n ++ leBytes 1 p.flags.toNat ++ u16 p.pllBw ++ u16 p.fllBw ++ u16 p.dllBw ++ u16 p.pullPllBw ++ u16 p.pullFllBw ++ u16 p.cn0Track ++ u16 p.cn0Loss
  ++ u16 p.cn0LossSky ++ u16 p.pldThr ++ u16 p.pullinMax ++ u16 p.coastMax ++ u16 p.coastMaxSky ++ u8 p.tintMax ++ u8 p.slipThr ++ u16 p.wMin
  ++ u16 p.wMax ++ u16 p.wRate ++ u16 p.cn0Vec ++ u16 p.cn0Scal ++ u16 p.innovCode ++ u16 p.innovFreq ++ u16 p.skyHoldoff ++ u16 p.bsWindow ++ rsv 2

def trackProfileCmd : HostCmd :=
  { opcode := 0x0601, len := .fixed 48, priv := 1
    range := fun q _ =>
      let p := profileOf q.payload
      let r (o lo v hi : Nat) : Int × Bool := ((o : Int), lo ≤ v && v ≤ hi)
      [ r 0 0 (q.u 0 1) 7, r 1 0 (q.u 1 1) 63, r 2 100 p.pllBw 4000, r 4 50 p.fllBw 2000, r 6 10 p.dllBw 5000, r 8 100 p.pullPllBw 4000,
        r 10 50 p.pullFllBw 2000, r 12 1000 p.cn0Track 5000, (14, 500 ≤ p.cn0Loss && p.cn0Loss + 100 ≤ p.cn0Track), r 16 0 p.cn0LossSky p.cn0Loss,
        r 18 16384 p.pldThr 32112, r 20 200 p.pullinMax 10000, r 22 100 p.coastMax 10000, r 24 p.coastMax p.coastMaxSky 30000, r 26 0 p.tintMax 8,
        r 27 16 p.slipThr 128, r 28 0 p.wMin p.wMax, r 30 0 p.wMax 256, r 32 1 p.wRate 256, (34, p.cn0Vec + 100 ≤ p.cn0Scal), r 36 100 p.cn0Scal 6000,
        r 38 64 p.innovCode 2048, r 40 100 p.innovFreq 5000, r 42 0 p.skyHoldoff 10000, r 44 500 p.bsWindow 10000 ]
    effect := fun q s =>
      ({ s with tracking := { s.tracking with profiles := modAt s.tracking.profiles (q.u 0 1) fun c => c.commit (profileOf q.payload) } }, .ok []) }

def execTrackProfile (q : Qcp) (s : State) : Host.Outcome State Fault Refusal := runHost trackProfileCmd q s

def trackAssignCmd : HostCmd :=
  { opcode := 0x0602, len := .fixed 8, priv := 1, range := fun q _ => chanRangeCheck q 2048 ++ ([(4, q.u 4 1 ≤ 7)] : List (Int × Bool))
    effect := fun q s =>
      ((List.range (q.u 2 2)).foldl (fun s i => let t := s.track (q.u 0 2 + i); s.setTrack (q.u 0 2 + i) { t with profile := t.profile.commit (q.u 4 1) }) s, .ok []) }

def execTrackAssign (q : Qcp) (s : State) : Host.Outcome State Fault Refusal := runHost trackAssignCmd q s

def State.profileAt (s : State) (n : Nat) : Coded Profile := (s.tracking.profiles[n]?).getD (.at Profile.reset)

def trackProfileReadCmd : HostCmd :=
  { opcode := 0x0603, len := .fixed 4, priv := 0, range := fun q _ => [(0, q.u 0 1 ≤ 7)]
    effect := fun q s => (s, .ok ((s.profileAt (q.u 0 1)).committed.bytes (q.u 0 1))) }

def execTrackProfileRead (q : Qcp) (s : State) : Host.Outcome State Fault Refusal := runHost trackProfileReadCmd q s

/-- The profile in force for a channel. -/
def State.chanProfile (s : State) (n : Nat) : Profile := (s.profileAt (s.track n).profile.inForce).inForce

def bit8 (b : Bool) (n : Nat) : Nat := if b then 2 ^ n else 0

/-- The 32 bytes of a tracking status record (Table 6.10). -/
def statusBytes (s : State) (n : Nat) : List Byte :=
  let c := s.chan n
  let t := s.track n
  let slip := (t.slipBeat.map fun b => decide (s.time.beat < b + 100)).getD false
  if c.idle then u16 n ++ u8 0 ++ u8 t.reason ++ u8 t.profile.inForce ++ rsv 19 ++ u32 (t.stateBeat % 2 ^ 32) ++ rsv 4
  else
    u16 n ++ u8 c.act.state ++ u8 t.reason ++ u8 t.profile.inForce
    ++ u8 (bit8 t.bitSync 0 + bit8 t.secSync 1 + bit8 t.halfAmbig 2 + bit8 t.fllAssist 3 + bit8 t.dllOpen 4 + bit8 slip 5 + bit8 t.bocLayout 6 + bit8 t.skyBlocked 7)
    ++ u16 t.cn0 ++ i16 t.pld ++ u16 t.weight ++ u16 t.bwPll ++ u16 t.bwDll ++ i16 t.codeErr ++ i16 t.freqErr ++ u32 t.lockTime
    ++ u32 (t.stateBeat % 2 ^ 32) ++ u8 t.slipCount ++ u8 (min 255 c.missed) ++ rsv 2

def trackStatusCmd : HostCmd :=
  { opcode := 0x0610, len := .fixed 4, priv := 0, range := fun q _ => chanRangeCheck q 127
    effect := fun q s => (s, .ok ((List.range (q.u 2 2)).map fun i => statusBytes s (q.u 0 2 + i)).flatten) }

def execTrackStatus (q : Qcp) (s : State) : Host.Outcome State Fault Refusal := runHost trackStatusCmd q s

/-! ### The words of the past beats (R133) -/

/-- The constant terms of R94 in Hz: the baseband frequency of zero Doppler. -/
def zeroDoppler (s : State) (g : Sig) (sb : Nat) : Rat :=
  match s.installInput (s.streamSub sb / 4) with
  | some i => ((basebandConst i (s.streamCfg sb).mixWord g.carrier : Int) : Rat) / (1000000 * 4294967296)
  | none => 0

/-- Carrier in Hz. -/
def Sig.fc (g : Sig) : Rat := ((g.carrier : Nat) : Rat) / 1000000

/-- The code rate that a carrier frequency at baseband implies, without the code-rate state. -/
def codeAid (g : Sig) (zero f : Rat) : Rat := ((g.chipRate : Nat) : Rat) * (1 + (f - zero) / g.fc)

/-- Frequency and code rate latched in a beat: the newest words at or before it. -/
def wordsAt (fsb beat : Nat) (ws : List BeatWords) : Rat × Rat :=
  match (ws.filter fun w => decide (w.beat ≤ beat)).getLast? with
  | some w => (((w.carr * fsb : Int) : Rat) / (2 ^ 48 : Nat), (((w.code * fsb : Nat)) : Rat) / (2 ^ 48 : Nat))
  | none => (0, 0)

/-- Carry errors from one instant to another, both in beats, split at the boundaries between (R133). -/
def carryErrors (g : Sig) (zero r1 r2 q : Rat) (fsb : Nat) (ws : List BeatWords) (tc : Rat) : Nat → Rat → Rat → Rat × Rat → Rat × Rat
  | 0, _, _, e => e
  | n + 1, a, b, e =>
    if b ≤ a then e
    else
      let beat := (floorRat a).toNat
      let top : Rat := clampRat a b ((beat + 1 : Nat) : Rat)
      let dt := (top - a) / 1000
      let m := (a + top) / 2
      let fhat := r1 + r2 * (m - tc) / 1000
      let (f, c) := wordsAt fsb beat ws
      carryErrors g zero r1 r2 q fsb ws tc n top b (e.1 + (fhat - f) * dt, e.2 + (c - (codeAid g zero fhat + q)) * dt)

/-! ### Detectors (R137, R138) -/

/-- C/N0 in 0.01 dB-Hz of a power ratio over T seconds. -/
def cn0Of (num den : Rat) : Nat :=
  if num ≤ 0 then 0
  else if den ≤ 0 then 65535
  else let r := num / den; logSteps 1000 r.num.natAbs r.den 65535

/-- The C/N0 estimate over the dumps of the last `ms` beats (R137). -/
def cn0Estimate (t : Rat) (ms beat : Nat) (ps : List DumpPast) : Option Nat :=
  let us := ps.filter fun p => p.forCn0 && decide (beat < p.beat + ms)
  match us with
  | [] => none
  | u :: _ =>
    let n : Rat := us.length
    let mean (f : DumpPast → Rat) : Rat := (us.map f).foldl (· + ·) 0 / n
    if u.noiseOn then
      let pp := mean (·.pp)
      let pn := mean (·.pn)
      some (if pp ≤ pn then 0 else cn0Of (pp - pn) (pn * t))
    else
      let m2 := mean (·.pp)
      let m4 := mean fun p => p.pp * p.pp
      let x := 2 * m2 * m2 - m4
      let pd := Config.fn .sqrt (if x < 0 then 0 else x)
      let pn := m2 - pd
      some (if pn ≤ 0 then 6000 else cn0Of pd (pn * t))

/-- PLD in 2⁻¹⁵ over the prompts of the last 20 ms, and over at least one dump (R138). -/
def pldEstimate (beat : Nat) (ps : List DumpPast) : Option Int :=
  let us := ps.filter (·.forPld)
  let near := us.filter fun p => decide (beat < p.beat + 20)
  let us := if near.isEmpty then us.take 1 else near
  let i2 := (us.map fun p => p.prompt.1 * p.prompt.1).sum
  let q2 := (us.map fun p => p.prompt.2 * p.prompt.2).sum
  if us.isEmpty then none
  else if i2 + q2 = 0 then some 0
  else some (clampI (-32768) 32767 (roundRat (((i2 - q2 : Int) : Rat) * 32768 / ((i2 + q2 : Int) : Rat))))

/-! ### Synchronisation (R139–R141) -/

inductive SyncKind where
  /-- bit histogram: bit length in ms -/
  | bits (ms : Nat)
  /-- secondary code of this length -/
  | secondary (n : Nat)
  | none
  deriving DecidableEq, Repr

/-- How a signal synchronises, and its data symbol in ms (Table 6.7). -/
def syncOf (g : Sig) (id sat : Nat) : SyncKind × Nat :=
  match id with
  | 0x01 | 0x40 | 0x50 => (.bits 20, 20)
  | 0x60 => (.bits 2, 2)
  | 0x20 | 0x23 => if bdsGeo sat then (.bits 2, 2) else (.secondary 20, 20)
  | 0x30 | 0x31 => (.secondary 20, 20)
  | 0x44 => (.none, 4)
  | 0x02 | 0x21 | 0x41 => (.secondary 1800, 10)
  | 0x03 | 0x42 => (.none, 20)
  | 0x04 | 0x43 | 0x61 => (.secondary 20, 10)
  | 0x10 => (.secondary 25, 4)
  | 0x11 => (.secondary 100, 20)
  | 0x12 => (.secondary 100, 4)
  | 0x13 => (.secondary 100, 1)
  | 0x22 => (.secondary 100, 5)
  | _ =>
    let n := if g.pilot then g.secP else g.secD
    (if n = 0 then .none else .secondary n, g.period * max 1 n)

/-- The data prompt is enabled: T9 on the data component at offset 0, or T5 on the data component (R130). -/
def dataPromptOn (taps : List (BitVec 16)) : Bool :=
  let t9 := (taps[9]?).getD 0
  let t5 := (taps[5]?).getD 0
  (tapOn t9 && !tapPilot t9 && tapOffset t9 == 0) || (tapOn t5 && !tapPilot t5)

/-- The data prompt of a dump. -/
def dataPrompt (taps : List (BitVec 16)) (d : Dump) : Cplx :=
  let t9 := (taps[9]?).getD 0
  if tapOn t9 && !tapPilot t9 && tapOffset t9 == 0 then d.tap 9 else d.tap 5

/-- The largest TINT code that AUTO_TINT may set (R139). -/
def autoTint (g : Sig) (p : Profile) (symbol : Nat) (d : Desc) : Nat :=
  let top := tintMs p.tintMax
  ((List.range 9).filter fun k => decide (tintMs k ≤ top) && tintOk g { d with tint := k } && (!dataPromptOn d.taps || decide (tintMs k ≤ symbol))).foldl max d.tint

/-- Sum over the rotations of a secondary code (R141): Σ over periods of |Σ I × s|. -/
def rotationSum (s : State) (id sat comp n r : Nat) (ps : List Int) : Nat :=
  ((List.range (ps.length / n)).map fun k =>
    ((((ps.drop (k * n)).take n).zipIdx.map fun x => x.1 * s.secChip id sat comp ((x.2 + r) % n)).sum).natAbs).sum

/-- The rotation that the test accepts, among those given. -/
def acceptRotation (s : State) (id sat comp n : Nat) (cands : List Nat) (ps : List Int) : Option Nat :=
  let total := (ps.map Int.natAbs).sum
  let cs := cands.map fun r => (r, rotationSum s id sat comp n r ps)
  match cs with
  | [] => none
  | c :: rest =>
    let best := rest.foldl (fun b x => if b.2 < x.2 then x else b) c
    if 4 * total ≤ 5 * best.2 && (cs.all fun x => x.1 == best.1 || decide (2 * x.2 ≤ best.2)) then some best.1 else none

/-- What one beat-coded synchronisation update writes: EPOCH_MOD, SEC_INDEX, the SECW bits and TINT (R139). -/
structure SyncWrite where
  periodIndex : Nat
  secIndex : Option Nat

/-- Primary periods between the end of a window and the latch boundary: the first that starts at or after it. -/
def periodsTo (g : Sig) (tEnd tL : Rat) : Nat := (ceilRat ((tL - tEnd) / g.period)).toNat

/-- Apply a synchronisation to the shadow of a channel. -/
def writeSync (g : Sig) (p : Profile) (symbol : Nat) (wipe : Bool) (index : Nat) (sec : Option Nat) (c : Chan) : Chan :=
  let ctrl0 := c.shadow.ctrl.getD c.act.ctrl
  let ctrl := if wipe then ctrl0 ||| (if g.secD = 0 then 0 else 4#8) ||| (if g.secP = 0 then 0 else 8#8) else ctrl0
  let d := { c.act with ctrl := ctrl }
  let tint := if p.flags.getLsbD 2 then autoTint g p symbol d else c.shadow.tint.getD c.act.tint
  let per := max 1 (tintMs tint / g.period)
  { c with shadow := { c.shadow with
      ctrl := some ctrl, tint := if tint = c.act.tint then c.shadow.tint else some tint
      epochMod := some (((index : Int) - 1) % (per : Int)).toNat, secIndex := sec } }

/-! ### Vector predictions (R143–R146) -/

def State.prediction (s : State) (n : Nat) : Option Prediction := Tab.get none s.tracking.preds n

/-- Beats between navigation epochs (Table 8.1). -/
def measBeats (rate : Nat) : Nat := ([1000, 500, 200, 100, 50, 20, 10][rate]?).getD 100

/-- STALE (Table 6.9). -/
def predStale (s : State) (p : Option Prediction) : Bool :=
  match p with
  | none => true
  | some p => decide (min (2 * measBeats s.nav.cfg.inForce.rate) 250 * msUnits < s.now - p.ref)

/-- The channel belongs to a Carafe window: it never enters SKY (R297). -/
def Chan.window (c : Chan) : Bool := decide (32 ≤ c.act.subband)

/-- STALE, NAV and INTEGRITY. -/
def vectorBad (s : State) (n : Nat) : Bool :=
  predStale s (s.prediction n) || s.tracking.excluded.contains n || s.tracking.flagged.contains n

/-- Predictions at an instant in beats: code phase, code rate, Doppler (R144). -/
def predictAt (p : Prediction) (t : Rat) : Rat × Rat × Rat :=
  let dt := t / 1000 - ((p.ref : Nat) : Rat) / 64000000000
  (p.phi + p.rate * dt, p.rate, p.dopp + p.doppRate * dt)

/-- A code-phase difference wrapped into half the code length. -/
def wrapChips (len : Nat) (x : Rat) : Rat :=
  let l : Rat := len
  x - l * (floorRat (x / l + 1 / 2))

/-- The channel's code phase in chips at an instant, from the present beat's word. -/
def phaseAtBeat (s : State) (c : Chan) (t : Rat) : Rat :=
  let fsb := fSb (s.streamCfg c.act.subband).rate
  ((c.nco.code : Nat) : Rat) / (2 ^ 48 : Nat) + ((c.act.codeWord * fsb : Nat) : Rat) / (2 ^ 48 : Nat) * (t - s.time.beat) / 1000

/-! ### One dump (R126–R148) -/

/-- What the loop core measures in a dump. -/
structure Meas where
  e : Rat
  ef : Option Rat
  tau : Rat
  dllOpen : Bool

/-- The discriminators (Table 6.4). -/
def discriminate (g : Sig) (taps : List (BitVec 16)) (tSec : Rat) (prev : Option DumpPast) (d : Dump) : Meas :=
  let t4 := (taps[4]?).getD 0
  let t5 := (taps[5]?).getD 0
  let t6 := (taps[6]?).getD 0
  let pilot := tapPilot t5
  let p := d.tap 5
  let ratio (a b : Int) : Rat := if b = 0 then 0 else ((a : Int) : Rat) / ((b : Int) : Rat)
  let e := if pilot then Config.atan2 ((p.2 : Int) : Rat) ((p.1 : Int) : Rat) else if p.1 = 0 then 0 else Config.fn .atan (ratio p.2 p.1)
  let ef := prev.map fun x =>
    let cross := x.prompt.1 * p.2 - p.1 * x.prompt.2
    let dot := x.prompt.1 * p.1 + x.prompt.2 * p.2
    (if pilot then Config.atan2 ((cross : Int) : Rat) ((dot : Int) : Rat) else if dot = 0 then 0 else Config.fn .atan (ratio cross dot)) / tSec
  let boc := if pilot then g.bocP else g.bocD
  let sp := (tapOffset t6).natAbs
  let closed := tapOn t4 && tapOn t6 && (tapPilot t4 == pilot) && (tapPilot t6 == pilot) && tapOffset t4 == -(tapOffset t6)
    && (if boc then decide (sp ≤ 10) else decide (sp ≤ 64))
  let dd : Rat := ((sp : Nat) : Rat) / 64
  let l := cabs (d.tap 6)
  let er := cabs (d.tap 4)
  let tau := if !closed || l + er = 0 then 0 else (if boc then (1 - 3 * dd) / 3 else 1 - dd) * (l - er) / (l + er)
  { e := e, ef := ef, tau := tau, dllOpen := !closed }

/-- B_eff (R136), in Hz. -/
def bEff (b t : Rat) : Rat := let lim := 1 / 4 / (t + 1 / 500); if b ≤ lim then b else lim

/-- The carrier filter (Table 6.6): r1, r2 and the command. -/
def carrierFilter (pll3 fll2 : Bool) (bp bf t ep ef r1 r2 : Rat) : Rat × Rat × Rat :=
  let wp := if pll3 then bp * 10000 / 7845 else bp * 100 / 53
  let wf := if fll2 then bf * 100 / 53 else 4 * bf
  let a2 : Rat := 1414 / 1000
  let a3 : Rat := 11 / 10
  let b3 : Rat := 24 / 10
  let fl := if fll2 then a2 * wf * ef else wf * ef
  let r2 := if pll3 then (if fll2 then r2 + t * (wp * wp * wp * ep + wf * wf * ef) else r2 + t * (wp * wp * wp * ep))
    else if fll2 then r2 + t * (wf * wf * ef) else 0
  let r1 := if pll3 then r1 + t * (r2 + a3 * wp * wp * ep + fl) else if fll2 then r1 + t * (r2 + wp * wp * ep + fl) else r1 + t * (wp * wp * ep + fl)
  (r1, r2, r1 + (if pll3 then b3 * wp * ep else a2 * wp * ep))

/-- kp of R144. -/
def kpOf (pll3 : Bool) (bp : Rat) : Rat := if pll3 then 24 / 10 * (bp * 10000 / 7845) else 1414 / 1000 * (bp * 100 / 53)

/-- The code command (R135): q and c_cmd for an aid. -/
def codeFilter (dll2 : Bool) (b t taup q aid : Rat) : Rat × Rat :=
  if dll2 then let w := b * 100 / 53; let q := q - t * w * w * taup; (q, aid + q - 1414 / 1000 * w * taup)
  else (q, aid - 4 * b * taup)

/-- A channel's words for t_L go to its shadow, or to the shadow of the next latch when they miss the boundary (R17, R35). -/
def writeWords (late : Option Nat) (carr : Int) (code : Nat) (c : Chan) : Chan :=
  match late with
  | none => { c with shadow := { c.shadow with carrWord := some carr, codeWord := some code } }
  | some k => { c with late := { c.late with carrWord := some carr, codeWord := some code }, lateBy := k }

/-- Detectors and histories after a dump (R128, R137, R138, R148). -/
def detect (beat : Nat) (d : Dump) (cfgT10 : Bool) (tSec : Rat) (fsb : Nat) (p : Profile) (t : Track) : Track :=
  let bad := d.unusable
  let scale : Rat := if d.count < d.nominal ∧ d.count ≠ 0 then ((d.nominal : Nat) : Rat) / d.count else 1
  let pw (x : Cplx) : Rat := ((x.1 * x.1 + x.2 * x.2 : Int) : Rat) * scale * scale
  let use := !bad && !d.partial_ && !d.ring && !d.config
  let r : DumpPast := { beat := d.endBeat + 2, seq := d.seq, count := d.count, prompt := d.tap 5, noise := d.tap 10, pp := pw (d.tap 5), pn := pw (d.tap 10)
                        forCn0 := use, forPld := use, noiseOn := cfgT10 }
  let past := if bad then t.past else (r :: t.past).filter fun x => decide (beat < x.beat + 1000)
  let _ := fsb
  let cn0 := (cn0Estimate tSec (if t.cn0 < 2000 then 1000 else 100) beat past).getD t.cn0
  let pld := (pldEstimate beat past).getD t.pld
  let up := decide ((p.pldThr : Int) ≤ pld)
  let dt := beat - t.lastBeat
  let drop := if up then none else some (t.dropSince.getD beat)
  let slipDrop := !t.dropCounted && (drop.map fun b => decide (b + 20 ≤ beat)).getD false && t.pldSince.isNone
  let t := { t with past := past, cn0 := cn0, pld := pld, pldSince := if up then some (t.pldSince.getD beat) else none, dropSince := drop
                    dropCounted := if up then false else t.dropCounted, lockTime := if up then min 0xFFFFFFFF (t.lockTime + dt) else 0
                    unusable := if bad then t.unusable + 1 else 0, lastBeat := beat }
  if slipDrop && decide (t.slipCount < 256) then
    { t with dropCounted := true, slipCount := (t.slipCount + 1) % 256, slipBeat := some beat, lockTime := 0 }
  else t

/-- A slip (R148). -/
def Track.slip (beat : Nat) (t : Track) : Track := { t with slipCount := (t.slipCount + 1) % 256, slipBeat := some beat, lockTime := 0 }

/-- The side-peak check while BOC_LAYOUT is set (R132): the track and the code moved, in chips, by a one-beat rate change. -/
def sidePeak (beat : Nat) (d : Dump) (t : Track) : Track × Rat :=
  if !t.bocLayout || d.unusable then (t, 0)
  else
    let add (i n : Nat) : Nat := (t.shape[i]?).getD 0 + (floorRat (cabs (d.tap n))).toNat
    let (a, b, c) := (add 0 3, add 1 5, add 2 7)
    if t.shapeCount + 1 < 20 then ({ t with shape := [a, b, c], shapeCount := t.shapeCount + 1 }, 0)
    else if b < a ∨ b < c then ({ t with shape := [0, 0, 0], shapeCount := 0 }.slip beat, if a < c then -1/2 else 1/2)
    else ({ t with shape := [0, 0, 0], shapeCount := 0 }, 0)

/-- ACC_SHIFT (R129): the CTRL to write, at most one change per 100 ms. -/
def accShift (beat : Nat) (d : Dump) (c : Chan) (t : Track) : Chan × Track :=
  let ctrl := c.shadow.ctrl.getD c.act.ctrl
  let sh := ctrl.toNat / 16 % 8
  let p := d.tap 5
  let quiet := decide (p.1 * p.1 + p.2 * p.2 < 68719476736)
  let t := { t with quietSince := if quiet then some (t.quietSince.getD beat) else none }
  let set (v : Nat) : BitVec 8 := BitVec.ofNat 8 (ctrl.toNat % 16 + 16 * v)
  if beat < t.shiftBeat + 100 ∧ t.shiftBeat ≠ 0 then (c, t)
  else if bitOf d.satMask 5 ∧ sh < 7 then ({ c with shadow := { c.shadow with ctrl := some (set (sh + 1)) } }, { t with shiftBeat := beat })
  else if sh ≠ 0 ∧ (t.quietSince.map fun b => decide (b + 1000 ≤ beat)).getD false then
    ({ c with shadow := { c.shadow with ctrl := some (set (sh - 1)) } }, { t with shiftBeat := beat, quietSince := some beat })
  else (c, t)

/-- Synchronisation on a dump (R139–R141). -/
def synchronise (s : State) (g : Sig) (p : Profile) (beat : Nat) (tEnd tL : Rat) (d : Dump) (c : Chan) (t : Track) : Chan × Track :=
  let a := c.act
  let (kind, symbol) := syncOf g a.signal a.sat
  let usable := !d.unusable && !d.partial_
  let locked := decide ((p.pldThr : Int) ≤ t.pld)
  let j := periodsTo g tEnd tL
  match kind with
  | .none => (c, t)
  | .bits ms =>
    if t.bitSync || a.tint != 0 || !locked || a.state == 4 then (c, t)
    else
      let n := ms / g.period
      let t := if t.bins.length = n then t else { t with bins := List.replicate n 0, binStart := beat }
      let cur := (dataPrompt a.taps d).1
      let prev := match t.past with
        | _ :: x :: _ => if (x.seq + 1) % 32 = d.seq then some x.prompt.1 else none
        | _ => none
      let hit := usable && (prev.map fun v => decide ((0 < v ∧ cur < 0) ∨ (v < 0 ∧ 0 < cur))).getD false
      let t := if hit then { t with bins := modAt t.bins ((t.periods + n - 1) % n) (· + 1) } else t
      if beat < t.binStart + p.bsWindow then (c, t)
      else
        let top := t.bins.foldl max 0
        let idx := (t.bins.findIdx? (· == top)).getD 0
        let second := (t.bins.zipIdx.filter fun x => x.2 != idx).foldl (fun m x => max m x.1) 0
        if 10 ≤ top ∧ 4 * second ≤ top then
          (writeSync g p symbol false ((t.periods + j + n - idx) % n) none c, { t with bitSync := true, bins := [] })
        else (c, { t with bins := List.replicate n 0, binStart := beat })
  | .secondary n =>
    if t.secSync then
      if d.roll ∧ (t.periods + n - t.secBase % n) % n ≠ 0 then (c, { t with secSync := false, secPrompts := [] }) else (c, t)
    else if tintMs a.tint ≠ g.period || a.state == 4 then (c, t)
    else if d.unusable then (c, { t with secPrompts := [] })
    else
      let comp := if tapPilot ((a.taps[5]?).getD 0) then 1 else 0
      let ps := t.secPrompts ++ [(d.tap 5).1]
      let timed := timeWithin s g
      let need := if timed || decide (100 < n) then n else 2 * n
      if ps.length < need then (c, { t with secPrompts := ps })
      else
        let cands := if timed then [(Config.openWord 45 (s.freeCtr + d.channel * 65536 + d.endBeat)).toNat % n] else List.range n
        match acceptRotation s a.signal a.sat comp n cands ps with
        | some r =>
          let next := (ps.length + r) % n
          let sec := (next + j) % n
          (writeSync g p symbol true sec (some sec) c, { t with secSync := true, secPrompts := [], secBase := (t.periods + n - next) % n })
        | none => (c, { t with secPrompts := [] })

/-- Move to a state: the shadow of STATE and the reason (R122, R123). -/
def goState (st reason : Nat) (c : Chan) (t : Track) : Chan × Track := ({ c with shadow := { c.shadow with state := some st } }, { t with why := reason })

/-- Entry to COAST: what the way back depends on (R123, R124). -/
def toCoast (reason : Nat) (vec : Bool) (p : Profile) (c : Chan) (t : Track) : Chan × Track :=
  let (c', t) := goState 4 reason c t
  (c', { t with coastFrom := c.act.state, coastThr := if c.act.state = 3 then p.cn0LossSky else p.cn0Loss, coastVec := vec })

/-- The fallback conditions hold (Table 6.9). -/
def blocked (s : State) (n : Nat) (p : Profile) (c : Chan) (t : Track) : Bool :=
  vectorBad s n || decide (3 ≤ t.innov) || !p.flags.getLsbD 0 || c.window

/-- Table 6.2 in row order: the first row that holds applies. DEDUCED (log 31). -/
def transitions (s : State) (g : Sig) (n : Nat) (p : Profile) (tSec : Rat) (c : Chan) (t : Track) : Chan × Track :=
  let beat := s.time.beat
  let st := c.act.state
  let age := beat - t.stateBeat
  let run := st == 1 || st == 2 || st == 3
  let pldOk := decide ((p.pldThr : Int) ≤ t.pld)
  let pld100 := (t.pldSince.map fun b => decide (b + 100 ≤ beat)).getD false
  let vec := !vectorBad s n
  let cn0100 := (cn0Estimate tSec 100 beat t.past).getD 0
  let back := decide (t.coastThr + 300 ≤ cn0100)
  let coastMax := if t.coastVec then p.coastMaxSky else p.coastMax
  if run && decide (2 ≤ c.missed) then toCoast 0x03 vec p c t
  else if run && decide (3 ≤ t.unusable) then toCoast 0x04 vec p c t
  else if st == 1 && decide (p.pullinMax ≤ age) then goState 5 0x05 c t
  else if st == 1 && decide (200 ≤ age) && decide (t.cn0 < p.cn0Loss) then goState 5 0x06 c t
  else if st == 1 && pld100 && decide (t.pullThr ≤ t.cn0) && decide (t.freqErr.natAbs < 200) then
    let (c, t) := goState 2 0x07 c t
    (c, if tapPilot ((c.act.taps[5]?).getD 0) then { t with halfAmbig := false } else t)
  else if st == 2 && decide (t.cn0 < p.cn0Loss) then toCoast 0x08 vec p c t
  else if st == 3 && decide (t.cn0 < p.cn0LossSky) then toCoast 0x09 vec p c t
  else if st == 3 && blocked s n p c t then
    let (c, t) := goState 2 0x0A c t
    (c, { t with weight := 0 })
  else if st == 2 && p.flags.getLsbD 0 && !c.window && pldOk && !blocked s n p c t && decide (t.clearBeat + p.skyHoldoff ≤ beat) then
    let (c, t) := goState 3 0x0B c t
    (c, { t with weight := 0 })
  else if st == 4 && back && pld100 then goState (if t.coastFrom = 3 then 3 else 2) 0x0C c t
  else if st == 4 && back then
    let (c, t) := goState 1 0x0D c t
    ({ c with shadow := { c.shadow with tint := some (tintOfMs g.period) } }, { t with pullThr := t.coastThr + 300, ferrSince := none, pullPhase := false })
  else if st == 4 && decide (coastMax ≤ age) then goState 5 0x0E c t
  else (c, t)

/-- The first write after PULL-IN takes effect: filter states, and the BOC(1,1) layout after a handover (R131, R135). -/
def firstService (g : Sig) (fsb : Nat) (c : Chan) (t : Track) : Chan × Track :=
  if t.init then (c, t)
  else
    let t := { t with init := true, r1 := ((c.act.carrWord * fsb : Int) : Rat) / (2 ^ 48 : Nat), r2 := 0, q := 0 }
    if t.handover && g.boc then
      let w (o : Int) := some (tapWord g.trackPilot o)
      ({ c with shadow := { c.shadow with
          taps := modAt (modAt (modAt (modAt c.shadow.taps 3 fun _ => w (-32)) 4 fun _ => w (-8)) 6 fun _ => w 8) 7 fun _ => w 32 } },
       { t with bocLayout := true, shape := [0, 0, 0], shapeCount := 0 })
    else (c, t)

/-- The update of one usable dump in PULL-IN, TRACK or SKY (R133–R136, R144, R145): the channel words and the track. DEDUCED (log 31). -/
def closeLoops (s : State) (g : Sig) (n : Nat) (p : Profile) (d : Dump) (fsb : Nat) (tSec tc tL jump : Rat) (late : Option Nat) (m : Meas) (c : Chan) (t : Track) : Chan × Track :=
  let beat := s.time.beat
  let zero := zeroDoppler s g c.act.subband
  let st := c.act.state
  let (ep, taup) := carryErrors g zero t.r1 t.r2 t.q fsb t.words tc 256 tc tL (m.e, m.tau)
  let pldOk := decide ((p.pldThr : Int) ≤ t.pld)
  let slipDiff := match t.predicted with
    | some (t0, e0) =>
      let (ep, _) := carryErrors g zero t.r1 t.r2 t.q fsb t.words t0 256 t0 tc (e0, 0)
      (st == 2 || st == 3) && (t.pldSince.map fun b => decide (b + 100 ≤ beat)).getD false && decide (((p.slipThr : Nat) : Rat) / 256 < absRat (m.e - ep))
    | none => false
  let efOk := if d.partial_ then none else m.ef
  let t := match efOk with
    | some v => if absRat v < 5 then { t with ferrSince := some (t.ferrSince.getD beat) } else { t with ferrSince := none }
    | none => t
  let t := if st = 1 ∧ (t.ferrSince.map fun b => decide (b + 20 ≤ beat)).getD false then { t with pullPhase := true } else t
  let ef := if st = 1 then efOk.getD 0 else if pldOk then 0 else efOk.getD 0
  let epUsed := if st = 1 ∧ !t.pullPhase then 0 else ep
  let bp := bEff (((if st = 1 then p.pullPllBw else p.pllBw : Nat) : Rat) / 100) tSec
  let bf := bEff (((if st = 1 then p.pullFllBw else p.fllBw : Nat) : Rat) / 100) tSec
  let bd := bEff (((p.dllBw : Nat) : Rat) / 1000) tSec
  let pll3 := p.flags.getLsbD 3
  let (r1, r2, fsc) := carrierFilter pll3 (p.flags.getLsbD 5) bp bf tSec epUsed ef t.r1 t.r2
  let dllOff := m.dllOpen || d.config
  let target : Int := roundRat (((p.wMin : Nat) : Rat) + (((p.wMax : Int) - p.wMin : Int) : Rat) * (((p.cn0Scal : Int) - t.cn0 : Int) : Rat) / (((p.cn0Scal : Int) - p.cn0Vec : Int) : Rat))
  let target := (clampI p.wMin p.wMax target).toNat
  let step := p.wRate * max 1 (beat - t.lastBeat)
  let w := if st = 3 then (if t.weight < target then min target (t.weight + step) else max target (t.weight - step)) else 0
  let wn : Rat := ((w : Nat) : Rat) / 256
  let (fcmd, r1') := match s.prediction n with
    | some v =>
      if st = 3 then
        let (_, _, dop) := predictAt v tL
        let fp := zero + dop
        (fsc + wn * (fp + kpOf pll3 bp * epUsed - fsc), r1 + wn * (fp - r1))
      else (fsc, r1)
    | none => (fsc, r1)
  let aid := codeAid g zero fcmd
  let (q, csc) := if dllOff then (t.q, if m.dllOpen then aid else aid + (if p.flags.getLsbD 4 then t.q else 0)) else codeFilter (p.flags.getLsbD 4) bd tSec taup t.q aid
  let (ccmd, codeDiff) := match s.prediction n with
    | some v =>
      let (phi, rate, _) := predictAt v tL
      let diff := wrapChips g.length (phi - phaseAtBeat s c tL)
      (if st = 3 then csc + wn * (rate + diff * 50 - csc) else csc, diff)
    | none => (csc, 0)
  let ccmd := ccmd + jump * 1000
  let innovNow := match s.prediction n with
    | some v =>
      let (_, _, dop) := predictAt v tL
      decide (((p.innovCode : Nat) : Rat) / 1024 < absRat codeDiff) || decide (((p.innovFreq : Nat) : Rat) / 100 < absRat (zero + dop - t.r1))
    | none => false
  let ferr : Rat := if st = 3 then (match s.prediction n with
    | some v => zero + (predictAt v tL).2.2 - r1
    | none => 0) else m.ef.getD 0
  let t := if slipDiff then t.slip beat else t
  let t := { t with
    r1 := r1', r2 := r2, q := q, weight := w, fllAssist := (st == 2 || st == 3) && !pldOk, dllOpen := m.dllOpen
    bwPll := min 65535 (roundRat (bp * 100)).toNat, bwDll := min 65535 (roundRat (bd * 1000)).toNat
    codeErr := clampI (-32768) 32767 (roundRat (m.tau * 1024)), freqErr := clampI (-32768) 32767 (roundRat (ferr * 100))
    predicted := some (tc, m.e), innov := if innovNow then t.innov + 1 else 0 }
  (writeWords late (carrWordOf fcmd fsb) (codeWordOf ccmd fsb).toNat c, t)

/-- COAST steers open loop: the vector prediction, or the last frequency (R147). -/
def coastSteer (s : State) (g : Sig) (n : Nat) (fsb : Nat) (tL : Rat) (late : Option Nat) (c : Chan) (t : Track) : Chan × Track :=
  let zero := zeroDoppler s g c.act.subband
  let hold :=
    let last : Rat := (t.predicted.map (·.1)).getD tL
    let f := t.r1 + t.r2 * (tL - last) / 1000
    (f, codeAid g zero f)
  let (f, code) := match s.prediction n with
    | some v =>
      if vectorBad s n || c.window then hold
      else
        let (phi, rate, dop) := predictAt v tL
        (zero + dop, rate + wrapChips g.length (phi - phaseAtBeat s c tL) * 50)
    | none => hold
  (writeWords late (carrWordOf f fsb) (codeWordOf code fsb).toNat c, { t with coastVec := t.coastVec && !vectorBad s n })

/-- One record serviced by a loop core; `late`: its words miss the boundary by so many clocks. DESIGN CHOICE (log 32). -/
def serveDump (late : Option Nat) (d : Dump) (s : State) : State :=
  let n := d.channel
  let c := s.chan n
  let t := s.track n
  match s.sig c.act.signal c.act.sat with
  | none => s
  | some g =>
    if c.act.state = 0 then s
    else
      let beat := s.time.beat
      let p := s.chanProfile n
      let fsb := fSb (s.streamCfg c.act.subband).rate
      let per := fsb / 1000
      let tSec : Rat := ((d.count : Nat) : Rat) / fsb
      let tEnd : Rat := ((d.endBeat : Nat) : Rat) + ((d.endSample + 1 : Nat) : Rat) / per
      let tc := tEnd - ((d.nominal : Nat) : Rat) / per / 2
      let tL : Rat := ((beat + 1 + (if late.isSome then 1 else 0) : Nat) : Rat)
      let (c, t) := firstService g fsb c t
      let delta := (t.lastSeq.map fun q => (d.seq + 32 - q) % 32).getD 1
      let t := { t with periods := t.periods + delta * (tintMs c.act.tint / g.period), lastSeq := some d.seq }
      let prev := match t.past with
        | x :: _ => if (x.seq + 1) % 32 = d.seq ∧ x.count = d.count then some x else none
        | [] => none
      let m := discriminate g c.act.taps tSec prev d
      let lastBeat := t.lastBeat
      let t := detect beat d (tapOn ((c.act.taps[10]?).getD 0)) tSec fsb p t
      let (c, t) := accShift beat d c t
      let (t, jump) := sidePeak beat d t
      let (c, t) :=
        if c.act.state = 5 then (c, t)
        else if c.act.state = 4 then coastSteer s g n fsb tL late c t
        else if d.unusable then (c, t)
        else
          let (c, t') := closeLoops s g n p d fsb tSec tc tL jump late m c { t with lastBeat := lastBeat }
          (c, { t' with lastBeat := beat })
      let (c, t) := if c.act.state = 5 then (c, t) else synchronise s g p beat tEnd tL d c t
      let t := { t with skyBlocked := blocked s n p c t, clearBeat := if blocked s n p c t then beat else t.clearBeat }
      let (c, t) := transitions s g n p tSec c t
      mpDump d ((s.setChan n c).setTrack n t)

/-- The groups bound to a loop core, from the one after the last it completed (R126). -/
def serviceOrder (s : State) (core : Nat) : List Nat :=
  let gs := (List.range 32).filter fun g => (s.fabric.binding[g]?).getD 0 == core
  let last := (s.fabric.lastGroup[core]?).getD 31
  (gs.filter fun g => decide (last < g)) ++ gs.filter fun g => decide (g ≤ last)

/-- The records of the slot that a loop core has not used, in its order. -/
def serviceQueue (s : State) (core : Nat) : List Dump :=
  ((serviceOrder s core).map fun g => s.fabric.slot.filter fun d => d.channel / 64 == g && !d.served).flatten

/-- The last group all of whose records are served, in service order. -/
def lastDone (s : State) (core : Nat) : Nat :=
  let order := serviceOrder s core
  let done := order.takeWhile fun g => s.fabric.slot.all fun d => d.channel / 64 != g || d.served
  (done.getLast?).getD ((s.fabric.lastGroup[core]?).getD 31)

def markServed (d : Dump) (s : State) : State :=
  { s with fabric := { s.fabric with slot := s.fabric.slot.map fun x => if x.channel = d.channel ∧ x.seq = d.seq then { x with served := true } else x } }

/-- A loop core that runs. -/
def coreRunning (s : State) (n : Nat) : Bool := ((s.cores[n]?).map fun c => decide (c.mode ≠ .stopped) && decide (c.mode ≠ .frozen)).getD false

/-- A loop core services records of the slot of beat k − 2: `count` of them complete before the boundary, and one more is late (R126). DESIGN CHOICE (log 32). -/
def execDumpService (core count : Nat) (late : Option Nat) (s : State) : Host.Outcome State Fault Refusal :=
  if !(s.live && s.on 8 && decide (core ≤ 3) && coreRunning s (core + 1)) then .next s
  else
    let q := serviceQueue s core
    let s' := (q.take count).foldl (fun s d => markServed d (serveDump none d s)) s
    let s' := match late, q.drop count with
      | some k, d :: _ => markServed d (serveDump (some k) d s')
      | _, _ => s'
    .next { s' with fabric := { s'.fabric with lastGroup := modAt s'.fabric.lastGroup core fun _ => lastDone s' core } }

/-! ### Timed transitions (Table 6.2) -/

def execPullinTimeout (channel : Nat) (s : State) : Host.Outcome State Fault Refusal :=
  let c := s.chan channel
  let t := s.track channel
  if s.live ∧ s.on 8 ∧ c.act.state = 1 ∧ t.stateBeat + (s.chanProfile channel).pullinMax ≤ s.time.beat then
    let (c, t) := goState 5 0x05 c t
    .next ((s.setChan channel c).setTrack channel t)
  else .next s

def execCoastTimeout (channel : Nat) (s : State) : Host.Outcome State Fault Refusal :=
  let c := s.chan channel
  let t := s.track channel
  let p := s.chanProfile channel
  if s.live ∧ s.on 8 ∧ c.act.state = 4 ∧ t.stateBeat + (if t.coastVec then p.coastMaxSky else p.coastMax) ≤ s.time.beat then
    let (c, t) := goState 5 0x0E c t
    .next ((s.setChan channel c).setTrack channel t)
  else .next s

/-! ### Boundary (R123, R125, R150, R152) -/

/-- CHAN_STATE notices of channels that changed state, in channel order (R152). -/
def chanStateNotices (ns : List Nat) (s : State) : State :=
  let ns := ns.filter fun n => (s.chanProfile n).flags.getLsbD 1
  let rec go : Nat → List Nat → State → State
    | 0, _, s => s
    | _, [], s => s
    | k + 1, ns, s =>
      let h := ns.take 127
      go k (ns.drop 127) (s.notify 0x8610 (s.beatBytes ++ u16 h.length ++ rsv 6 ++ (h.map (statusBytes s)).flatten))
  go 17 ns s

/-- A LOST channel becomes IDLE at the boundary after LOST took effect (R123). DESIGN CHOICE (log 15). DEDUCED (log 31). -/
def execChannelRelease (channel : Nat) (s : State) : Host.Outcome State Fault Refusal :=
  let c := s.chan channel
  let t := s.track channel
  if s.live ∧ c.act.state = 5 ∧ t.stateBeat < s.time.beat ∧ s.time.tick = 0 then
    let s := s.setChan channel { c with act := { c.act with state := 0 }, cost := 0, shadow := Shadow.none, late := Shadow.none, due := false, stop := false }
    .next (chanStateNotices [channel] (s.setTrack channel { Track.reset with profile := t.profile, reason := 0x0F, stateBeat := s.time.beat }))
  else .next s

/-- The lowest FREE device entry. -/
def freeDeviceEntry (s : State) : Option Nat := (List.range 8192).find? fun n => decide ((s.entry n).state = .free)

/-- The reacquisition entry of a channel that entered LOST (R125). DEDUCED (log 28). -/
def reacquire (n : Nat) (s : State) : State :=
  let c := s.chan n
  let a := c.act
  match s.sig a.signal a.sat, freeDeviceEntry s with
  | some g, some idx =>
    if !s.on 7 || c.window then s
    else
      let fsb := fSb (s.streamCfg a.subband).rate
      let tL : Rat := ((s.time.beat + 1 : Nat) : Rat)
      let zero := zeroDoppler s g a.subband
      let (phi, dopp) := match s.prediction n with
        | some v => if vectorBad s n then (phaseAtBeat s c tL, ((a.carrWord * fsb : Int) : Rat) / (2 ^ 48 : Nat) - zero)
          else let (phi, _, dop) := predictAt v tL; (phi, dop)
        | none => (phaseAtBeat s c tL, ((a.carrWord * fsb : Int) : Rat) / (2 ^ 48 : Nat) - zero)
      let (s, tag) := s.openVal 42
      let (s, mask) := s.openVal 43
      s.setEntry idx
        { Entry.reset with
          state := .pending, priority := 1, signal := a.signal, sat := a.sat, subband := a.subband, source := 0
          tcoh := if g.period = 10 then 4 else if g.period = 20 then 5 else if g.period = 5 then 3 else 2, noncoh := 5, dstep := 1, pfaExp := 3
          thr := 0, ratio := 24, retries := 4, tag := tag % 65536, codeStart := (roundRat ((phi - 4) * 64) % (g.length * 64 : Nat)).toNat
          codeSpan := min 512 (g.length * 64), doppCentre := roundRat (dopp * 1000), doppHalf := 100, target := n, groupMask := BitVec.ofNat 32 mask
          startBeat := anyBeat, foundAt := s.time.beat + 1, doneBeat := s.time.beat % 65536 }
  | _, _ => s

/-- The state of a channel that changed at this boundary. -/
def trackChange (n prev cur : Nat) (t : Track) (thr beat : Nat) : Track :=
  if cur = 0 then { Track.reset with profile := t.profile, reason := 0x02, stateBeat := beat }
  else if prev = 0 then
    { Track.reset with profile := t.profile, handover := t.handover, reason := 0x01, stateBeat := beat, halfAmbig := true, pullThr := thr
                       lastBeat := beat, clearBeat := beat }
  else
    let _ := n
    { t with reason := t.why, stateBeat := beat, predicted := none, handover := false
             ferrSince := if cur = 1 then none else t.ferrSince, pullPhase := if cur = 1 then false else t.pullPhase }

/-- The loop cores' part of a boundary: profiles latch, states take effect, LOST channels ask for reacquisition, notices (R150–R152). -/
def trackBoundary (s : State) : State :=
  let s : State := { s with tracking := { s.tracking with
    profiles := s.tracking.profiles.map Coded.latch
    tracks := s.tracking.tracks.map fun (t : Nat × Track) => (t.1, { t.2 with profile := t.2.profile.latch }) } }
  let beat := s.time.beat
  let changed := (s.fabric.chans.filter fun (c : Nat × Chan) => c.2.prev.desc.state != c.2.act.state).map (·.1)
  let s := changed.foldl (fun s n =>
    let c := s.chan n
    s.setTrack n (trackChange n c.prev.desc.state c.act.state (s.track n) (s.chanProfile n).cn0Track beat)) s
  let s := s.fabric.chans.foldl (fun s (c : Nat × Chan) =>
    if c.2.idle then s
    else
      let t := s.track c.1
      s.setTrack c.1 { t with words := pushCap 128 t.words { beat := beat, state := c.2.act.state, carr := c.2.act.carrWord, code := c.2.act.codeWord } }) s
  let s := (changed.filter fun n => (s.chan n).act.state == 5).foldl (fun s n => reacquire n s) s
  chanStateNotices changed s

end Sys2Proof.Machine
end

