-- ==== Sys2Proof/Machine/Carafe.lean ====
section
/-! DEFINITION. The Carafe: recording, triggers and windows (R288–R296, R301), SUBBAND_SET and EVENT_CAPTURE, which depend on it. -/

namespace Sys2Proof.Machine
open Sys2Proof

def State.modCarafe (s : State) (f : Carafe → Carafe) : State := { s with carafe := f s.carafe }
def State.window (s : State) (w : Nat) : HistWindow := (s.carafe.windows[w]?).getD HistWindow.reset
def State.modWindow (s : State) (w : Nat) (f : HistWindow → HistWindow) : State := s.modCarafe fun c => { c with windows := modAt c.windows w f }

def HistWindow.held (w : HistWindow) : Bool := decide (w.state ≠ .free)
def HistWindow.beats (w : HistWindow) : Nat := w.last + 1 - w.first
def HistWindow.has (w : HistWindow) (beat : Nat) : Bool := w.held && decide (w.first ≤ beat) && decide (beat ≤ w.last)

def Carafe.anyHeld (c : Carafe) : Bool := c.windows.any HistWindow.held

/-- Slots that belong to held windows. -/
def Carafe.frozen (c : Carafe) : Nat := ((c.windows.filter HistWindow.held).map HistWindow.beats).sum

/-- CARAFE_EVENT (R301).  SOURCE is the trigger's bit; where there is no trigger it is a free value. DEDUCED (log 47). -/
def State.carafeEvent (s : State) (w kind : Nat) (source : Option Nat) : State :=
  let (s, v) := match source with
    | some b => (s, b)
    | none => s.openVal 50
  s.notify 0x8B10 (s.beatBytes ++ u8 w ++ u8 kind ++ u8 (v % 256) ++ rsv 5)

/-! ### Commands -/

def carafeOf (q : Qcp) : CarafeCfg :=
  { format := q.u 1 1, first := q.u 2 1, banks := q.u 3 1, streams := [q.u 4 1, q.u 5 1, q.u 6 1, q.u 7 1], pre := q.u 8 2, post := q.u 10 2
    mask := q.u 12 1, evSel := q.u 13 1, evEdge := q.u 14 1 }

def CarafeCfg.sameStop (a b : CarafeCfg) : Bool := a.format == b.format && a.first == b.first && a.banks == b.banks && a.streams == b.streams

/-- STREAMS: distinct enabled sub-bands, at least one. DEDUCED (log 47). -/
def streamsOk (s : State) (xs : List Nat) : Bool :=
  let used := xs.filter (· != 0xFF)
  !used.isEmpty && used.all (fun n => decide (n ≤ 31) && (s.subband n).cfg.committed.enable) && decide ((distinct used).length = used.length)

/-- A bank is free for the history ring: unowned and linear, or the ring's already. -/
def histBankOk (s : State) (b : Nat) : Bool :=
  s.banksFree b 1 || (s.carafe.placed && decide (s.carafe.cfg.first ≤ b) && decide (b < s.carafe.cfg.first + s.carafe.cfg.banks))

/-- DEDUCED (log 47). -/
def carafeCfg (q : Qcp) (s : State) : State × Reply :=
  let c := carafeOf q
  let arm := q.u 0 1 == 1
  let k := s.carafe
  let moved := !c.sameStop k.cfg
  let s := if k.placed && moved then (s.freeBanks k.cfg.first k.cfg.banks).modCarafe fun k => { k with placed := false, slots := [], mixes := [] } else s
  let s := if arm && !s.carafe.placed then s.giveBanks c.first c.banks 0x16 .carafe else s
  (s.modCarafe fun k =>
    { k with
      cfg := c, arm := k.arm.commit arm, placed := k.placed || arm, freeReq := !arm
      rates := if arm && !k.arm.committed && !k.anyHeld then c.streams.map fun n => (s.subband n).cfg.committed.rate else k.rates }, .ok [])

def carafeCfgCmd : HostCmd :=
  { opcode := 0x0B01, len := .fixed 16, priv := 2
    range := fun q s =>
      let c := carafeOf q
      [ (0, q.u 0 1 ≤ 1), (1, c.format ≤ 1 && (c.format == 0 || c.streams.all fun n => n == 0xFF || (s.subband n).cfg.committed.format == 1)),
        (2, c.first ≤ 127), (3, 1 ≤ c.banks && c.first + c.banks ≤ 128), (4, streamsOk s c.streams), (8, 1 ≤ c.pre && c.pre ≤ 30000),
        (10, c.post ≤ 30000), (12, c.mask ≤ 15), (13, c.evSel ≤ 7), (14, 1 ≤ c.evEdge && c.evEdge ≤ 3) ]
    state := fun q s =>
      let c := carafeOf q
      let k := s.carafe
      [ c.sameStop k.cfg || (!k.arm.committed && !k.arm.inForce && !k.anyHeld),
        q.u 0 1 == 0 || (List.range c.banks).all fun i => histBankOk s (c.first + i) ]
    effect := carafeCfg }

def execCarafeCfg (q : Qcp) (s : State) : Host.Outcome State Fault Refusal := runHost carafeCfgCmd q s

def WindowState.code : WindowState → Nat
  | .free => 0 | .filling => 1 | .frozen => 2 | .replaying => 3

/-- The 32 bytes of a window in CARAFE_STATUS. -/
def HistWindow.bytes (w : HistWindow) : List Byte :=
  u8 w.state.code ++ ub w.truncated ++ u8 w.triggers.length ++ u8 ((w.triggers.map (2 ^ ·)).foldl (· ||| ·) 0) ++ rsv 4 ++ u64 w.first ++ u64 w.last
  ++ leBytes 8 w.trigDt.toNat

def freeSlots (s : State) : Nat := if s.carafe.placed then histDepth s - s.carafe.frozen else 0

def carafeStatusCmd : HostCmd :=
  { opcode := 0x0B02, len := .fixed 0, priv := 0
    effect := fun _ s =>
      (s, .ok (ub s.carafe.arm.inForce ++ u16 (if s.carafe.placed then min 65535 (histDepth s) else 0) ++ rsv 1 ++ u32 (freeSlots s)
        ++ (s.carafe.windows.map HistWindow.bytes).flatten)) }

def execCarafeStatus (q : Qcp) (s : State) : Host.Outcome State Fault Refusal := runHost carafeStatusCmd q s

/-! ### Triggers (R292–R296) -/

/-- The oldest beat that the ring holds; the present beat when it holds none. -/
def oldestBeat (s : State) : Nat := (s.carafe.slots.map fun x => x.2 - 1).foldl min s.time.beat

/-- The latest live record. -/
def NavSys.latest (n : NavSys) : Option NavRec := match n.pvt, n.fused with
  | some a, some b => if a.dt.toNat ≤ b.dt.toNat then some b else some a
  | some a, none => some a
  | none, x => x

/-- MIX_WORD of each stream in force. -/
def mixNow (s : State) : List Int := s.carafe.cfg.streams.map fun n => if n ≤ 31 then (s.subband n).cfg.inForce.mixWord else 0

/-- Set MIX_CHANGE in the tags of a window's beats already held whose MIX_WORD differs from the trigger's (R290). -/
def markMix (w : Nat) (s : State) : State :=
  let win := s.window w
  s.carafe.slots.foldl (fun s x =>
    if win.has (x.2 - 1) then
      (List.range 4).foldl (fun s j =>
        if ((Tab.get [] s.carafe.mixes x.1)[j]?).getD 0 = (win.mix[j]?).getD 0 then s
        else
          let a := histTagAddr s x.1 j
          let f := leNat (s.memRead a 2)
          s.memPut a (u16 (f ||| 0x2000))) s
    else s) s

/-- A trigger is dropped (R294). -/
def dropTrigger (s : State) (bit : Nat) : State := s.carafeEvent 0xFF 4 (some bit)

/-- The unfrozen slots left once `extra` more are frozen are at least POST + 16 (R294). -/
def slotsLeft (s : State) (extra : Nat) : Bool := decide (s.carafe.frozen + extra + s.carafe.cfg.post + 16 ≤ histDepth s)

/-- The first beat of a window opened by a trigger in beat `bt`. -/
def windowStart (s : State) (bt : Nat) : Nat :=
  let want := bt - s.carafe.cfg.pre
  let after := (s.carafe.windows.filter fun v => v.held && decide (want ≤ v.last)).map (·.last + 1)
  after.foldl max (max want (oldestBeat s))

/-- DEDUCED (log 47). -/
def openWindow (s : State) (bit at_ bt : Nat) : State :=
  let c := s.carafe.cfg
  let first := windowStart s bt
  let last := bt + c.post
  match (List.range 8).find? fun w => !(s.window w).held with
  | none => dropTrigger s bit
  | some w =>
    if last < first ∨ 60000 < last + 1 - first ∨ !slotsLeft s (last + 1 - first) then dropTrigger s bit
    else
      let s := s.modWindow w fun _ =>
        { state := .filling, truncated := decide (bt < c.pre) || decide (first != bt - c.pre), triggers := [bit], first := first, last := last
          trigDt := BitVec.ofNat 64 at_, trigBeat := bt, trigNow := s.now, mix := mixNow s, live := s.nav.latest, release := false }
      (markMix w s).carafeEvent w 1 (some bit)

/-- A trigger: bit of TRIG_MASK and unwrapped DT (R292–R294). -/
def State.carafeTrigger (s : State) (bit at_ : Nat) : State :=
  let c := s.carafe.cfg
  if !s.carafe.arm.inForce || !bitOf c.mask bit then s
  else
    let bt := at_ / beatUnits
    match (List.range 8).find? fun w => decide ((s.window w).state = .filling ∧ (s.window w).trigNow = s.now) with
    | some w => if (s.window w).triggers.length < 8 then s.modWindow w fun v => { v with triggers := v.triggers ++ [bit] } else dropTrigger s bit
    | none =>
      match (List.range 8).find? fun w => decide ((s.window w).state = .filling) && (s.window w).has bt with
      | some w =>
        let v := s.window w
        let last := max v.last (bt + c.post)
        if 8 ≤ v.triggers.length ∨ 60000 < last + 1 - v.first ∨ !slotsLeft s (last - v.last) then dropTrigger s bit
        else (s.modWindow w fun v => { v with last := last, triggers := v.triggers ++ [bit] }).carafeEvent w 2 (some bit)
      | none => openWindow s bit at_ bt

def carafeTriggerCmd : HostCmd :=
  { opcode := 0x0B10, len := .fixed 4, priv := 1, effect := fun _ s => (s.carafeTrigger 0 s.now, .ok []) }

def execCarafeTrigger (q : Qcp) (s : State) : Host.Outcome State Fault Refusal := runHost carafeTriggerCmd q s

/-- An ACTIVE entry or a channel that is not IDLE reads the window (R300). -/
def windowInUse (s : State) (w : Nat) : Bool :=
  (s.grinder.entries.any fun e => decide (e.2.state = .active ∧ e.2.source = 0x10 + w))
  || (s.fabric.chans.any fun c => (!c.2.idle && c.2.act.subband / 4 == 8 + w) || ((c.2.claim.map fun k => k.desc.subband / 4 == 8 + w).getD false))

def carafeReleaseCmd : HostCmd :=
  { opcode := 0x0B11, len := .fixed 4, priv := 1, range := fun q _ => [(0, q.u 0 1 ≤ 7)]
    state := fun q s => [decide ((s.window (q.u 0 1)).state ≠ .replaying), !windowInUse s (q.u 0 1)]
    effect := fun q s => (if (s.window (q.u 0 1)).held then s.modWindow (q.u 0 1) fun w => { w with release := true } else s, .ok []) }

def execCarafeRelease (q : Qcp) (s : State) : Host.Outcome State Fault Refusal := runHost carafeReleaseCmd q s

def carafeReadCmd : HostCmd :=
  { opcode := 0x0B12, len := .fixed 16, priv := 0
    range := fun q s =>
      [ (0, q.u 0 1 ≤ 7), (1, q.u 1 1 ≤ 3 && (s.carafe.cfg.streams[q.u 1 1]?).getD 0xFF != 0xFF),
        (4, (s.window (q.u 0 1)).has (q.u 4 8) && (histSlotOf s (q.u 4 8)).isSome) ]
    effect := fun q s => match histSlotOf s (q.u 4 8) with
      | none => (s, .range 4)
      | some k =>
        let n := min 4000 (histStreamBytes s (q.u 1 1) - q.u 12 4)
        (s, .ok (s.memRead (histTagAddr s k (q.u 1 1)) 16 ++ s.memRead (histDataAddr s k (q.u 1 1) + q.u 12 4) n)) }

def execCarafeRead (q : Qcp) (s : State) : Host.Outcome State Fault Refusal := runHost carafeReadCmd q s

/-! ### Windows at a boundary -/

/-- A FILLING window whose last beat completed becomes FROZEN (R293). -/
def freezeWindow (w : Nat) (s : State) : State :=
  let v := s.window w
  if v.state = .filling ∧ v.last < s.time.beat then (s.modWindow w fun v => { v with state := .frozen }).carafeEvent w 3 none else s

/-- DESIGN CHOICE (log 15). -/
def execWindowFrozen (window : Nat) (s : State) : Host.Outcome State Fault Refusal := .next (if s.live then freezeWindow window s else s)

/-- A window whose release was accepted returns its slots (R295). -/
def releaseWindow (w : Nat) (s : State) : State :=
  let v := s.window w
  if v.held && v.release && decide (v.state ≠ .replaying) then ((failWindow w s).modWindow w fun _ => HistWindow.reset).carafeEvent w 5 none else s

def execWindowRelease (window : Nat) (s : State) : Host.Outcome State Fault Refusal :=
  .next (if s.live ∧ s.time.tick = 0 then releaseWindow window s else s)

/-- ARM takes effect: recording starts with the beat that opens, or ends with the beat written last (R288, Table 12.1). -/
def latchArm (s : State) : State :=
  let k := s.carafe
  let on := k.arm.committed
  let s :=
    if k.arm.inForce && !on then
      (List.range 8).foldl (fun s w =>
        let v := s.window w
        if v.state = .filling then
          (s.modWindow w fun v => { v with state := .frozen, truncated := true, last := min v.last (s.time.beat - 1) }).carafeEvent w 3 none
        else s) s
    else if on && !k.arm.inForce then
      s.modCarafe fun k =>
        let kept := k.slots.filter fun x => k.windows.any fun w => w.has (x.2 - 1)
        { k with slots := kept, next := 0, rms := [none, none, none, none] }
    else s
  let s := s.modCarafe fun k => { k with arm := k.arm.latch }
  if s.carafe.freeReq then
    if !s.carafe.arm.inForce && !s.carafe.anyHeld && s.carafe.placed then
      (s.freeBanks k.cfg.first k.cfg.banks).modCarafe fun k => { k with placed := false, freeReq := false, slots := [], mixes := [] }
    else s.modCarafe fun k => { k with freeReq := false }
  else s

/-- The windows at a boundary: FROZEN, releases, then ARM. -/
def carafeBoundary (s : State) : State :=
  let s := (List.range 8).foldl (fun s w => freezeWindow w s) s
  let s := (List.range 8).foldl (fun s w => releaseWindow w s) s
  latchArm s

/-! ### The writer (R288–R290, R295) -/

/-- The next slot that no held window's beat occupies. -/
def nextSlot (s : State) : Nat → Nat → Option Nat
  | _, 0 => none
  | k, n + 1 =>
    let k := if k < histDepth s then k else 0
    let b := Tab.get 0 s.carafe.slots k
    if b != 0 && s.carafe.windows.any (fun w => w.has (b - 1)) then nextSlot s (k + 1) n else some k

/-- Take the slot of the beat that ended; every stream not delivered reads zero in it. -/
def startSlot (s : State) : State :=
  if !s.carafe.arm.inForce then s
  else match nextSlot s s.carafe.next (histDepth s) with
    | none => s
    | some k =>
      let s := s.modCarafe fun c =>
        { c with slots := Tab.set 0 c.slots k s.time.beat, mixes := Tab.set [] c.mixes k (mixNow s), next := k + 1 }
      s.memPut (histTagAddr s k 0) (rsv (histSlotBytes s))

/-- The component after the SCALE of R59. -/
def scaled (scale : Nat) (x : Int) : Rat := (x : Rat) / 65536 * Config.fn .pow10 (-(((scale : Nat) : Rat) / 80))

/-- The 2-bit code: sign, and a magnitude bit that is set when |v| ≥ T (R289). -/
def twoBitCode (v t2 : Rat) : Nat := (if v < 0 then 2 else 0) + (if t2 ≤ v * v then 1 else 0)

/-- Two samples to a byte, the first in the low nibble. -/
def packNibbles : List Nat → List Byte
  | [] => []
  | [a] => u8 a
  | a :: b :: r => (u8 (a + 16 * b)) ++ packNibbles r

def meanSquare (xs : List Rat) : Rat := if xs.isEmpty then 0 else (xs.map fun x => x * x).sum / xs.length

/-- The Carafe writer takes a beat of a stream (R288). -/
def carafeHook (n scale : Nat) (filt ys : List Cplx) (tag : List Byte) (s : State) : State :=
  if !s.carafe.arm.inForce then s
  else match s.carafe.cfg.streams.findIdx? (· == n), histSlotOf s (s.time.beat - 1) with
    | some j, some k =>
      let vi := filt.map fun x => scaled scale x.1
      let vq := filt.map fun x => scaled scale x.2
      let (s, stamp) := s.fresh
      let (ti, tq) := ((s.carafe.rms[j]?).join).getD (Config.openRat 51 stamp, Config.openRat 52 stamp)
      let data := if s.carafe.cfg.format = 1 then (ys.map (ringSample 1)).flatten
        else packNibbles (List.zipWith (fun a b => 4 * twoBitCode a ti + twoBitCode b tq) vi vq)
      let win := s.carafe.windows.find? fun w => w.has (s.time.beat - 1)
      let mixed := match win with
        | some w => decide ((w.mix[j]?).getD 0 ≠ (mixNow s)[j]?.getD 0)
        | none => false
      let tag := if mixed then u16 (leNat (tag.take 2) ||| 0x2000) ++ tag.drop 2 else tag
      let s := (s.memPut (histDataAddr s k j) data).memPut (histTagAddr s k j) tag
      s.modCarafe fun c => { c with rms := modAt c.rms j fun _ => some (meanSquare vi, meanSquare vq) }
    | _, _ => s

/-- A power transition takes the history banks: the Carafe is disarmed and every window is lost (R291). -/
def loseCarafe (s : State) : State :=
  let s := (List.range 8).foldl (fun s w =>
    if (s.window w).held then ((failWindow w s).modWindow w fun _ => HistWindow.reset).carafeEvent w 6 none else s) s
  let s := if s.carafe.placed then s.freeBanks s.carafe.cfg.first s.carafe.cfg.banks else s
  s.modCarafe fun k => { k with arm := .at false, placed := false, freeReq := false, slots := [], mixes := [] }

/-! ### SUBBAND_SET (R64, R117, R291) -/

/-- A stream may not be disabled: the armed Carafe records it, an ACTIVE entry reads it, or a channel uses it. -/
def streamLocked (n : Nat) (s : State) : Bool :=
  ((s.carafe.arm.committed || s.carafe.arm.inForce) && s.carafe.cfg.streams.contains n)
  || (s.grinder.entries.any fun e => decide (e.2.state = .active ∧ e.2.source = 0 ∧ e.2.subband = n))
  || (s.fabric.chans.any fun c => (!c.2.idle && c.2.act.subband == n) || ((c.2.claim.map fun k => k.desc.subband == n).getD false))

def execSubbandSet (q : Qcp) (s : State) : Host.Outcome State Fault Refusal :=
  let c := subbandSetCmd streamLocked
  runHost { c with effect := fun q s =>
    let (s, r) := c.effect q s
    (if (subbandOf q).enable then s else failSubband (q.u 0 1) s, r) } q s

/-! ### EVENT_CAPTURE (R258, R292) -/

/-- An edge that the glitch filter accepts: it can trigger the Carafe whatever the input's OWNER, and it is captured. -/
def execEventCapture (input : Nat) (rising : Bool) (pin : Nat) (sameTick : Bool) (s : State) : Host.Outcome State Fault Refusal :=
  if s.live && s.on 13 then
    let c := s.carafe.cfg
    let hit := input == c.evSel && bitOf c.evEdge (if rising then 0 else 1)
    let at_ : Int := (pin : Int) - (s.ev input).cable
    let s := if hit then s.carafeTrigger 1 at_.toNat else s
    .next (capture input rising pin sameTick s)
  else .next s

end Sys2Proof.Machine
end

