-- ==== Sys2Proof/Machine/Integrity.lean ====
section
/-! DEFINITION. Signal integrity: interference controls and levels, the spoofing score and Galileo OSNMA (R161–R176). -/

namespace Sys2Proof.Machine
open Sys2Proof

def State.modNav (s : State) (f : NavSys → NavSys) : State := { s with nav := f s.nav }

/-! ### Interference (R161, R162) -/

def interfModes (q : Qcp) : List (Nat × Int) := (List.range 4).map fun n => (q.u (8 + n) 1, q.i (12 + 2 * n) 2)

def interfCfgCmd : HostCmd :=
  { opcode := 0x0650, len := .fixed 20, priv := 1
    range := fun q _ =>
      ([ (0, q.u 0 1 ≤ 7), (1, q.u 1 1 ≤ 127), (2, 1 ≤ q.u 2 1), (3, 4 ≤ q.u 3 1 && q.u 3 1 ≤ 10), (4, 8 ≤ q.u 4 1 && q.u 4 1 ≤ 16),
        (5, 3 ≤ q.u 5 1 && q.u 5 1 ≤ 30), (6, 1 ≤ q.u 6 1 && q.u 6 1 + 1 ≤ q.u 5 1) ] : List (Int × Bool))
      ++ ((List.range 4).map fun n => (((8 + n : Nat) : Int), decide (q.u (8 + n) 1 ≤ 2)) : List (Int × Bool))
      ++ ((List.range 4).map fun n => (((12 + 2 * n : Nat) : Int), decide ((q.i (12 + 2 * n) 2).natAbs ≤ 29491)) : List (Int × Bool))
    effect := fun q s =>
      (s.modInput (q.u 0 1) fun i =>
        { i with cfg := i.cfg.commit { i.cfg.committed with
            blankThr := q.u 1 1, blankHold := q.u 2 1, notchWidth := q.u 3 1, notchStep := q.u 4 1, engage := q.u 5 1, release := q.u 6 1
            notchMode := interfModes q } }, .ok []) }

def execInterfCfg (q : Qcp) (s : State) : Host.Outcome State Fault Refusal := runHost interfCfgCmd q s

def State.interf (s : State) (n : Nat) : Interf := (s.nav.interf[n]?).getD Interf.reset
def State.setInterf (s : State) (n : Nat) (i : Interf) : State := s.modNav fun v => { v with interf := modAt v.interf n fun _ => i }

def interfStatusCmd : HostCmd :=
  { opcode := 0x0651, len := .fixed 0, priv := 0, effect := fun _ s => (s, .ok ((s.nav.interf.map fun i => u8 i.level ++ u8 i.cause).flatten)) }

def execInterfStatus (q : Qcp) (s : State) : Host.Outcome State Fault Refusal := runHost interfStatusCmd q s

/-- CAUSE bits of Table 7.3 for a running input: `over` counts beats in a row with OVERLOAD. -/
def interfCause (i : SampleInput) (r : InputStat) (samples over_ : Nat) : Nat :=
  (if i.notches.any fun n => 2 ≤ n.state then 1 else 0)
  + (if samples < 20 * r.blanked then 2 else 0)
  + (if 40 < (i.notches.map (·.depth)).sum then 4 else 0)
  + (if bitOf r.flags 7 then 8 else 0)
  + (if bitOf r.flags 9 then 16 else 0)
  + (if 10 ≤ over_ then 32 else 0)

/-- The highest level with a cause. -/
def interfLevel (cause : Nat) : Nat := if 16 ≤ cause then 3 else if 2 ≤ cause then 2 else cause

/-- Whether the condition of a level holds. -/
def levelHolds (cause : Nat) : Nat → Bool
  | 1 => bitOf cause 0
  | 2 => bitOf cause 1 || bitOf cause 2 || bitOf cause 3
  | 3 => bitOf cause 4 || bitOf cause 5
  | _ => false

/-- The next level of an input: it rises at once and falls one step after 1,000 clear beats (R162). -/
def Interf.next (f : Interf) (cause over_ : Nat) : Interf :=
  let want := interfLevel cause
  if f.level < want then { level := want, cause := cause, clear := 0, over_ := over_ }
  else if f.level = 0 ∨ levelHolds cause f.level then { f with cause := cause, clear := 0, over_ := over_ }
  else if 1000 ≤ f.clear + 1 then { level := f.level - 1, cause := cause, clear := 0, over_ := over_ }
  else { f with cause := cause, clear := f.clear + 1, over_ := over_ }

def interfBeat (n : Nat) (s : State) : State :=
  let i := s.input n
  match i.state, i.stat, s.installInput n with
  | .run, some r, some e =>
    let f := s.interf n
    let over_ := if bitOf r.flags 5 then f.over_ + 1 else 0
    let g := f.next (interfCause i r (fIn e.rate / 1000) over_) over_
    let s := s.setInterf n g
    if g.level = f.level then s
    else s.notify 0x8650 (s.beatBytes ++ u8 n ++ u8 g.level ++ u8 g.cause ++ rsv 1 ++ u32 r.blanked)
  | _, _, _ => s.setInterf n Interf.reset

/-! ### Power history (Table 7.4) -/

/-- The channel is in TRACK or SKY. -/
def Chan.tracking (c : Chan) : Bool := c.act.state == 2 || c.act.state == 3

/-- Sum and number of the C/N0 of the channels of an input. -/
def inputCn0 (s : State) (n : Nat) : Nat × Nat :=
  s.fabric.chans.foldl (fun a c => if c.2.tracking && c.2.act.subband / 4 == n then (a.1 + (s.track c.1).cn0, a.2 + 1) else a) (0, 0)

def historyBeat (n : Nat) (s : State) : State :=
  match (s.input n).state, (s.input n).stat with
  | .run, some r =>
    let (c, k) := inputCn0 s n
    let b := (s.nav.spoof.block[n]?).getD ⟨0, 0, 0, 0⟩
    let b : PowerBlock := { power := b.power + r.powerIn, beats := b.beats + 1, cn0 := b.cn0 + c, chans := b.chans + k }
    let full := s.time.beat % 100 == 0
    s.modNav fun v => { v with spoof := { v.spoof with
      block := modAt v.spoof.block n fun _ => if full then ⟨0, 0, 0, 0⟩ else b
      history := modAt v.spoof.history n fun h => if full then (b :: h).take 6100 else h } }
  | _, _ => s.modNav fun v => { v with spoof := { v.spoof with
      block := modAt v.spoof.block n fun _ => ⟨0, 0, 0, 0⟩, history := modAt v.spoof.history n fun _ => [] } }

/-- Integrity at a beat boundary: levels, history, and the Beat-coded SPOOF_CFG (R162, R167). -/
def integrityBoundary (s : State) : State :=
  let s := (List.range 8).foldl (fun s n => historyBeat n (interfBeat n s)) s
  let p := s.nav.spoof
  s.modNav fun v => { v with spoof := { p with cfg := p.cfg.latch, fall := if p.cfg.committed = p.cfg.inForce then p.fall else 0 } }

/-! ### The spoofing score (R165–R169) -/

def spoofCfgOf (q : Qcp) : SpoofCfg :=
  { weights := (List.range 5).map fun n => q.u n 1, hard := q.u 5 1, warn := q.u 6 1, alarm := q.u 7 1, hyst := q.u 8 1, clearEvals := q.u 10 2
    actWarn := q.u 12 1, actAlarm := q.u 13 1, uniRef := q.u 14 2, aoaTol := q.u 16 1 }

def spoofCfgCmd : HostCmd :=
  { opcode := 0x0660, len := .fixed 20, priv := 2
    range := fun q _ =>
      let c := spoofCfgOf q
      [ (4, c.weights.sum == 256), (5, c.hard ≤ 31), (6, 1 ≤ c.warn && c.warn ≤ 254), (7, c.warn + 1 ≤ c.alarm), (8, c.hyst ≤ 64),
        (10, 1 ≤ c.clearEvals && c.clearEvals ≤ 600), (12, c.actWarn ≤ 63), (13, c.actAlarm ≤ 63), (14, 100 ≤ c.uniRef && c.uniRef ≤ 1000),
        (16, 13 ≤ c.aoaTol && c.aoaTol ≤ 77) ]
    effect := fun q s => (s.modNav fun v => { v with spoof := { v.spoof with cfg := v.spoof.cfg.commit (spoofCfgOf q) } }, .ok []) }

def execSpoofCfg (q : Qcp) (s : State) : Host.Outcome State Fault Refusal := runHost spoofCfgCmd q s

/-- The 20 bytes of SPOOF_ALARM (R176). -/
def spoofBody (s : State) : List Byte :=
  let p := s.nav.spoof
  s.beatBytes ++ u8 p.score ++ u8 p.state ++ u8 p.na ++ rsv 1 ++ (p.metrics.map u8).flatten ++ rsv 3

def spoofStatusCmd : HostCmd :=
  { opcode := 0x0661, len := .fixed 0, priv := 0
    effect := fun _ s =>
      let p := s.nav.spoof
      (s, .ok (spoofBody s ++ u8 (min 255 p.tested) ++ u8 (min 255 p.failing) ++ u8 (boolBits (p.pairs.map (·.collapse))) ++ rsv 1)) }

def execSpoofStatus (q : Qcp) (s : State) : Host.Outcome State Fault Refusal := runHost spoofStatusCmd q s

/-- round(x) limited to 0–255. -/
def clamp255 (x : Rat) : Nat := (clampI 0 255 (roundRat x)).toNat

def blockMean (f g : PowerBlock → Nat) (bs : List PowerBlock) : Option Rat :=
  let d := (bs.map g).sum
  if d = 0 then none else some (((bs.map f).sum : Nat) / (d : Rat))

/-- PWR of one input with 610 s of history: 0 unless ΔC ≥ −1 dB. -/
def inputPwr (h : List PowerBlock) : Nat :=
  let now := h.take 10
  let past := (h.drop 100).take 6000
  match blockMean (·.power) (·.beats) now, blockMean (·.power) (·.beats) past, blockMean (·.cn0) (·.chans) now, blockMean (·.cn0) (·.chans) past with
  | some p, some r, some c, some d =>
    if p = 0 ∨ r = 0 ∨ c - d < -100 then 0 else clamp255 (32 * (10 * Config.fn .log10 (p / r) - 1))
  | _, _, _, _ => 0

/-- PWR: the largest over the inputs at level 2 or less; none without 610 s of history on any. -/
def pwrMetric (s : State) : Option Nat :=
  let ns := (List.range 8).filter fun n => decide (6100 ≤ ((s.nav.spoof.history[n]?).getD []).length)
  if ns.isEmpty then none
  else some (((ns.filter fun n => (s.interf n).level ≤ 2).map fun n => inputPwr ((s.nav.spoof.history[n]?).getD [])).foldl max 0)

def State.navChan (s : State) (n : Nat) : NavChan := Tab.get NavChan.reset s.nav.chans n
def State.setNavChan (s : State) (n : Nat) (c : NavChan) : State := s.modNav fun v => { v with chans := Tab.set NavChan.reset v.chans n c }

/-- Standard deviation in dB of values in 0.01 dB-Hz. -/
def stdDev (xs : List Nat) : Rat :=
  let n : Rat := xs.length
  let m : Rat := (xs.sum : Nat) / n
  Config.fn .sqrt ((xs.map fun (x : Nat) => ((x : Rat) - m) * ((x : Rat) - m)).sum / n) / 100

/-- UNI: the lowest σ among signals with six channels at 15° or more; none without one. -/
def uniMetric (s : State) : Option Nat :=
  let up := s.fabric.chans.filter fun c => c.2.tracking && (((s.navChan c.1).elev.map fun e => decide (15 ≤ e)).getD false)
  let signals := distinct (up.map fun c => c.2.act.signal)
  let sigmas := signals.filterMap fun g =>
    let xs := (up.filter fun c => c.2.act.signal == g).map fun c => (s.track c.1).cn0
    if 6 ≤ xs.length then some (stdDev xs) else none
  match sigmas with
  | [] => none
  | x :: xs => some (clamp255 (80 * (((s.nav.spoof.cfg.inForce.uniRef : Nat) : Rat) / 100 - xs.foldl (fun a b => if b < a then b else a) x)))

/-- AOA: none when no pair is tested. -/
def aoaMetric (p : Spoof) : Option Nat :=
  if p.pairsTested = 0 then none
  else if p.pairs.any (·.collapse) then some 255
  else some (if p.tested = 0 then 0 else clamp255 (((512 * p.failing : Nat) : Rat) / p.tested))

def jumpMetric (p : Spoof) : Option Nat := p.jumpZ.map fun z => max (clamp255 (32 * (z - 3))) (p.jump - 8)

/-- A Galileo E1 channel is tracked. -/
def e1Tracked (s : State) : Bool := s.fabric.chans.any fun c => c.2.tracking && c.2.act.signal == 0x10

def osnmaMetric (s : State) : Option Nat :=
  let o := s.nav.osnma
  if !o.cfg.inForce.enable || o.state != 3 then none
  else if (o.failAt.map fun t => !s.passedMs t (1000 * o.cfg.inForce.hold)).getD false then some 255
  else if e1Tracked s && s.passedMs o.okAt 120000 then some 128 else some 0

/-- S of R166. -/
def spoofScore (c : SpoofCfg) (ms : List Nat) : Nat :=
  if (ms.zipIdx.any fun m => m.1 == 255 && bitOf c.hard m.2) then 255 else ((List.zipWith (· * ·) c.weights ms).sum + 128) / 256

/-- The state that a score satisfies. -/
def spoofTarget (c : SpoofCfg) (score : Nat) : Nat := if c.alarm ≤ score then 2 else if c.warn ≤ score then 1 else 0

/-- State and fall count after an evaluation (R167). -/
def spoofNext (c : SpoofCfg) (state fall score : Nat) : Nat × Nat :=
  let t := spoofTarget c score
  if state < t then (t, 0)
  else if state = 0 then (0, 0)
  else if score + c.hyst < (if state = 1 then c.warn else c.alarm) then (if c.clearEvals ≤ fall + 1 then (t, 0) else (state, fall + 1))
  else (state, 0)

/-- DEDUCED (log 35). -/
def spoofMask (c : SpoofCfg) : Nat → Nat
  | 0 => 0 | 1 => c.actWarn | _ => c.actAlarm

/-- EXCLUDE is active (R168). -/
def State.spoofExclude (s : State) : Bool := bitOf s.nav.spoof.actions 3

/-- System of a signal: 0 GPS, 1 Galileo, 2 BeiDou, 3 GLONASS, 4 QZSS, 5 NavIC, 6 SBAS, 7 user. -/
def sysOf (id : Nat) : Nat := if isUser id then 7 else match id / 16 with | 0 => 0 | 1 => 1 | 2 => 2 | 3 => 3 | 4 => 4 | 5 => 5 | _ => 6

/-- A satellite over all systems. -/
def satKey (id sat : Nat) : Nat := 64 * sysOf id + sat

def Chan.satKey (c : Chan) : Nat := Machine.satKey c.act.signal c.act.sat

def State.osnmaSat (s : State) (sat : Nat) : OsnmaSat := (s.nav.osnma.sats[sat - 1]?).getD OsnmaSat.reset

/-- The OSNMA status of a satellite is FAILED. -/
def State.osnmaFailed (s : State) (key : Nat) : Bool := key / 64 == 1 && (s.osnmaSat (key % 64)).status == 3

/-- A satellite that R168 EXCLUDE takes out of solutions. -/
def State.spoofed (s : State) (key : Nat) : Bool :=
  s.spoofExclude && ((s.fabric.chans.any fun c => !c.2.idle && c.2.satKey == key && (s.navChan c.1).aoaFail) || s.osnmaFailed key)

/-- The conditions of R169 for a channel. -/
def flagWanted (s : State) (n : Nat) (c : Chan) : Bool :=
  (s.navChan n).aoaFail || (s.osnmaFailed c.satKey && s.nav.osnma.cfg.inForce.exclude) || s.spoofed c.satKey

/-- Flag channels; only a navigation epoch clears flags (R169). -/
def refreshFlags (clear : Bool) (s : State) : State :=
  let want := (s.fabric.chans.filter fun c => !c.2.idle && flagWanted s c.1 c.2).map (·.1)
  { s with tracking := { s.tracking with flagged := if clear then want else want ++ s.tracking.flagged.filter fun n => !want.contains n } }

/-- The five metrics with their NA bits, the score and the state (R165–R168). -/
def evaluateSpoof (s : State) : State :=
  let p := s.nav.spoof
  let c := p.cfg.inForce
  let ms := [pwrMetric s, uniMetric s, aoaMetric p, jumpMetric p, osnmaMetric s]
  let vals := ms.map fun m => m.getD 0
  let score := spoofScore c vals
  let (state, fall) := spoofNext c p.state p.fall score
  let s := s.modNav fun v => { v with spoof := { v.spoof with
    state := state, score := score, na := boolBits (ms.map Option.isNone), metrics := vals, fall := fall, jump := (vals[3]?).getD 0 } }
  if state = p.state then s
  else
    let s := if bitOf (spoofMask c p.state) 0 || bitOf (spoofMask c state) 0 then s.notify 0x8660 (spoofBody s) else s
    let s := if state ≠ 0 ∧ bitOf (spoofMask c state) 1 then s.carafeTrigger 2 (dtAt s.time.beat 0) else s
    refreshFlags false s

/-- The navigation core that is active runs. -/
def State.navRuns (s : State) : Bool := s.live && s.on 9 && coreRunning s (5 + s.nav.active)

def execSpoofEvaluation (s : State) : Host.Outcome State Fault Refusal :=
  .next (if s.navRuns ∧ s.time.tick = 0 ∧ s.time.beat % 100 = 0 then evaluateSpoof s else s)

/-! ### OSNMA (R170–R176) -/

/-- One root and at most two public keys: a key of the same ID, else the older one, gives way (R171). -/
def storeKey (k : OsnmaKey) (ks : List OsnmaKey) : List OsnmaKey :=
  if k.algo = 0 then ks.filter (fun x => x.algo != 0) ++ [k]
  else
    let rest := ks.filter fun x => x.algo == 0 || x.pkid != k.pkid
    let pubs := rest.filter fun x => x.algo != 0
    rest.filter (fun x => x.algo == 0) ++ pubs.drop (pubs.length - 1) ++ [k]

def osnmaKeyCmd : HostCmd :=
  { opcode := 0x0670, len := ⟨40, 75, fun p => some (8 + clampN 32 67 (fieldU p 4 2))⟩, priv := 2
    range := fun q _ =>
      [ (0, q.u 0 1 ≤ 1), (1, if q.u 0 1 = 0 then q.u 1 1 = 0 else 1 ≤ q.u 1 1 && q.u 1 1 ≤ 2), (2, if q.u 0 1 = 0 then q.u 2 1 = 0 else q.u 2 1 ≤ 15),
        (4, q.u 4 2 == (([32, 33, 67] : List Nat)[q.u 1 1]?).getD 0) ]
    effect := fun q s =>
      let k : OsnmaKey := { algo := q.u 1 1, pkid := q.u 2 1, data := fieldB q.payload 8 (q.u 4 2) }
      ({ s with nv := { s.nv with osnma := storeKey k s.nv.osnma } }, .ok []) }

def execOsnmaKey (q : Qcp) (s : State) : Host.Outcome State Fault Refusal := runHost osnmaKeyCmd q s

def osnmaCfgCmd : HostCmd :=
  { opcode := 0x0671, len := .fixed 8, priv := 2
    range := fun q _ =>
      [ (0, q.u 0 1 ≤ 1), (1, q.u 1 1 ≤ 1), (2, q.u 2 1 ≤ 1), (4, 1 ≤ q.u 4 2 && q.u 4 2 ≤ 165), (6, 60 ≤ q.u 6 2 && q.u 6 2 ≤ 3600) ]
    effect := fun q s =>
      let c : OsnmaCfg := { enable := q.u 0 1 == 1, require := q.u 1 1 == 1, exclude := q.u 2 1 == 1, tmax := q.u 4 2, hold := q.u 6 2 }
      (s.modNav fun v => { v with osnma := { v.osnma with cfg := v.osnma.cfg.commit c } }, .ok []) }

def execOsnmaCfg (q : Qcp) (s : State) : Host.Outcome State Fault Refusal := runHost osnmaCfgCmd q s

/-- Status bits of a satellite: in DONT_USE all data reads NONE (R173). -/
def OsnmaSat.byte (state : Nat) (t : OsnmaSat) : List Byte :=
  u8 ((if state = 5 then 0 else t.status) + (if t.cross then 4 else 0) + (if t.timing then 8 else 0))

def osnmaStatusCmd : HostCmd :=
  { opcode := 0x0672, len := .fixed 0, priv := 0
    effect := fun _ s =>
      let o := s.nav.osnma
      (s, .ok (u8 o.state ++ u8 o.nmas ++ u8 o.pkid ++ u8 o.cid ++ u32 o.ok ++ u32 o.fail ++ u32 o.lastKey ++ (o.sats.map (OsnmaSat.byte o.state)).flatten)) }

def execOsnmaStatus (q : Qcp) (s : State) : Host.Outcome State Fault Refusal := runHost osnmaStatusCmd q s

def State.modOsnma (s : State) (f : Osnma → Osnma) : State := s.modNav fun v => { v with osnma := f v.osnma }
def State.modOsnmaSat (s : State) (sat : Nat) (f : OsnmaSat → OsnmaSat) : State := s.modOsnma fun o => { o with sats := modAt o.sats (sat - 1) f }

/-- OSNMA_EVENT (R176). -/
def State.osnmaEvent (s : State) (kind sat adkd gst : Nat) : State :=
  s.notify 0x8670 (s.beatBytes ++ u8 kind ++ u8 sat ++ u8 adkd ++ rsv 1 ++ u32 gst)

/-- Reported time is valid with an uncertainty of at most TMAX (R173). -/
def timeSure (s : State) : Bool :=
  s.clock.valid && ((s.clock.unc s.now).map fun u => decide (u ≤ ((s.nav.osnma.cfg.inForce.tmax * 1000000000 : Nat) : Rat))).getD false

/-- NMA status "don't use" (OSNMA ICD). PRESUMED (log 33). -/
def nmaDontUse : Nat := 3

/-- STATE of OSNMA_STATUS (R171, R173, R175). PRESUMED (log 33). -/
def osnmaStateOf (s : State) : Nat :=
  let o := s.nav.osnma
  if !o.cfg.inForce.enable then 0
  else if !(s.nv.osnma.any fun k => k.algo == 0) || !(s.nv.osnma.any fun k => k.algo != 0) then 1
  else if o.alert then 6
  else if o.nmas = nmaDontUse then 5
  else if !o.root then 2
  else if timeSure s then 3 else 4

/-- Bring the state up to date: TIME_UNSURE is reported, and RUN starts the watch for tags. -/
def updateOsnma (gst : Nat) (s : State) : State :=
  let was := s.nav.osnma.state
  let st := osnmaStateOf s
  let s := s.modOsnma fun o => { o with state := st, okAt := if st = 3 ∧ was ≠ 3 then s.now else o.okAt, root := o.root && st != 0 }
  if st = 4 ∧ was ≠ 4 then s.osnmaEvent 9 0 0 gst else s

/-- A tag whose check runs (R172, R174). -/
def testTag (sat adkd bits : Nat) (cross ok : Bool) (gst : Nat) (s : State) : State :=
  if ok then
    let s := s.modOsnma fun o => { o with ok := sat32 (o.ok + 1), okAt := s.now }
    s.modOsnmaSat sat fun t =>
      if adkd = 4 then { t with timing := true, cross := t.cross || cross }
      else
        let b := t.bits + bits
        { t with bits := b, cross := t.cross || cross, status := if 80 ≤ b ∧ (t.status ≠ 3 ∨ t.fresh) then 2 else t.status }
  else
    let s := s.modOsnma fun o => { o with fail := sat32 (o.fail + 1), failAt := some s.now }
    let s := s.modOsnmaSat sat fun t => { t with status := 3, fresh := false, bits := 0 }
    (refreshFlags false s).osnmaEvent 6 sat adkd gst

/-- Tags held while the time was unsure are tested once it is sure; older than 300 s they are discarded (R173). -/
def heldTags (s : State) : State :=
  let keep := s.nav.osnma.tags.filter fun t => !s.passedMs t.held 300000
  if s.nav.osnma.state = 3 then
    keep.foldl (fun s t => testTag t.sat t.adkd t.bits t.cross t.ok t.gst s) (s.modOsnma fun o => { o with tags := [] })
  else s.modOsnma fun o => { o with tags := keep }

/-- A different data set of a Galileo satellite (R172, R174). -/
def osnmaNewData (sat : Nat) (s : State) : State :=
  s.modOsnmaSat sat fun t =>
    if t.status = 3 then { t with bits := 0, fresh := true, cross := false } else { t with bits := 0, status := if s.nav.osnma.cfg.inForce.enable then 1 else 0, cross := false }

/-- One complete subframe (R172–R174). DESIGN CHOICE (log 34). -/
def osnmaSubframe (f : OsnmaSubframe) (s : State) : State :=
  if !s.nav.osnma.cfg.inForce.enable then s
  else
    let changed := s.nav.osnma.nmas != f.nmas
    let s := s.modOsnma fun o => { o with nmas := f.nmas, cid := f.cid, pkid := f.pkid, alert := f.alert, root := o.root && !f.alert }
    let s := if changed then s.osnmaEvent 8 0 0 f.gst else s
    let s := if f.alert then s.osnmaEvent 7 f.sat 0 f.gst else s
    let s := updateOsnma f.gst s
    if s.nav.osnma.state = 5 ∨ s.nav.osnma.state = 1 ∨ f.alert then s
    else
      let s := match f.kroot with
        | some ok =>
          if !(s.nv.osnma.any fun k => k.algo != 0 && k.pkid == f.pkid) then s
          else if ok then (s.modOsnma fun o => { o with root := true }).osnmaEvent 1 f.sat 0 f.gst
          else (s.modOsnma fun o => { o with failAt := some s.now }).osnmaEvent 2 f.sat 0 f.gst
        | none => s
      let s := match f.pkr with
        | some (true, algo, data) =>
          ({ s with nv := { s.nv with osnma := storeKey { algo := algo, pkid := f.pkid, data := data } s.nv.osnma } }).osnmaEvent 3 f.sat 0 f.gst
        | some (false, _, _) => s.osnmaEvent 4 f.sat 0 f.gst
        | none => s
      let s := updateOsnma f.gst s
      let s := heldTags s
      let hold (s : State) : State := s.modOsnma fun o =>
        { o with tags := o.tags ++ f.tags.map fun t => ({ sat := t.sat, adkd := t.adkd, bits := t.bits, cross := t.cross, ok := t.ok, gst := f.gst, held := s.now } : HeldTag) }
      match s.nav.osnma.state, f.key with
      | 4, _ => hold s
      | 3, some true =>
        let s := s.modOsnma fun o => { o with lastKey := f.gst }
        f.tags.foldl (fun s t => testTag t.sat t.adkd t.bits t.cross t.ok f.gst s) s
      | 3, some false => (s.modOsnma fun o => { o with failAt := some s.now }).osnmaEvent 5 f.sat 0 f.gst
      | _, _ => s

end Sys2Proof.Machine
end

