-- ==== Sys2Proof/Machine/Aes.lean ====
section
/-! DEFINITION. The ciphers of the units: AES-128 and AES-256, CMAC (NIST SP 800-38B), the modes of Table 18.7, the composite mode CPC and the derivation of SP 800-108 (R410–R414, R418); SHA-256 for image digests. -/

namespace Sys2Proof.Machine
open Sys2Proof

/-! ### AES -/

/-- The S-box: byte x at bits 8x + 7 to 8x. -/
def sboxTable : Nat :=
  0x16bb54b00f2d99416842e6bf0d89a18cdf2855cee9871e9b948ed9691198f8e19e1dc186b95735610ef6034866b53e708a8bbd4b1f74dde8c6b4a61c2e2578ba08ae7a65eaf4566ca94ed58d6d37c8e779e4959162acd3c25c2406490a3a32e0db0b5ede14b8ee4688902a22dc4f816073195d643d7ea7c41744975fec130ccdd2f3ff1021dab6bcf5389d928f40a351a89f3c507f02f94585334d43fbaaefd0cf584c4a39becb6a5bb1fc20ed00d153842fe329b3d63b52a05a6e1b1a2c830975b227ebe28012079a059618c323c7041531d871f1e5a534ccf73f362693fdb7c072a49cafa2d4adf04759fa7dc982ca76abd7fe2b670130c56f6bf27b777c63

/-- The inverse S-box. -/
def invSboxTable : Nat :=
  0x7d0c2155631469e126d677ba7e042b17619953833cbbebc8b0f52aae4d3be0a0ef9cc9939f7ae52d0d4ab519a97f51605fec8027591012b131c7078833a8dd1ff45acd78fec0db9a2079d2c64b3e56fc1bbe18aa0e62b76f89c5291d711af1476edf751ce837f9e28535ade72274ac9673e6b4f0cecff297eadc674f4111913a6b8a130103bdafc1020f3fca8f1e2cd00645b3b80558e4f70ad3bc8c00abd890849d8da75746155edab9edfd5048706c92b6655dcc5ca4d41698688664f6f87225d18b6d49a25b76b224d92866a12e084ec3fa420b954cee3d23c2a632947b54cbe9dec444438e3487ff2f9b8239e37cfbd7f3819ea340bf38a53630d56a0952

def subByte (b : Nat) : Nat := (sboxTable >>> (8 * b)) % 256
def invSubByte (b : Nat) : Nat := (invSboxTable >>> (8 * b)) % 256

/-- Multiplication by x in GF(2⁸). -/
def xtime (b : Nat) : Nat := if b < 128 then 2 * b else (2 * b) ^^^ 0x11B

def nth (l : List Nat) (i : Nat) : Nat := (l[i]?).getD 0

def xorBytes (a b : List Nat) : List Nat := List.zipWith (· ^^^ ·) a b

def shiftRows (b : List Nat) : List Nat := (List.range 16).map fun i => nth b (4 * ((i / 4 + i % 4) % 4) + i % 4)
def invShiftRows (b : List Nat) : List Nat := (List.range 16).map fun i => nth b (4 * ((i / 4 + 4 - i % 4) % 4) + i % 4)

def mixColumn (c : List Nat) : List Nat :=
  let a := nth c
  let two (i : Nat) := xtime (a i)
  (List.range 4).map fun i => two i ^^^ (two ((i + 1) % 4) ^^^ a ((i + 1) % 4)) ^^^ a ((i + 2) % 4) ^^^ a ((i + 3) % 4)

def invMixColumn (c : List Nat) : List Nat :=
  let x2 := c.map xtime
  let x4 := x2.map xtime
  let x8 := x4.map xtime
  let m9 (i : Nat) := nth x8 i ^^^ nth c i
  let mB (i : Nat) := nth x8 i ^^^ nth x2 i ^^^ nth c i
  let mD (i : Nat) := nth x8 i ^^^ nth x4 i ^^^ nth c i
  let mE (i : Nat) := nth x8 i ^^^ nth x4 i ^^^ nth x2 i
  (List.range 4).map fun i => mE i ^^^ mB ((i + 1) % 4) ^^^ mD ((i + 2) % 4) ^^^ m9 ((i + 3) % 4)

def columns (f : List Nat → List Nat) (b : List Nat) : List Nat :=
  f (b.take 4) ++ f ((b.drop 4).take 4) ++ f ((b.drop 8).take 4) ++ f (b.drop 12)

/-- The words of the key schedule, newest first: `n` more words for a key of `nk` words. -/
def expandKey (nk : Nat) : Nat → Nat → List (List Nat) → List (List Nat)
  | 0, _, ws => ws
  | n + 1, rcon, ws =>
    let i := ws.length
    let t := (ws[0]?).getD []
    let old := (ws[nk - 1]?).getD []
    let (t, rcon) :=
      if i % nk = 0 then
        let r := (t.drop 1 ++ t.take 1).map subByte
        ((nth r 0 ^^^ rcon) :: r.drop 1, xtime rcon)
      else if 6 < nk ∧ i % nk = 4 then (t.map subByte, rcon)
      else (t, rcon)
    expandKey nk n rcon (xorBytes old t :: ws)

def words4 (b : List Nat) : List (List Nat) := (List.range (b.length / 4)).map fun i => (b.drop (4 * i)).take 4

/-- The round keys of a key of 16 or 32 bytes. -/
def roundKeys (key : List Nat) : List (List Nat) :=
  let nk := key.length / 4
  let ws := (expandKey nk (4 * (nk + 7) - nk) 1 (words4 key).reverse).reverse
  (List.range (nk + 7)).map fun i => ((ws.drop (4 * i)).take 4).flatten

def aesRounds : List (List Nat) → List Nat → List Nat
  | [], b => b
  | [k], b => xorBytes (shiftRows (b.map subByte)) k
  | k :: ks, b => aesRounds ks (xorBytes (columns mixColumn (shiftRows (b.map subByte))) k)

/-- AES encryption of one block. PRESUMED (log 85). -/
def aesEnc (key b : List Nat) : List Nat :=
  match roundKeys key with
  | [] => b
  | k :: ks => aesRounds ks (xorBytes b k)

def aesInvRounds : List (List Nat) → List Nat → List Nat
  | [], b => b
  | [k], b => xorBytes ((invShiftRows b).map invSubByte) k
  | k :: ks, b => aesInvRounds ks (columns invMixColumn (xorBytes ((invShiftRows b).map invSubByte) k))

/-- AES decryption of one block. PRESUMED (log 85). -/
def aesDec (key b : List Nat) : List Nat :=
  match (roundKeys key).reverse with
  | [] => b
  | k :: ks => aesInvRounds ks (xorBytes b k)

/-! ### CMAC -/

/-- Split into blocks of 16, the last one possibly short. -/
def blocks16 : Nat → List Nat → List (List Nat)
  | 0, _ => []
  | _ + 1, [] => []
  | n + 1, b => b.take 16 :: blocks16 n (b.drop 16)

def toBlocks (m : List Nat) : List (List Nat) := blocks16 (m.length / 16 + 1) m

def beVal (b : List Nat) : Nat := b.foldl (fun a x => 256 * a + x) 0
def beBytes (n v : Nat) : List Nat := (List.range n).map fun i => v / 256 ^ (n - 1 - i) % 256

/-- Doubling in GF(2¹²⁸). -/
def dbl (b : List Nat) : List Nat :=
  let v := 2 * beVal b
  beBytes 16 (if v < 2 ^ 128 then v else (v % 2 ^ 128) ^^^ 0x87)

/-- Padding method 2 of a short block. -/
def pad80 (b : List Nat) : List Nat := b ++ 0x80 :: List.replicate (15 - b.length) 0

/-- AES-CMAC (SP 800-38B). PRESUMED (log 85). -/
def cmac (key m : List Nat) : List Nat :=
  let k1 := dbl (aesEnc key (List.replicate 16 0))
  let bs := toBlocks m
  let last := bs.getLast?.getD []
  let final := if last.length = 16 then xorBytes last k1 else xorBytes (pad80 last) (dbl k1)
  aesEnc key (xorBytes ((bs.dropLast).foldl (fun x b => aesEnc key (xorBytes x b)) (List.replicate 16 0)) final)

/-! ### Modes (Table 18.7) -/

/-- The next counter block: bytes 12–15 count modulo 2³² (R411). -/
def nextCtr (b : List Nat) : List Nat := b.take 12 ++ beBytes 4 (beVal (b.drop 12) + 1)

/-- PRESUMED (log 85). -/
def ctrMode (key : List Nat) : List (List Nat) → List Nat → List Nat × List Nat
  | [], iv => ([], iv)
  | b :: bs, iv => let (r, o) := ctrMode key bs (nextCtr iv); (xorBytes b (aesEnc key iv) ++ r, o)

/-- PRESUMED (log 85). -/
def cbcEnc (key : List Nat) : List (List Nat) → List Nat → List Nat × List Nat
  | [], iv => ([], iv)
  | b :: bs, iv => let c := aesEnc key (xorBytes b iv); let (r, o) := cbcEnc key bs c; (c ++ r, o)

def cbcDec (key : List Nat) : List (List Nat) → List Nat → List Nat × List Nat
  | [], iv => ([], iv)
  | b :: bs, iv => let (r, o) := cbcDec key bs b; (xorBytes (aesDec key b) iv ++ r, o)

/-- PRESUMED (log 85). -/
def cfb8 (key : List Nat) (dec : Bool) : List Nat → List Nat → List Nat × List Nat
  | [], iv => ([], iv)
  | x :: xs, iv =>
    let y := x ^^^ nth (aesEnc key iv) 0
    let (r, o) := cfb8 key dec xs (iv.drop 1 ++ [if dec then x else y])
    (y :: r, o)

/-- The shift register keeps the last full ciphertext block. PRESUMED (log 85). -/
def cfb128 (key : List Nat) (dec : Bool) : List (List Nat) → List Nat → List Nat × List Nat
  | [], iv => ([], iv)
  | b :: bs, iv =>
    let y := xorBytes b (aesEnc key iv)
    let (r, o) := cfb128 key dec bs (if b.length < 16 then iv else if dec then b else y)
    (y ++ r, o)

/-- PRESUMED (log 85). -/
def ofb (key : List Nat) : List (List Nat) → List Nat → List Nat × List Nat
  | [], iv => ([], iv)
  | b :: bs, iv => let k := aesEnc key iv; let (r, o) := ofb key bs k; (xorBytes b k ++ r, o)

/-- The message with padding method 2 (CBC_ENC). -/
def padded (m : List Nat) : List (List Nat) :=
  toBlocks (m ++ 0x80 :: List.replicate (15 - m.length % 16) 0)

/-- OUT_LEN of CBC_DEC and BAD_PAD (R411). -/
def unpad (m : List Nat) : Nat × Bool :=
  let last := (m.drop (m.length - 16)).reverse
  let zeros := (last.takeWhile (· == 0)).length
  if nth last zeros = 0x80 then (m.length - zeros - 1, false) else (m.length, true)

/-- K_E and K_M of the composite mode (R412). -/
def cpcKeys (key : List Nat) : List Nat × List Nat :=
  if key.length = 16 then (cmac key [1], cmac key [3]) else (cmac key [1] ++ cmac key [2], cmac key [3] ++ cmac key [4])

def natLe (n v : Nat) : List Nat := (leBytes n v).map (·.toNat)

/-- The check value of the composite mode (R412). -/
def cpcTag (key iv aad c : List Nat) : List Nat :=
  let z := List.replicate ((16 - aad.length % 16) % 16) 0
  cmac (cpcKeys key).2 (iv ++ aad ++ z ++ c ++ natLe 8 aad.length ++ natLe 8 c.length)

/-! ### Derivation (R418) -/

/-- A key of 16 or 32 bytes from a root key, a label and a policy. PRESUMED (log 85). -/
def deriveKey (root label : List Nat) (policy : Nat) : List Nat :=
  let l := if bitOf policy 12 then 256 else 128
  let k (i : Nat) := cmac root (i :: label ++ 0 :: beBytes 2 policy ++ beBytes 2 l)
  if l = 128 then k 1 else k 1 ++ k 2

/-! ### SHA-256 -/

/-- The first 32 bits of the fractional parts of the cube roots of the first 64 primes. -/
def shaK : List Nat :=
  [0x428a2f98, 0x71374491, 0xb5c0fbcf, 0xe9b5dba5, 0x3956c25b, 0x59f111f1, 0x923f82a4, 0xab1c5ed5, 0xd807aa98, 0x12835b01, 0x243185be, 0x550c7dc3, 0x72be5d74, 0x80deb1fe, 0x9bdc06a7, 0xc19bf174]
  ++ [0xe49b69c1, 0xefbe4786, 0x0fc19dc6, 0x240ca1cc, 0x2de92c6f, 0x4a7484aa, 0x5cb0a9dc, 0x76f988da, 0x983e5152, 0xa831c66d, 0xb00327c8, 0xbf597fc7, 0xc6e00bf3, 0xd5a79147, 0x06ca6351, 0x14292967]
  ++ [0x27b70a85, 0x2e1b2138, 0x4d2c6dfc, 0x53380d13, 0x650a7354, 0x766a0abb, 0x81c2c92e, 0x92722c85, 0xa2bfe8a1, 0xa81a664b, 0xc24b8b70, 0xc76c51a3, 0xd192e819, 0xd6990624, 0xf40e3585, 0x106aa070]
  ++ [0x19a4c116, 0x1e376c08, 0x2748774c, 0x34b0bcb5, 0x391c0cb3, 0x4ed8aa4a, 0x5b9cca4f, 0x682e6ff3, 0x748f82ee, 0x78a5636f, 0x84c87814, 0x8cc70208, 0x90befffa, 0xa4506ceb, 0xbef9a3f7, 0xc67178f2]

def rotr (n x : Nat) : Nat := (x >>> n) ||| ((x <<< (32 - n)) % 2 ^ 32)

/-- The message schedule: 48 more words. -/
def shaExpand : Nat → List Nat → List Nat
  | 0, w => w
  | n + 1, w =>
    let at_ (k : Nat) := nth w (w.length - k)
    let s0 := rotr 7 (at_ 15) ^^^ rotr 18 (at_ 15) ^^^ (at_ 15 >>> 3)
    let s1 := rotr 17 (at_ 2) ^^^ rotr 19 (at_ 2) ^^^ (at_ 2 >>> 10)
    shaExpand n (w ++ [(at_ 16 + s0 + at_ 7 + s1) % 2 ^ 32])

def shaRound (h : List Nat) (x : Nat × Nat) : List Nat :=
  let v := nth h
  let ch := (v 4 &&& v 5) ^^^ ((2 ^ 32 - 1 - v 4) &&& v 6)
  let maj := (v 0 &&& v 1) ^^^ (v 0 &&& v 2) ^^^ (v 1 &&& v 2)
  let t1 := v 7 + (rotr 6 (v 4) ^^^ rotr 11 (v 4) ^^^ rotr 25 (v 4)) + ch + x.1 + x.2
  let t2 := (rotr 2 (v 0) ^^^ rotr 13 (v 0) ^^^ rotr 22 (v 0)) + maj
  [(t1 + t2) % 2 ^ 32, v 0, v 1, v 2, (v 3 + t1) % 2 ^ 32, v 4, v 5, v 6]

def shaBlock (h b : List Nat) : List Nat :=
  let w := shaExpand 48 ((List.range 16).map fun i => beVal ((b.drop (4 * i)).take 4))
  List.zipWith (fun a c => (a + c) % 2 ^ 32) h ((shaK.zip w).foldl shaRound h)

def shaBlocks : Nat → List Nat → List Nat → List Nat
  | 0, h, _ => h
  | n + 1, h, m => shaBlocks n (shaBlock h (m.take 64)) (m.drop 64)

/-- SHA-256 of a byte string. PRESUMED (log 85). -/
def sha256 (m : List Byte) : List Byte :=
  let b := m.map (·.toNat)
  let z := (119 - b.length % 64) % 64
  let p := b ++ 0x80 :: List.replicate z 0 ++ beBytes 8 (8 * b.length)
  let h := shaBlocks (p.length / 64) [0x6a09e667, 0xbb67ae85, 0x3c6ef372, 0xa54ff53a, 0x510e527f, 0x9b05688c, 0x1f83d9ab, 0x5be0cd19] p
  ((h.map (beBytes 4)).flatten).map (BitVec.ofNat 8)

end Sys2Proof.Machine
end

