-- ==== Sys2Proof/Machine/Freeze.lean ====
section
/-! DEFINITION. Freezing of cores and DMA channels (R356, R357, R401, R402, R414). -/

namespace Sys2Proof.Machine
open Sys2Proof

def State.core (s : State) (n : Nat) : Core := (s.cores[n]?).getD Core.reset
def State.modCore (s : State) (n : Nat) (f : Core → Core) : State := { s with cores := modAt s.cores n f }
def State.modUc (s : State) (f : UcBlock → UcBlock) : State := { s with uc := f s.uc }

/-- UC_EVENT (R403); VALUE is free where no rule gives one. -/
def State.ucEvent (s : State) (kind : Nat) (value : Option Nat) : State :=
  let (s, v) := match value with | some v => (s, v) | none => s.openVal 95
  s.notify 0x8E10 (s.beatBytes ++ u8 kind ++ rsv 3 ++ u32 (v % 2 ^ 32))

/-- The present swap of UC ends without a result (R402). DEDUCED (log 64). -/
def endSwap (stat : Nat) (s : State) : State :=
  match s.uc.swap with
  | some w => (s.modUc fun u => { u with swap := none }).complete w.origin stat []
  | none => s

/-- An access that a core makes. -/
structure CoreAccess where
  addr : Nat
  /-- ACCESS: bit 0 R, 1 W, 2 X, 3 IO -/
  access : Nat
  write : Bool
  rep : Bool
  /-- a LOCK sequence in progress releases its bank -/
  lockFreed : Bool
  sameTick : Bool
  pc : Nat
  next : Word
  instr : List Byte
  deriving DecidableEq, Repr

/-- A violation of a core: CC is logged and the watchdog resets the device after 100 ms; any other core freezes (R356, R401). DEDUCED (log 64). -/
def freezeCore (n : Nat) (v : Violation) (a : CoreAccess) (s : State) : State :=
  if n = 0 then
    let s := s.logFault 1
    { s with power := { s.power with resetDue := some ((s.power.resetDue).getD (s.time.dt + BitVec.ofNat 64 (100 * msUnits), false)) } }
  else
    let window := match v, s.rsHit n a.addr 1 with
      | .rs, some w => w
      | _, _ => 0xFF
    let i : FreezeInfo :=
      { master := n, sub := 0, kind := v, sameTick := a.sameTick, rep := a.rep, lockFreed := a.lockFreed, write := a.write, addr := a.addr, pc := a.pc
        resid := if a.rep then (((s.core n).g[13]?).getD 0).toNat else 0, window := window, access := a.access, instr := a.instr }
    let s := (s.modCore n fun c => { c with mode := .frozen, skipTo := a.next, stall := none }).recordFreeze i
    if n = 7 then
      (endSwap stFault (s.modUc fun u => { u with state := .frozen, freezes := sat32 (u.freezes + 1) })).ucEvent 3 none
    else s

/-- A violation of a DMA channel: it freezes before the failing burst, with its residual count and the lowest failing address (R356). -/
def freezeDma (n : Nat) (v : Violation) (addr : Nat) (write sameTick : Bool) (s : State) : State :=
  let c := s.dmaChan n
  let i : FreezeInfo :=
    { master := 0x12, sub := n, kind := v, sameTick := sameTick, rep := false, lockFreed := false, write := write, addr := addr, pc := c.cur
      resid := (c.run.map fun d => d.length - c.moved).getD 0, window := 0xFF
      access := (if write then 2 else 1) + (if inIo addr then 8 else 0), instr := [] }
  (s.modDma n fun c => { c with state := .frozen, fail := addr }).recordFreeze i

/-- Every read stalled on a range that the cipher unit zeroes faults with kind TAG (R356, R414). -/
def tagFreeze (lo hi : Nat) (s : State) : State :=
  let s := (List.range 8).foldl (fun s n =>
    match (s.core n).stall with
    | some t =>
      if lo < t.addr + t.size ∧ t.addr < hi then
        freezeCore n .tag { addr := t.addr, access := t.access, write := false, rep := t.rep, lockFreed := t.locked, sameTick := false
                            pc := (s.core n).pc.toNat, next := t.next, instr := t.instr } s
      else s
    | none => s) s
  (List.range 24).foldl (fun s n =>
    let c := s.dmaChan n
    if c.state = .running ∧ !c.held s ∧ lo < c.source + c.burst ∧ c.source < hi then freezeDma n .tag (max lo c.source) false false s else s) s

end Sys2Proof.Machine
end

