-- ==== Sys2Proof/Machine/Cipher.lean ====
section
/-! DEFINITION. Cipher units, leases, requests, derivation and key slots (R404–R420, R427, R428). -/

namespace Sys2Proof.Machine
open Sys2Proof

def State.unit (s : State) (n : Nat) : CipherUnit := (s.cipher.units[n]?).getD (CipherUnit.reset n)
def State.modCipher (s : State) (f : Cipher → Cipher) : State := { s with cipher := f s.cipher }
def State.modUnit (s : State) (n : Nat) (f : CipherUnit → CipherUnit) : State := s.modCipher fun c => { c with units := modAt c.units n f }
def State.slot (s : State) (n : Nat) : KeySlot := (s.cipher.slots[n]?).getD KeySlot.reset
def State.modSlot (s : State) (n : Nat) (f : KeySlot → KeySlot) : State := s.modCipher fun c => { c with slots := modAt c.slots n f }

/-! ### Events (R428) -/

/-- KEY_EVENT; where no rule gives VALUE it is a free value. DEDUCED (log 67). -/
def State.keyEvent (s : State) (slot kind : Nat) (value : Option Nat) : State :=
  let (s, v) := match value with
    | some v => (s, v)
    | none => s.openVal 60
  s.notify 0x8C20 (s.beatBytes ++ u8 slot ++ u8 kind ++ rsv 2 ++ u32 (v % 2 ^ 32))

/-- Mismatches of a unit within the last second. -/
def recentMismatches (s : State) (n : Nat) : Nat := ((s.unit n).mismatches.filter fun t => !s.passedMs t 1000).length

def State.cuFault (s : State) (unit kind value : Nat) : State :=
  s.notify 0x8C30 (s.beatBytes ++ u8 unit ++ u8 kind ++ u8 (min 255 (recentMismatches s unit)) ++ rsv 1 ++ u32 (value % 2 ^ 32))

/-- ST_KEY_BUSY and ST_KEY_REVOKED (R428). -/
def Reply.keyBusy (unit slot reason holder : Nat) : Reply := ⟨stKeyBusy, u8 unit ++ u8 slot ++ u8 reason ++ u8 holder⟩
def Reply.keyRevoked (slot cause done : Nat) : Reply := ⟨stKeyRevoked, u8 slot ++ u8 cause ++ rsv 2 ++ u32 done⟩

/-! ### Leases (R408) -/

/-- Requests of a unit that have not ended. -/
def CipherUnit.requests (u : CipherUnit) : List CipherReq := u.running.toList ++ u.queue

/-- The lease has run out. -/
def leaseOver (s : State) (u : CipherUnit) : Bool :=
  u.holder != 0xFF && (u.requests.filter fun r => r.master == u.holder).isEmpty && s.passedMs u.leaseFrom u.leaseMs

/-- The master that holds a unit's lease; CU7 is never leased. -/
def State.holder (s : State) (n : Nat) : Nat :=
  if n = 7 then 0 else let u := s.unit n; if leaseOver s u then 0xFF else u.holder

/-- LEASE in ms: 0 means 10, above 100 acts as 100 (Table 18.3). -/
def leaseLen (v : Nat) : Nat := if v = 0 then 10 else min v 100

/-- Take or renew a lease. -/
def takeLease (s : State) (n master : Nat) : State :=
  let fresh := s.holder n == 0xFF
  s.modUnit n fun u => { u with holder := master, leaseFrom := s.now, leaseMs := if fresh then leaseLen u.lease else u.leaseMs, releasing := u.releasing && !fresh }

/-- RELEASE waits for the holder's operations (R408). -/
def settleRelease (n : Nat) (s : State) : State :=
  let u := s.unit n
  if u.releasing && (u.requests.filter fun r => r.master == u.holder).isEmpty then s.modUnit n fun u => { u with holder := 0xFF, releasing := false } else s

/-- A write of CU_LOCK by UC (Table 18.3). -/
def cuLockWrite (n value : Nat) (s : State) : State :=
  if 7 ≤ n then s
  else
    let s := s.modUnit n fun u => { u with lease := bitsOf value 15 8 }
    let s := if bitOf value 1 && s.holder n == 7 then settleRelease n (s.modUnit n fun u => { u with releasing := true }) else s
    if bitOf value 0 && s.holder n == 0xFF then takeLease s n 7 else s

/-- CU_LOCK as read. -/
def cuLockRead (n : Nat) (s : State) : Nat :=
  let u := s.unit n
  let h := s.holder n
  let busy := u.running.isSome
  let held := h != 0xFF && n != 7
  let left := u.leaseFrom + u.leaseMs * msUnits - s.now
  let remain := if held && (u.requests.filter fun r => r.master == h).isEmpty then min 255 ((left + msUnits - 1) / msUnits) else 0
  h * 2 ^ 24 + remain * 2 ^ 16 + u.lease * 2 ^ 8 + (if u.disabled then 8 else 0) + (if busy then 4 else 0)

/-- DEDUCED (log 12). -/
def State.cipherOn (s : State) : Bool := s.live && s.on 11

def execCuLockAcquire (unit lease : Nat) (s : State) : Host.Outcome State Fault Refusal :=
  .next (if s.cipherOn then cuLockWrite unit (lease % 256 * 256 + 1) s else s)

def execCuLockRelease (unit lease : Nat) (s : State) : Host.Outcome State Fault Refusal :=
  .next (if s.cipherOn then cuLockWrite unit (lease % 256 * 256 + 2) s else s)

/-- A lease runs out (R408). -/
def execLeaseExpiry (unit : Nat) (s : State) : Host.Outcome State Fault Refusal :=
  .next (if s.cipherOn ∧ unit < 7 ∧ leaseOver s (s.unit unit) then s.modUnit unit fun u => { u with holder := 0xFF } else s)

/-- DONE := 0: interrupt line 5 falls (R409). -/
def cuEvtClear (s : State) : State := s.modCipher fun c => { c with evtDone := false }

def execCuEvtClear (s : State) : Host.Outcome State Fault Refusal := .next (if s.cipherOn then cuEvtClear s else s)

/-! ### Key slots (R419, R420) -/

def SlotState.code : SlotState → Nat
  | .empty => 0 | .active => 1 | .rewritePending => 2 | .erasePending => 3

def SlotKey.isSeal (k : SlotKey) : Bool := k.policy.getLsbD 11

/-- The slot's key has run out of time. -/
def SlotKey.expired (k : SlotKey) (dt : DT) : Bool := k.expiry != 0 && decide (k.expiry.toNat ≤ dt.toNat)

/-- The slot becomes EMPTY. -/
def emptySlot (n : Nat) (s : State) : State := s.modSlot n fun _ => KeySlot.reset

/-- A key of an ACTIVE slot expires or is used up: ERASE_PENDING, or EMPTY at once (R419, R420). -/
def endKey (n kind : Nat) (s : State) : State :=
  let s := if (s.slot n).inUse = 0 then emptySlot n s else s.modSlot n fun k => { k with state := .erasePending }
  s.keyEvent n kind none

def expireSlot (n : Nat) (s : State) : State :=
  if (s.slot n).state = .active ∧ (s.slot n).cur.expired s.time.dt then endKey n 4 s else s

/-- IN_USE reaches 0: a pending rewrite becomes active, a pending erase completes (Table 18.10); ERASED is the event of KEY_ERASE, an expiry or exhaustion had its own. DEDUCED (log 67). -/
def drainSlot (n : Nat) (s : State) : State :=
  let k := s.slot n
  if k.inUse ≠ 0 then s
  else match k.state with
    | .rewritePending =>
      let s := (s.modSlot n fun k => { k with state := .active, cur := k.shadow.getD SlotKey.reset, shadow := none }).keyEvent n 2 none
      expireSlot n s
    | .erasePending => if k.erase then (emptySlot n s).keyEvent n 3 none else emptySlot n s
    | _ => s

def execSlotDrained (slot : Nat) (s : State) : Host.Outcome State Fault Refusal := .next (if s.cipherOn then drainSlot slot s else s)

def execKeyExpired (slot : Nat) (s : State) : Host.Outcome State Fault Refusal := .next (if s.cipherOn then expireSlot slot s else s)

/-! ### Derivation (R417, R418) -/

def keyBytes (v : BitVec 256) : List Nat := beBytes 32 v.toNat

/-- The root key; none where derivation is refused (Table 18.8). DEDUCED (log 67). -/
def State.rootKey (s : State) : Nat → Option (List Nat)
  | 0 => some (keyBytes Config.rk0)
  | 1 => if s.nv.rk1Done then some ((leBytes 32 s.nv.rk1.toNat).map BitVec.toNat) else none
  | 2 => Config.rk2.map keyBytes
  | _ => none

/-- The unit that runs device functions (R404). -/
def State.deviceUnit (s : State) : Option Nat := if !(s.unit 7).disabled then some 7 else if !(s.unit 6).disabled then some 6 else none

/-- Count one operation of the device functions. -/
def deviceOp (s : State) : State := match s.deviceUnit with
  | some n => s.modUnit n fun u => { u with ops := sat32 (u.ops + 1) }
  | none => s

/-- Put a derived key into a slot: at once, or into the shadow while operations run (R420). DEDUCED (log 67). -/
def installKey (n : Nat) (k : SlotKey) (s : State) : State :=
  if (s.slot n).state = .active ∧ (s.slot n).inUse ≠ 0 then
    (s.modSlot n fun v => { v with state := .rewritePending, shadow := some k }).keyEvent n 1 none
  else (s.modSlot n fun _ => { state := .active, cur := k, shadow := none, inUse := 0, erase := false }).keyEvent n 1 none

/-- The TRNG fails its tests: a device function ends with ST_FAULT after 10 ms (R416). DEDUCED (log 67). -/
def trngFault (s : State) : State × Reply := (s.cuFault (s.deviceUnit.getD 0xFF) 4 0, ⟨stFault, []⟩)

/-- DEDUCED (log 67). -/
def keyDeriveCmd : HostCmd :=
  { opcode := 0x0C10, len := ⟨24, 88, fun p => some (24 + clampN 0 64 (fieldU p 20 1))⟩, priv := 2
    range := fun q s =>
      let pol := q.u 2 2 % 8192
      [ (0, q.u 0 1 ≤ 31), (1, q.u 1 1 ≤ 3), (2, !bitOf pol 11), (4, q.u 4 4 &&& (0xFFFFFFFF - 0x100081) == 0),
        (12, q.u 12 8 == 0 || s.time.dt.toNat < q.u 12 8), (20, q.u 20 1 ≤ 64), (21, q.u 21 1 ≤ 1) ]
    state := fun q s =>
      let k := s.slot (q.u 0 1)
      [ s.deviceUnit.isSome, (s.rootKey (q.u 1 1)).isSome, !((k.state == .active || k.state == .rewritePending || k.state == .erasePending) && k.cur.isSeal),
        k.state != .active || q.u 21 1 == 1 ]
    late := fun q s => match (s.slot (q.u 0 1)).state with
      | .rewritePending => some (.keyBusy 0xFF (q.u 0 1) 2 0xFF)
      | .erasePending => some (.keyBusy 0xFF (q.u 0 1) 3 0xFF)
      | _ => none
    effect := fun q s =>
      if s.cipher.trngFail.isSome then trngFault s
      else
        let label := fieldB q.payload 24 (q.u 20 1)
        let k : SlotKey :=
          { key := (deriveKey ((s.rootKey (q.u 1 1)).getD []) (label.map (·.toNat)) (q.u 2 2 % 8192)).map (BitVec.ofNat 8)
            policy := BitVec.ofNat 16 (q.u 2 2 % 8192), root := q.u 1 1, labelLen := q.u 20 1, labelCrc := crc32c label
            masters := BitVec.ofNat 32 (q.u 4 4), uses := if q.u 8 4 = 0 then 0xFFFFFFFF else q.u 8 4, expiry := BitVec.ofNat 64 (q.u 12 8) }
        (installKey (q.u 0 1) k (deviceOp s), .ok []) }

def execKeyDerive (q : Qcp) (s : State) : Host.Outcome State Fault Refusal := runHost keyDeriveCmd q s

def keySlotReadCmd : HostCmd :=
  { opcode := 0x0C12, len := .fixed 4, priv := 0
    range := fun q _ => [(0, q.u 0 1 ≤ 31), (1, 1 ≤ q.u 1 1 && q.u 0 1 + q.u 1 1 ≤ 32)]
    effect := fun q s => (s, .ok (((List.range (q.u 1 1)).map fun i =>
      let n := q.u 0 1 + i
      let k := s.slot n
      if k.state = .empty then u8 n ++ rsv 31
      else u8 n ++ u8 k.state.code ++ u16 k.cur.policy.toNat ++ u32 k.cur.masters.toNat ++ u32 k.cur.uses ++ u16 k.inUse ++ u8 k.cur.root
        ++ u8 k.cur.labelLen ++ leBytes 8 k.cur.expiry.toNat ++ u32 k.cur.labelCrc ++ rsv 4).flatten)) }

def execKeySlotRead (q : Qcp) (s : State) : Host.Outcome State Fault Refusal := runHost keySlotReadCmd q s

def cuStatusCmd : HostCmd :=
  { opcode := 0x0C01, len := .fixed 0, priv := 0
    effect := fun _ s => (s, .ok (((List.range 8).map fun n =>
      let u := s.unit n
      u8 (if u.disabled then 2 else if u.running.isSome then 1 else 0) ++ u8 (s.holder n) ++ u8 u.queue.length
        ++ u8 (min 255 (recentMismatches s n)) ++ u32 u.ops).flatten)) }

def execCuStatus (q : Qcp) (s : State) : Host.Outcome State Fault Refusal := runHost cuStatusCmd q s

/-! ### Acceptance of a request (R407–R409, R414, R419) -/

def reqOf (p : List Byte) (master : Nat) (origin : Option Origin) (resultAt now : Nat) : CipherReq :=
  { unit := fieldU p 0 1, mode := fieldU p 1 1, slot := fieldU p 2 1, flags := fieldU p 3 1, src := fieldU p 4 4, dst := fieldU p 8 4
    length := fieldU p 12 4, aad := fieldU p 16 4, aadLen := fieldU p 20 2, tagLen := fieldU p 22 1, iv := fieldB p 24 16, tag := fieldU p 40 4
    master := master, origin := origin, resultAt := resultAt, accepted := now, latest := master == 7, key := [], abort := none }

def CipherReq.single (r : CipherReq) : Bool := r.mode == 11 && r.flags % 2 == 1
def CipherReq.aead (r : CipherReq) : Bool := r.mode == 10 || r.mode == 11
def CipherReq.tagged (r : CipherReq) : Bool := decide (r.mode ≤ 1) || r.aead

/-- Bytes written at DST (Table 18.7). -/
def CipherReq.outLen (r : CipherReq) : Nat := if r.mode ≤ 1 then 0 else if r.mode = 2 then 16 * (r.length / 16 + 1) else r.length

/-- The bit of the slot policy that permits a mode (Table 18.7). -/
def modeBit (m : Nat) : Nat := ([0, 1, 2, 3, 4, 5, 5, 6, 6, 7, 8, 9][m]?).getD 15

/-- A master may access a range (R340, R345, and for UC R354). -/
def rangeOk (s : State) (master a n : Nat) (write : Bool) : Bool :=
  if n = 0 then true
  else
    let v := if master = 7 then (s.judgeCore 7 (if write then .store else .load) a n).1 else (s.judgeBanks master a n write).1
    match v with | .bad _ => false | _ => true

/-- DST: managed memory, or one I/O word for MODE 2–9; equal to SRC or apart from it. -/
def dstOk (s : State) (r : CipherReq) : Bool :=
  if inIo r.dst then
    decide (2 ≤ r.mode ∧ r.mode ≤ 9) && r.dst % 4 == 0 && (r.master != 7 || (match (s.judgeCore 7 .store r.dst 4).1 with | .ok => true | _ => false))
  else r.outLen == 0 || (rangeOk s r.master r.dst r.outLen true
    && (r.dst == r.src || !(decide (r.src < r.dst + r.outLen ∧ r.dst < r.src + r.length))))

def reqRange (s : State) (r : CipherReq) : List (Int × Bool) :=
  [ (0, r.unit ≤ 6 || r.unit == 0xF0 || r.unit == 0xF1), (1, r.mode ≤ 11), (2, r.slot ≤ 31),
    (3, r.flags == 0 || (r.flags == 1 && r.mode == 11 && (inMem r.dst) && r.length ≤ 65536)),
    (4, rangeOk s r.master r.src r.length false), (8, dstOk s r),
    (12, r.length ≤ 16777216 && (r.length != 0 || r.mode ≤ 1 || r.aead) && (r.mode != 3 || r.length % 16 == 0)),
    (16, !r.aead || rangeOk s r.master r.aad r.aadLen false), (22, !r.tagged || (4 ≤ r.tagLen && r.tagLen ≤ 16)),
    (40, !r.tagged || rangeOk s r.master r.tag r.tagLen (r.mode == 0 || r.mode == 10)) ]

/-- The queue has room (R404). -/
def CipherUnit.room (u : CipherUnit) : Bool := u.running.isNone || decide (u.queue.length < 4)

def leasedTo (s : State) (n master : Nat) : Bool := s.holder n != 0xFF && s.holder n != master

/-- The unit that takes a request, or the refusal (R408). -/
def pickUnit (s : State) (master unit : Nat) : Sum Nat Reply :=
  if unit ≤ 6 then
    if (s.unit unit).disabled then .inr .state
    else if leasedTo s unit master then .inr (.keyBusy unit 0xFF 1 (s.holder unit))
    else if (s.unit unit).room then .inl unit else .inr .noResource
  else
    let kind := if unit = 0xF0 then List.range 6 else [6]
    let on := kind.filter fun n => !(s.unit n).disabled
    let mine := on.filter fun n => !leasedTo s n master
    match mine.find? (fun n => (s.unit n).room) with
    | some n => .inl n
    | none => .inr (if on.isEmpty then .state else if mine.isEmpty then .keyBusy 0xFF 0xFF 1 0xFF else .noResource)

/-- The checks of the slot, in the order of R419. -/
def slotCheck (s : State) (r : CipherReq) : Option Reply :=
  let k := s.slot r.slot
  match k.state with
  | .empty => some .state
  | .rewritePending => some (.keyBusy 0xFF r.slot 2 0xFF)
  | .erasePending => some (.keyBusy 0xFF r.slot 3 0xFF)
  | .active =>
    if k.cur.expired s.time.dt then some (.keyRevoked r.slot 2 0)
    else if k.cur.uses = 0 then some (.keyRevoked r.slot 3 0)
    else if !k.cur.policy.getLsbD (modeBit r.mode) || !k.cur.masters.getLsbD r.master || k.cur.isSeal then some (.range 2)
    else if r.single && !k.cur.policy.getLsbD 10 then some (.range 3) else none

/-- At most one UNVERIFIED range per unit (R414). -/
def singleFree (s : State) (n : Nat) (r : CipherReq) : Bool := !r.single || !((s.unit n).requests.any CipherReq.single)

/-- Start the oldest waiting request of a free unit (R404). -/
def startNext (n : Nat) (s : State) : State :=
  s.modUnit n fun u => match u.running, u.queue with
    | none, r :: rs => if u.disabled then u else { u with running := some r, queue := rs }
    | _, _ => u

/-- Accept a request on a unit: the slot counts it, the lease is taken or renewed, and it runs when the unit is free. -/
def acceptOn (n : Nat) (r : CipherReq) (s : State) : State :=
  let s := takeLease s n r.master
  let s := if r.latest then
      s.modCipher fun c => { c with ucStatus := stAccepted, units := c.units.map fun u =>
        { u with running := u.running.map fun x => { x with latest := false }, queue := u.queue.map fun x => { x with latest := false } } }
    else s
  let s := s.modUnit n fun u => { u with queue := u.queue ++ [{ r with key := (s.slot r.slot).cur.key }] }
  let s := s.modSlot r.slot fun k => { k with inUse := k.inUse + 1, cur := { k.cur with uses := if k.cur.uses = 0xFFFFFFFF then k.cur.uses else k.cur.uses - 1 } }
  let s := startNext n s
  if (s.slot r.slot).cur.uses = 0 then endKey r.slot 5 s else s

/-- Everything after the range checks: the unit, the slot, single pass. -/
def placeReq (s : State) (r : CipherReq) : Sum Nat Reply :=
  match pickUnit s r.master r.unit with
  | .inr e => .inr e
  | .inl n => match slotCheck s r with
    | some e => .inr e
    | none => if singleFree s n r then .inl n else .inr (.range 3)

def cipherRunCmd : HostCmd :=
  let req (q : Qcp) (s : State) := reqOf q.payload 0x14 (some (q.origin 0x0C20)) 0 s.now
  { opcode := 0x0C20, len := .fixed 48, priv := 1
    range := fun q s => reqRange s (req q s)
    late := fun q s => match placeReq s (req q s) with | .inr e => some e | .inl _ => none
    effect := fun q s => match placeReq s (req q s) with
      | .inl n => (acceptOn n (req q s) s, ⟨stAccepted, []⟩)
      | .inr e => (s, e) }

def execCipherRun (q : Qcp) (s : State) : Host.Outcome State Fault Refusal := runHost cipherRunCmd q s

/-- CP3 SUBMIT: the request block at an address; the status for g_a (R388, R409). -/
def cipherSubmit (a : Nat) (s : State) : State × Nat :=
  if !s.cipherOn then (s, stState)
  else
    let r := reqOf (s.memRead a 48) 7 none (a + 48) s.now
    match (reqRange s r).find? fun x => !x.2 with
    | some _ => (s, stRange)
    | none => match placeReq s r with
      | .inr e => (s, e.stat)
      | .inl n => (acceptOn n r s, stOk)

/-- Mark requests to end at their next block boundary. -/
def abortWhere (p : CipherReq → Bool) (status : Nat) (s : State) : State :=
  let f (r : CipherReq) : CipherReq := if p r && r.abort.isNone then { r with abort := some status } else r
  s.modCipher fun c => { c with units := c.units.map fun u => { u with running := u.running.map f, queue := u.queue.map f } }

/-- CP3 CANCEL: the core's latest request; the status for g_a. -/
def cipherCancel (s : State) : State × Nat :=
  if s.cipherOn && (s.cipherReqs.any fun r => r.latest) then (abortWhere (fun r => r.latest) stState s, stOk) else (s, stState)

/-! ### The end of an operation (R406, R407, R409, R413–R415) -/

/-- What an operation computes: status, outputs to write (address, bytes), OUT_LEN, BAD_PAD, IV_OUT and AES blocks. -/
structure CipherOut where
  status : Nat
  writes : List (Nat × List Nat)
  outLen : Nat
  badPad : Bool
  ivOut : List Nat
  blocks : Nat

def ceil16 (n : Nat) : Nat := (n + 15) / 16

/-- The computation of a mode (Table 18.7, R410–R414). DESIGN CHOICE (log 66). -/
def compute (key m iv aad tag : List Nat) (r : CipherReq) : CipherOut :=
  let bs := toBlocks m
  let n := ceil16 m.length
  let zero := List.replicate 16 0
  let io (x : List Nat × List Nat) (blocks : Nat) : CipherOut :=
    { status := stOk, writes := [(r.dst, x.1)], outLen := x.1.length, badPad := false, ivOut := x.2, blocks := blocks }
  let cpcBlocks := (if key.length = 16 then 3 else 5) + 1 + (1 + ceil16 aad.length + ceil16 (m.length + 16))
  match r.mode with
  | 0 => { status := stOk, writes := [(r.tag, (cmac key m).take r.tagLen)], outLen := 0, badPad := false, ivOut := zero, blocks := 1 + max 1 n }
  | 1 => { status := if (cmac key m).take r.tagLen = tag then stOk else stTagFail, writes := [], outLen := 0, badPad := false, ivOut := zero, blocks := 1 + max 1 n }
  | 2 => io (cbcEnc key (padded m) iv) (m.length / 16 + 1)
  | 3 =>
    let x := cbcDec key bs iv
    let (len, bad) := unpad x.1
    { io x n with outLen := len, badPad := bad }
  | 4 => io (ctrMode key bs iv) n
  | 5 => io (cfb8 key false m iv) m.length
  | 6 => io (cfb8 key true m iv) m.length
  | 7 => io (cfb128 key false bs iv) n
  | 8 => io (cfb128 key true bs iv) n
  | 9 => io (ofb key bs iv) n
  | 10 =>
    let c := (ctrMode (cpcKeys key).1 bs iv).1
    { status := stOk, writes := [(r.dst, c), (r.tag, (cpcTag key iv aad c).take r.tagLen)], outLen := c.length, badPad := false, ivOut := zero, blocks := cpcBlocks + n }
  | _ =>
    if (cpcTag key iv aad m).take r.tagLen = tag then
      { status := stOk, writes := [(r.dst, (ctrMode (cpcKeys key).1 bs iv).1)], outLen := m.length, badPad := false, ivOut := zero, blocks := cpcBlocks + n }
    else { status := stTagFail, writes := [], outLen := 0, badPad := false, ivOut := zero, blocks := cpcBlocks + (if r.single then n else 0) }

def memNat (s : State) (a n : Nat) : List Nat := (s.memRead a n).map (·.toNat)

/-- Write an output; `ioPut` takes the words of an output to I/O space, the last one zero-padded (R410). -/
def putOut (ioPut : Nat → Nat → State → State) (o : Nat × List Nat) (s : State) : State :=
  if inIo o.1 then
    (List.range ((o.2.length + 3) / 4)).foldl (fun s i => ioPut o.1 (leNat (((o.2.drop (4 * i)).take 4).map (BitVec.ofNat 8))) s) s
  else s.memPut o.1 (o.2.map (BitVec.ofNat 8))

/-- Zero what an operation wrote, and its whole UNVERIFIED range, whose stalled readers fault (R406, R414). DESIGN CHOICE (log 66). -/
def scrub (r : CipherReq) (progress : Nat) (s : State) : State :=
  if r.single then
    tagFreeze (r.dst / 64 * 64) ((r.dst + r.length + 63) / 64 * 64)
      (s.memPut (r.dst / 64 * 64) (rsv ((r.dst + r.length + 63) / 64 * 64 - r.dst / 64 * 64)))
  else if r.outLen = 0 ∨ inIo r.dst ∨ r.mode = 11 then s
  else s.memPut r.dst (rsv (min progress r.outLen))

/-- The 32 bytes of Table 18.5. -/
def resultBytes (outLen status unit flags blocks duration : Nat) (iv : List Nat) : List Byte :=
  u32 outLen ++ u8 status ++ u8 unit ++ u8 flags ++ rsv 1 ++ u32 blocks ++ u32 duration ++ iv.map (BitVec.ofNat 8)

/-- Report a request's end to its requester (R409, R428). -/
def reportReq (unit : Nat) (r : CipherReq) (status outLen flags blocks : Nat) (iv : List Nat) (s : State) : State :=
  let res := resultBytes outLen status unit flags (blocks % 2 ^ 32) (sat32 ((s.now - r.accepted) / 64000)) iv
  match r.origin with
  | some o => s.complete o status res
  | none =>
    let s := s.memPut r.resultAt res
    s.modCipher fun c => { c with evtDone := true, evtStatus := status, ucStatus := if r.latest then status else c.ucStatus }

/-- The request leaves its slot; an operation on a slot erased at once no longer counts there (R420). -/
def leaveSlot (r : CipherReq) (s : State) : State :=
  if r.abort = some stKeyRevoked then s
  else drainSlot r.slot (s.modSlot r.slot fun k => { k with inUse := k.inUse - 1 })

/-- A waiting request ends without running. -/
def endWaiting (unit : Nat) (r : CipherReq) (status : Nat) (s : State) : State :=
  let s := s.modUnit unit fun u => { u with queue := u.queue.filter fun x => x != r }
  let s := if r.single then scrub r 0 s else s
  leaveSlot r (reportReq unit r status 0 0 0 (List.replicate 16 0) s)

/-- The running request of a unit ends: it leaves the unit, the lease is renewed or ends, and the next request starts. -/
def freeUnit (n : Nat) (r : CipherReq) (s : State) : State :=
  let s := s.modUnit n fun u => { u with running := none, leaseFrom := s.now, ops := sat32 (u.ops + 1) }
  let left := ((s.unit n).queue.filter fun x => x.master == r.master).isEmpty
  let s := if r.master = 0x14 ∧ left ∧ (s.unit n).holder = 0x14 then s.modUnit n fun u => { u with holder := 0xFF } else s
  startNext n (settleRelease n s)

/-- A running operation ends without its result: scrub, report, leave (R406, R409, R415, R420). DESIGN CHOICE (log 66). -/
def failOp (n : Nat) (r : CipherReq) (status progress : Nat) (s : State) : State :=
  let s := scrub r progress s
  let (s, blocks) := s.openVal 61
  let done := if status = stKeyRevoked then min progress r.length else 0
  let s := freeUnit n r s
  leaveSlot r (reportReq n r status done 0 blocks (List.replicate 16 0) s)

/-- Queued requests marked to end are ended without running. -/
def endMarked (n : Nat) (s : State) : State :=
  (s.unit n).queue.foldl (fun s r => match r.abort with | some st => endWaiting n r st s | none => s) s

/-- A unit that mismatched three times in a second is disabled until device reset: queued requests end with ST_STATE (R415). -/
def disableUnit (n : Nat) (s : State) : State :=
  let s := (s.modUnit n fun u => { u with disabled := true }).logFault 8 |>.cuFault n 2 0
  (s.unit n).queue.foldl (fun s r => endWaiting n r stState s) s

/-- Ranges the operation reads and writes, still permitted; the first address that is not. -/
def runtimeBad (s : State) (r : CipherReq) : Option Nat :=
  let rs := [(r.src, r.length, false), (r.dst, if inIo r.dst then 0 else r.outLen, true), (r.aad, if r.aead then r.aadLen else 0, false),
    (r.tag, if r.tagged then r.tagLen else 0, r.mode == 0 || r.mode == 10)]
  (rs.find? fun x => !rangeOk s r.master x.1 x.2.1 x.2.2).map (·.1)

/-- An operation that no access fails writes what its mode computes and reports it; a failing tag scrubs a single-pass output (R409, R413, R414). DESIGN CHOICE (log 66). -/
def finishOp (ioPut : Nat → Nat → State → State) (n : Nat) (how : CipherEnd) (r : CipherReq) (s : State) : State :=
  let o := compute (r.key.map (·.toNat)) (memNat s r.src r.length) (r.iv.map (·.toNat)) (if r.aead then memNat s r.aad r.aadLen else [])
    (if r.tagged then memNat s r.tag r.tagLen else []) r
  let s := o.writes.foldl (fun s w => putOut ioPut w s) s
  let s := if o.status = stTagFail ∧ r.single then scrub r r.length s else s
  let s := freeUnit n r s
  leaveSlot r (reportReq n r o.status o.outLen ((if o.badPad then 1 else 0) + (if how.mismatches.isEmpty then 0 else 2)) o.blocks o.ivOut s)

/-- An operation without a fault of its unit ends: aborted, with a failed access (CU_FAULT of kind 3), or finished (R407, R420). -/
def endOp (ioPut : Nat → Nat → State → State) (n : Nat) (how : CipherEnd) (r : CipherReq) (s : State) : State :=
  match (if r.length ≤ how.progress ∧ r.length ≠ 0 then none else r.abort) with
  | some st => failOp n r st how.progress s
  | none =>
    let (s, bad) := if r.length = 0 then (s, none) else s.eccRead r.master r.src r.length
    match (runtimeBad s r).or bad with
    | some a => failOp n r stFault how.progress (s.cuFault n 3 a)
    | none => finishOp ioPut n how r s

/-- The running operation of a unit ends: by a second mismatch of a block, or as `endOp` says (R407, R409, R413–R416, R420). DESIGN CHOICE (log 66). -/
def completeOp (ioPut : Nat → Nat → State → State) (n : Nat) (how : CipherEnd) (s : State) : State :=
  match (s.unit n).running with
  | none => s
  | some r =>
    let s := how.mismatches.foldl (fun s b => (s.modUnit n fun u => { u with mismatches := s.now :: u.mismatches.filter fun t => !s.passedMs t 1000 }).cuFault n 1 b) s
    let s := match how.failed with
      | some b => (s.modUnit n fun u => { u with mismatches := s.now :: u.mismatches }).cuFault n 1 b
      | none => s
    if 3 ≤ recentMismatches s n then failOp n r stFault how.progress (disableUnit n s)
    else if how.failed.isSome then failOp n r stFault how.progress s
    else endOp ioPut n how r s

def execCipherOpStart (unit : Nat) (s : State) : Host.Outcome State Fault Refusal :=
  .next (if s.cipherOn ∧ unit < 7 then startNext unit s else s)

/-- An operation cannot start a block while the TRNG fails; after 10 ms it ends with ST_FAULT (R416). -/
def execTrngStallTimeout (unit progress : Nat) (s : State) : Host.Outcome State Fault Refusal :=
  match s.cipher.trngFail, (s.unit unit).running with
  | some t, some r =>
    if s.cipherOn ∧ s.passedMs (max t r.accepted) 10 then .next (failOp unit r stFault progress (s.cuFault unit 4 (progress / 16))) else .next s
  | _, _ => .next s

def execTrngHealthFail (s : State) : Host.Outcome State Fault Refusal :=
  .next (if s.cipherOn ∧ s.cipher.trngFail.isNone then s.modCipher fun c => { c with trngFail := some s.now } else s)

def execTrngHealthPass (s : State) : Host.Outcome State Fault Refusal :=
  .next (if s.cipherOn then s.modCipher fun c => { c with trngFail := none } else s)

/-! ### KEY_ERASE (R420) -/

/-- Erase at once: the key is overwritten and its operations abort. -/
def eraseNow (n : Nat) (s : State) : State :=
  let s := abortWhere (fun r => r.slot == n) stKeyRevoked s
  let s := (emptySlot n s).keyEvent n 3 none
  (List.range 8).foldl (fun s u => endMarked u s) s

def keyEraseCmd (after : Nat → State → State) : HostCmd :=
  { opcode := 0x0C11, len := .fixed 4, priv := 2, range := fun q _ => [(0, q.u 0 1 ≤ 31), (1, q.u 1 1 ≤ 1)]
    late := fun q s => if q.u 1 1 = 0 ∧ (s.slot (q.u 0 1)).state = .rewritePending then some (.keyBusy 0xFF (q.u 0 1) 2 0xFF) else none
    effect := fun q s =>
      let n := q.u 0 1
      let k := s.slot n
      if q.u 1 1 = 1 then (if k.state = .empty then (s, .ok []) else (after n (eraseNow n s), .ok []))
      else match k.state with
        | .active => (drainSlot n (s.modSlot n fun k => { k with state := .erasePending, erase := true }), .ok [])
        | _ => (s, .ok []) }

/-- UC_STOP and a swap cancel UC's requests and release its leases (R399, R408). -/
def cancelUc (s : State) : State :=
  let s := abortWhere (fun r => r.master == 7) stState s
  let s := (List.range 8).foldl (fun s u => endMarked u s) s
  (List.range 7).foldl (fun s n => if s.holder n = 7 then settleRelease n (s.modUnit n fun u => { u with releasing := true }) else s) s

/-- PD11 goes off: every slot empties (R419). -/
def cipherOff (s : State) : State := s.modCipher fun c =>
  { Cipher.reset with units := c.units.mapIdx fun i u => { CipherUnit.reset i with disabled := u.disabled, ops := u.ops } }

end Sys2Proof.Machine
end

