-- ==== Sys2Proof/Machine/Seal.lean ====
section
/-! DEFINITION. Sealed fix records: the seal counter, seals and their commands (R421–R427), and KEY_ERASE. -/

namespace Sys2Proof.Machine
open Sys2Proof

def State.modSeal (s : State) (f : Seal → Seal) : State := { s with sealing := f s.sealing }

/-- The seal slot holds an ACTIVE seal key. -/
def sealSlotActive (s : State) : Bool :=
  let k := s.slot s.sealing.cfg.slot
  k.state == .active && k.cur.isSeal

/-- The counter is exhausted (R423). -/
def Seal.exhausted (v : Seal) : Bool := v.any && decide (v.last = 0xFFFFFFFFFFFFFFFE)

/-- The next counter value. -/
def Seal.next (v : Seal) : Nat := if v.any then v.last + 1 else 0

/-- A seal request is refused or skipped (R424), source record apart. -/
def sealBlocked (s : State) : Bool :=
  s.saturated || !s.sealing.cfg.enable || !sealSlotActive s || s.sealing.exhausted || s.deviceUnit.isNone

def CPos (v : Int) : Int := roundDiv (v * 256) 10000

/-- Bytes 0–47 of a sealed fix record (Tables 18.11, 18.12). -/
def sealBody (r : NavRec) (resolved : Bool) (ctr : Nat) : List Byte :=
  u64 (r.dt.toNat / 4096 * 4096 + r.tscale % 8 * 512 + (if resolved then 256 else 0) + r.integrity % 256)
  ++ u64 r.time ++ u64 ctr ++ leBytes 4 r.epoch.toNat
  ++ ((List.range 3).map fun i => i32 (CPos ((r.pos[i]?).getD 0))).flatten
  ++ ((List.range 3).map fun i => i16 (clampI (-32767) 32767 (roundDiv ((r.vel[i]?).getD 0) 10))).flatten ++ u16 r.gen

/-- The CMAC of bytes 0–47 under the seal key. -/
def sealTag (s : State) (body : List Byte) : List Byte :=
  (cmac (((s.slot s.sealing.cfg.slot).cur.key).map (·.toNat)) (body.map (·.toNat))).map (BitVec.ofNat 8)

/-- Assign the next counter value: CEIL is written ahead (R423). -/
def assignSeal (r : NavRec) (resolved : Bool) (s : State) : State × Nat :=
  let v := s.sealing.next
  let s := if s.nv.ceil ≤ v then { s with nv := { s.nv with ceil := min (v + 1024) 0xFFFFFFFFFFFFFFFF } } else s
  (s.modSeal fun k => { k with last := v, any := true, jobs := k.jobs ++ [{ ctr := v, body := sealBody r resolved v }] }, v)

/-- Complete the oldest seal: its record joins the log and is sent (R424, R425). -/
def completeSeal (fault : Bool) (s : State) : State :=
  match s.sealing.jobs with
  | [] => s
  | j :: js =>
    let s := s.modSeal fun k => { k with jobs := js }
    if fault || !sealSlotActive s then s.keyEvent s.sealing.cfg.slot 7 (some (j.ctr % 2 ^ 32))
    else
      let rec_ := j.body ++ sealTag s j.body
      ((deviceOp s).modSeal fun k => { k with log := pushCap 256 k.log (j.ctr, rec_) }).notify 0x8C10 rec_

/-- Complete every seal in counter order. -/
def completeSeals (s : State) : State := s.sealing.jobs.foldl (fun s _ => completeSeal false s) s

def execSealComplete (fault : Bool) (s : State) : Host.Outcome State Fault Refusal := .next (if s.cipherOn then completeSeal fault s else s)

/-- A record of a source was produced: every DECIM-th is sealed (R424). -/
def autoSeal (source : Nat) (r : NavRec) (s : State) : State :=
  let c := s.sealing.cfg
  if !c.enable || c.source.inForce != source || c.decim.inForce == 0 then s
  else
    let s := s.modSeal fun k => { k with count := k.count + 1 }
    if s.sealing.count % c.decim.inForce ≠ 0 then s
    else if sealBlocked s then s.keyEvent c.slot 7 none
    else (assignSeal r false s).1

/-- A re-solved seal: its counter value, 0 if it is skipped (R299, R424). -/
def resolvedSeal (r : NavRec) (s : State) : State × Nat :=
  if sealBlocked s then (s.keyEvent s.sealing.cfg.slot 7 none, 0) else assignSeal r true s

/-- The latest record of a source: 0 PVT, 1 fused. -/
def NavSys.record (n : NavSys) (source : Nat) : Option NavRec := if source = 0 then n.pvt else n.fused

def sealNowCmd : HostCmd :=
  { opcode := 0x0C31, len := .fixed 4, priv := 1, range := fun q _ => [(0, q.u 0 1 ≤ 1)]
    state := fun q s => [!sealBlocked s, (s.nav.record (q.u 0 1)).isSome]
    late := fun _ s => if s.deviceUnit = some 6 ∧ (s.unit 6).running.isSome then some (.keyBusy 6 0xFF 4 (s.holder 6)) else none
    effect := fun q s => match s.nav.record (q.u 0 1) with
      | none => (s, .state)
      | some r =>
        let s := completeSeals s
        let (s, ctr) := assignSeal r false s
        if s.cipher.trngFail.isSome then
          let (s, e) := trngFault s
          (completeSeal true s, e)
        else
          let body := sealBody r false ctr
          let s := completeSeal false s
          (s, .ok (body ++ sealTag s body)) }

def execSealNow (q : Qcp) (s : State) : Host.Outcome State Fault Refusal := runHost sealNowCmd q s

/-- DEDUCED (log 68). -/
def sealReadCmd : HostCmd :=
  let held (q : Qcp) (s : State) := (s.sealing.log.filter fun x => decide (q.u 0 8 ≤ x.1)).take (q.u 8 1)
  { opcode := 0x0C32, len := .fixed 12, priv := 0
    range := fun q s => [(0, !(s.sealing.log.filter fun x => decide (q.u 0 8 ≤ x.1)).isEmpty), (8, 1 ≤ q.u 8 1 && q.u 8 1 ≤ 63)]
    effect := fun q s => (s, .ok ((held q s).map (·.2)).flatten) }

def execSealRead (q : Qcp) (s : State) : Host.Outcome State Fault Refusal := runHost sealReadCmd q s

def sealVerifyCmd : HostCmd :=
  { opcode := 0x0C33, len := .fixed 64, priv := 1
    state := fun _ s => [s.deviceUnit.isSome, (s.slot s.sealing.cfg.slot).cur.isSeal && ((s.slot s.sealing.cfg.slot).state == .active || (s.slot s.sealing.cfg.slot).state == .rewritePending)]
    late := fun _ s => if (s.slot s.sealing.cfg.slot).state = .rewritePending then some (.keyBusy 0xFF s.sealing.cfg.slot 2 0xFF) else none
    effect := fun q s =>
      if s.cipher.trngFail.isSome then trngFault s
      else
        let s := deviceOp s
        if sealTag s (q.payload.take 48) ≠ q.payload.drop 48 then (s, ⟨stTagFail, []⟩)
        else (s, .ok (ub (q.u 24 4 == s.nv.epoch.toNat) ++ ub (s.sealing.any && decide (q.u 16 8 ≤ s.sealing.last)) ++ rsv 2)) }

def execSealVerify (q : Qcp) (s : State) : Host.Outcome State Fault Refusal := runHost sealVerifyCmd q s

/-- LABEL of the seal key (R421). -/
def sealLabel (keyGen : Nat) : List Byte := [0x53, 0x45, 0x41, 0x4C] ++ leBytes 8 Config.serial.toNat ++ u16 keyGen

/-- Derive the seal key that SEAL_CFG describes into its slot (R421). -/
def deriveSeal (c : SealCfg) (s : State) : State :=
  match s.rootKey c.root with
  | none => s
  | some root =>
    let label := sealLabel c.keyGen
    installKey c.slot
      { key := (deriveKey root (label.map (·.toNat)) 0x1800).map (BitVec.ofNat 8), policy := 0x1800, root := c.root, labelLen := 14
        labelCrc := crc32c label, masters := 1, uses := 0xFFFFFFFF, expiry := 0 } (deviceOp s)

/-- The key held in a slot is the one that SEAL_CFG describes. -/
def sealKeyHeld (c : SealCfg) (s : State) : Bool :=
  let k := s.slot c.slot
  let key := k.shadow.getD k.cur
  k.state != .empty && key.isSeal && key.root == c.root && key.labelCrc == crc32c (sealLabel c.keyGen)

def sealCfgOf (q : Qcp) (old : SealCfg) : SealCfg :=
  { enable := q.u 0 1 == 1, slot := q.u 1 1, root := q.u 2 1, source := old.source.commit (q.u 3 1), decim := old.decim.commit (q.u 4 2), keyGen := q.u 6 2 }

def sealCfgCmd : HostCmd :=
  { opcode := 0x0C30, len := .fixed 8, priv := 2
    range := fun q s =>
      let n := q.u 1 1
      let k := s.slot n
      [ (0, q.u 0 1 ≤ 1), (1, n ≤ 31 && (q.u 0 1 == 0 || k.state == .empty || (n == s.sealing.cfg.slot && k.cur.isSeal))), (2, q.u 2 1 ≤ 2), (3, q.u 3 1 ≤ 1),
        (4, q.u 4 2 ≤ 1000) ]
    state := fun q s =>
      let c := s.sealing.cfg
      let new := sealCfgOf q c
      [ !c.enable || (new.slot == c.slot && new.root == c.root), !new.enable || ((s.rootKey new.root).isSome && s.deviceUnit.isSome),
        new.keyGen == c.keyGen || (s.slot c.slot).state != .rewritePending ]
    late := fun q s => if q.u 0 1 = 1 ∧ (s.slot (q.u 1 1)).state = .erasePending then some (.keyBusy 0xFF (q.u 1 1) 3 0xFF) else none
    effect := fun q s =>
      let c := s.sealing.cfg
      let new := sealCfgOf q c
      let s := s.modSeal fun v => { v with cfg := new, count := if new.enable && !c.enable then 0 else v.count }
      if !new.enable || sealKeyHeld new s then (s, .ok [])
      else if s.cipher.trngFail.isSome then trngFault s
      else (deriveSeal new s, .ok []) }

def execSealCfg (q : Qcp) (s : State) : Host.Outcome State Fault Refusal := runHost sealCfgCmd q s

/-- The Epoch-coded fields of SEAL_CFG take effect. -/
def sealEpoch (s : State) : State := s.modSeal fun v => { v with cfg := { v.cfg with source := v.cfg.source.latch, decim := v.cfg.decim.latch } }

/-- Seals whose key is erased at once fail (R420, R424). -/
def failSeals (n : Nat) (s : State) : State :=
  if n = s.sealing.cfg.slot then s.sealing.jobs.foldl (fun s _ => completeSeal true s) s else s

def execKeyErase (q : Qcp) (s : State) : Host.Outcome State Fault Refusal := runHost (keyEraseCmd failSeals) q s

end Sys2Proof.Machine
end

