-- ==== Sys2Proof/Machine/Net.lean ====
section
/-! DEFINITION. The Ethernet MACs: configuration, frames, timestamps, launch frames, IPv4 and UDP (R264–R272, R308). -/

namespace Sys2Proof.Machine
open Sys2Proof

def State.port (s : State) (n : Nat) : EthPort := (s.eth[n]?).getD EthPort.reset
def State.modPort (s : State) (n : Nat) (f : EthPort → EthPort) : State := { s with eth := modAt s.eth n f }

/-- The port receives and sends: PD12 is on, the port is enabled and its link is up. -/
def State.portUp (s : State) (n : Nat) : Bool := s.live && s.on 12 && (s.port n).cfg.enable && decide ((s.port n).link ≠ 0)

/-! ### Bytes on the line -/

/-- One bit, and one byte, of the reflected IEEE 802.3 CRC-32. -/
def fcsBit (c : Nat) : Nat := if c % 2 == 1 then (c / 2) ^^^ 0xEDB88320 else c / 2
def fcsByte (c : Nat) (b : Byte) : Nat := fcsBit (fcsBit (fcsBit (fcsBit (fcsBit (fcsBit (fcsBit (fcsBit (c ^^^ b.toNat))))))))
def fcs (bs : List Byte) : List Byte := u32 ((bs.foldl fcsByte 0xFFFFFFFF) ^^^ 0xFFFFFFFF)

/-- Big-endian fields. -/
def be (n v : Nat) : List Byte := (leBytes n v).reverse
def beNat (bs : List Byte) : Nat := leNat bs.reverse
def beField (p : List Byte) (off n : Nat) : Nat := beNat ((p.drop off).take n)

/-- A frame padded to 60 bytes, with its FCS (R268). -/
def lineBytes (f : List Byte) : List Byte := let p := f ++ rsv (60 - f.length); p ++ fcs p

/-- DT units of one byte on the line: 1 10, 2 100, 3 1,000 Mbit/s. PRESUMED (log 42). -/
def byteTime (link : Nat) : Nat := match link with | 1 => 51200 | 2 => 5120 | _ => 512

/-- The MAC address in use (Table 11.1). -/
def State.macOf (s : State) (n : Nat) : List Byte :=
  let m := (s.port n).cfg.mac
  if m.all (· == 0) then be 6 (Config.vendorMac n).toNat else m

def bcast : List Byte := List.replicate 6 0xFF

/-- The multicast MAC address of an IPv4 group. -/
def groupMac (ip : Nat) : List Byte := [0x01, 0x00, 0x5E] ++ be 3 (ip % 2 ^ 23)

/-- An Ethernet frame of the device: destination, type, data; tagged when VLAN is not 0. PRESUMED (log 42). -/
def State.ethFrame (s : State) (n : Nat) (dst : List Byte) (type : Nat) (data : List Byte) : List Byte :=
  let v := (s.port n).cfg.vlan
  dst ++ s.macOf n ++ (if v = 0 then [] else be 2 0x8100 ++ be 2 v) ++ be 2 type ++ data

/-- The ones' complement sum of the Internet checksum. -/
def inetSum : List Byte → Nat
  | a :: b :: r => a.toNat * 256 + b.toNat + inetSum r
  | [a] => a.toNat * 256
  | [] => 0

def foldSum (v : Nat) : Nat := let v := v / 65536 + v % 65536; v / 65536 + v % 65536
/-- PRESUMED (log 42). -/
def inetChecksum (p : List Byte) : Nat := 65535 - foldSum (inetSum p)

/-- An IPv4 packet: identification, fragment word, time to live, protocol. PRESUMED (log 42). -/
def ipv4 (src dst id frag ttl proto : Nat) (data : List Byte) : List Byte :=
  let h (c : Nat) := [0x45, 0] ++ be 2 (20 + data.length) ++ be 2 id ++ be 2 frag ++ be 1 ttl ++ be 1 proto ++ be 2 c ++ be 4 src ++ be 4 dst
  h (inetChecksum (h 0)) ++ data

/-- A UDP datagram with its checksum. PRESUMED (log 42). -/
def udp (src dst sport dport : Nat) (data : List Byte) : List Byte :=
  let len := 8 + data.length
  let h (c : Nat) := be 2 sport ++ be 2 dport ++ be 2 len ++ be 2 c
  let c := inetChecksum (be 4 src ++ be 4 dst ++ be 2 17 ++ be 2 len ++ h 0 ++ data)
  h (if c = 0 then 65535 else c) ++ data

/-- Cut an IP payload into fragments of at most 1,480 bytes: offset, more fragments follow, data. -/
def fragments : Nat → Nat → List Byte → List (Nat × Bool × List Byte)
  | 0, _, _ => []
  | n + 1, off, d => if d.length ≤ 1480 then [(off, false, d)] else (off, true, d.take 1480) :: fragments n (off + 1480) (d.drop 1480)

/-- The Ethernet frames of a UDP datagram (R308): identification and time to live are the device's own. -/
def udpFrames (s : State) (n : Nat) (mac : List Byte) (dst sport dport : Nat) (data : List Byte) : State × List (List Byte) :=
  let (s, id) := s.openVal 70
  let (s, ttl) := s.openVal 71
  let src := (s.port n).cfg.ipv4
  let parts := fragments 4 0 (udp src dst sport dport data)
  (s, parts.map fun p =>
    s.ethFrame n mac 0x0800 (ipv4 src dst (id % 65536) (p.1 / 8 + if p.2.1 then 0x2000 else 0) (ttl % 256) 17 p.2.2))

/-! ### Queueing frames -/

/-- Device frames have IDs from 0xF000 (R269). -/
def ownEntries (p : EthPort) : Nat := (p.entries.filter fun e => decide (0xF000 ≤ e.id)).length

/-- Queue a frame of the device; with `ts` it takes a timestamp entry, and is skipped when 8 are held (R270). -/
def sendOwn (n : Nat) (frame : List Byte) (ts : Bool) (use seq : Nat) (launch : Option Nat) (s : State) : State :=
  let p := s.port n
  if !s.portUp n then s
  else if ts && decide (8 ≤ ownEntries p) then s.modPort n fun p => { p with skip := sat32 (p.skip + 1) }
  else
    let id := ((List.range 4096).find? fun i => !(p.entries.any fun e => e.id == 0xF000 + i)).map (0xF000 + ·)
    let f : TxFrame := { bytes := lineBytes frame, id := if ts then id else none, launch := launch, own := true, use := use, seq := seq, gen := s.clock.gen }
    s.modPort n fun p =>
      { p with entries := match f.id with | some i => p.entries ++ [{ id := i, notify := false, done := none }] | none => p.entries
               launches := if launch.isSome then p.launches ++ [f] else p.launches
               queue := if launch.isSome then p.queue else p.queue ++ [f] }

/-- Queue a UDP datagram of the device. -/
def sendUdp (n : Nat) (mac : List Byte) (dst sport dport : Nat) (data : List Byte) (s : State) : State :=
  let (s, fs) := udpFrames s n mac dst sport dport data
  fs.foldl (fun s f => sendOwn n f false 0 0 none s) s

/-- The QCP frames and NAKs that wait on EP0 and EP1 go out as datagrams (R308); the destination's MAC address is not told by any rule. -/
def drainEth (s : State) : State :=
  (List.range 2).foldl (fun s n =>
    if !s.portUp n then s
    else
      let out := (s.transport (8 + n)).out
      let s := { s with transports := modAt s.transports (8 + n) fun t => { t with out := [], sent := 0 } }
      out.foldl (fun s x =>
        let (s, mac) := s.openBytes 6
        sendUdp n mac x.dst.addr.toNat (s.transport (8 + n)).qcpPort x.dst.port.toNat x.body.bytes s) s) s

/-! ### Transmit timestamps (R269) -/

/-- Table 11.3. -/
def tsBytes (s : State) (n : Nat) (e : TsEntry) : List Byte :=
  match e.done with
  | none => rsv 32
  | some (st, dt, same, _) =>
    let sent := st == 0
    u16 e.id ++ u8 n ++ u8 st ++ u16 (if sent then s.clock.genAt dt else 0)
      ++ u8 ((if sent && s.clock.valid then 1 else 0) + (if same then 2 else 0)) ++ rsv 1 ++ u64 (if sent then dt % 2 ^ 64 else 0)
      ++ u32 s.nv.epoch.toNat ++ rsv 4 ++ u64 (if sent then s.clock.gpsNs dt else 0)

/-- An entry completes: with TS_NOTIFY it is sent and freed; the device's own are freed at once. -/
def completeTs (n id stat dt : Nat) (same : Bool) (s : State) : State :=
  match (s.port n).entries.find? fun e => e.id == id && e.done.isNone with
  | none => s
  | some e =>
    let e := { e with done := some (stat, dt, same, s.now) }
    if 0xF000 ≤ id then s.modPort n fun p => { p with entries := p.entries.filter fun x => x.id != id }
    else if e.notify then
      (s.notifyF 0x8A20 same (tsBytes s n e)).modPort n fun p => { p with entries := p.entries.filter fun x => x.id != id }
    else s.modPort n fun p => { p with entries := p.entries.filter (fun x => x.id != id || x.done.isSome) ++ [e] }

/-- A frame is dropped: its entry completes with a status (R272). -/
def dropFrame (n stat : Nat) (f : TxFrame) (s : State) : State :=
  match f.id with
  | some i => completeTs n i stat 0 false s
  | none => s

/-- Everything that waits on a port is dropped LINK_DOWN (R285). -/
def dropAll (n : Nat) (s : State) : State :=
  let p := s.port n
  let s := (p.launches ++ p.queue ++ p.line.toList).foldl (fun s f => dropFrame n 1 f s) s
  s.modPort n fun q => { q with launches := [], queue := [], line := none, launchDrop := sat32 (q.launchDrop + p.launches.length) }

/-! ### Commands -/

def contiguous (m : Nat) : Bool := (List.range 33).any fun k => decide (m = 2 ^ 32 - 2 ^ k)

def epCfgOf (q : Qcp) : EpCfg :=
  { enable := q.u 1 1 == 1, iface := q.u 2 1, speed := q.u 3 1, mac := fieldB q.payload 4 6, vlan := q.u 10 2, ipv4 := q.u 12 4, netmask := q.u 16 4
    gateway := q.u 20 4 }

def epCfgCmd : HostCmd :=
  { opcode := 0x0A01, len := .fixed 32, priv := 2
    range := fun q _ =>
      [ (0, q.u 0 1 ≤ 1), (1, q.u 1 1 ≤ 1), (2, q.u 2 1 ≤ 1), (3, q.u 3 1 ≤ 3), (4, q.u 4 1 % 2 == 0), (10, q.u 10 2 ≤ 4094), (16, contiguous (q.u 16 4)),
        (24, (q.i 24 4).natAbs ≤ 1000000), (28, (q.i 28 4).natAbs ≤ 1000000) ]
    state := fun q s =>
      let c := (s.port (q.u 0 1)).cfg
      [!c.enable || { epCfgOf q with enable := c.enable } == c]
    effect := fun q s =>
      let n := q.u 0 1
      let c := epCfgOf q
      let was := (s.port n).cfg.enable
      let s := s.modPort n fun p =>
        { p with cfg := c, lat := if p.line.isSome || !p.queue.isEmpty then p.lat.commit (q.i 24 4, q.i 28 4) else .at (q.i 24 4, q.i 28 4), link := if c.enable && s.on 12 then p.link else 0
                 linkUpAt := if c.enable then p.linkUpAt else none, queue := if c.enable then p.queue else [], frags := if c.enable then p.frags else [] }
      let s := if was && !c.enable then (s.port n).queue.foldl (fun s f => dropFrame n 1 f s) s else s
      (s, .ok []) }

def execEpCfg (q : Qcp) (s : State) : Host.Outcome State Fault Refusal := runHost epCfgCmd q s

def epStatusCmd : HostCmd :=
  { opcode := 0x0A02, len := .fixed 4, priv := 0, range := fun q _ => [(0, q.u 0 1 ≤ 1)]
    effect := fun q s =>
      let p := s.port (q.u 0 1)
      (s, .ok (u8 p.link ++ rsv 3 ++ u32 p.rxOk ++ u32 p.txOk ++ u32 p.rxFcs ++ u32 p.rxDrop ++ u32 p.tsLost ++ u32 p.skip ++ u32 p.launchDrop)) }

def execEpStatus (q : Qcp) (s : State) : Host.Outcome State Fault Refusal := runHost epStatusCmd q s

/-- The launch instant is unwrapped: LAUNCH_DT as the DT that follows the present one. DEDUCED (log 45). -/
def launchAt (s : State) (v : Nat) : Nat := s.now + (v + 2 ^ 64 - s.time.dt.toNat) % 2 ^ 64

/-- From the timestamp point to the end of a frame, and 8 bytes of preamble before it. -/
def frameTime (link len : Nat) : Nat := byteTime link * len

/-- The start falls before the end of an earlier pending launch frame plus 12 bytes (R271). -/
def launchClash (p : EthPort) (at_ : Nat) : Bool :=
  p.launches.any fun f => match f.launch with
    | some l => decide (l ≤ at_) && decide (at_ < l + frameTime p.link (f.bytes.length + 20))
    | none => false

/-- DEDUCED (log 45). -/
def ethTxCmd : HostCmd :=
  { opcode := 0x0A20, len := ⟨30, 1534, fun p => some (16 + clampN 14 1518 (fieldU p 4 2))⟩, priv := 1
    range := fun q s =>
      let n := q.u 0 1
      let at_ := launchAt s (q.u 8 8)
      [ (0, n ≤ 1), (1, q.u 1 1 ≤ 7), (2, q.u 2 2 ≤ 0xEFFF), (4, 14 ≤ q.u 4 2 && q.u 4 2 ≤ 1518),
        (8, !bitOf (q.u 1 1) 1 || (decide (s.now + 6400000 ≤ at_) && decide (at_ ≤ s.now + 640000000000) && !launchClash (s.port n) at_)) ]
    state := fun q s =>
      let n := q.u 0 1
      [s.portUp n, !(s.port n).entries.any fun e => e.id == q.u 2 2]
    late := fun q s =>
      let p := s.port (q.u 0 1)
      if (bitOf (q.u 1 1) 0 && decide (24 ≤ p.entries.length - ownEntries p)) || (bitOf (q.u 1 1) 1 && decide (8 ≤ p.launches.length)) then some .noResource
      else none
    effect := fun q s =>
      let n := q.u 0 1
      let fl := q.u 1 1
      let launch := if bitOf fl 1 then some (launchAt s (q.u 8 8)) else none
      let f : TxFrame := { bytes := lineBytes (fieldB q.payload 16 (q.u 4 2)), id := if bitOf fl 0 then some (q.u 2 2) else none, launch := launch, own := false
                           use := 0, seq := 0, gen := s.clock.gen }
      (s.modPort n fun p =>
        { p with entries := if bitOf fl 0 then p.entries ++ [{ id := q.u 2 2, notify := bitOf fl 2, done := none }] else p.entries
                 launches := if launch.isSome then p.launches ++ [f] else p.launches
                 queue := if launch.isSome then p.queue else p.queue ++ [f] }, .ok []) }

def execEthTx (q : Qcp) (s : State) : Host.Outcome State Fault Refusal := runHost ethTxCmd q s

def ethTsReadCmd : HostCmd :=
  { opcode := 0x0A21, len := .fixed 4, priv := 0, range := fun q _ => [(0, q.u 0 1 ≤ 1), (1, 1 ≤ q.u 1 1 && q.u 1 1 ≤ 32)]
    effect := fun q s =>
      let n := q.u 0 1
      let ready := ((s.port n).entries.filter fun e => e.done.isSome && decide (e.id < 0xF000)).take (q.u 1 1)
      (s.modPort n fun p => { p with entries := p.entries.filter fun e => !ready.contains e },
       .ok (u8 ready.length ++ rsv 3 ++ (ready.map (tsBytes s n)).flatten)) }

def execEthTsRead (q : Qcp) (s : State) : Host.Outcome State Fault Refusal := runHost ethTsReadCmd q s

/-! ### Events of the line -/

/-- At its launch instant a pending frame starts, or is dropped (R271, R272). -/
def execEthLaunch (port : Nat) (s : State) : Host.Outcome State Fault Refusal :=
  .next (
    let due := (s.port port).launches.filter fun f => (f.launch.map fun l => decide (l ≤ s.now + ((s.port port).lat.inForce.1.toNat) + 4925)).getD false
    match due with
    | [] => s
    | f :: _ =>
      let s := s.modPort port fun p => { p with launches := p.launches.erase f }
      let lost (stat : Nat) (s : State) := (dropFrame port stat f s).modPort port fun p => { p with launchDrop := sat32 (p.launchDrop + 1) }
      if !s.portUp port then lost 1 s
      else if f.own && f.gen != s.clock.gen then lost 3 s
      else s.modPort port fun p => { p with line := some f })

/-- A completed entry unread for 10 s is freed and counted (R269). -/
def execTsEntryTimeout (port : Nat) (s : State) : Host.Outcome State Fault Refusal :=
  .next (
    let old (e : TsEntry) : Bool := match e.done with | some (_, _, _, at_) => s.passedMs at_ 10000 | none => false
    s.modPort port fun p => { p with entries := p.entries.filter (fun e => !old e), tsLost := sat32 (p.tsLost + (p.entries.filter old).length) })

/-- A fragment set that is incomplete after 100 ms is discarded (R308). -/
def execReassemblyTimeout (port : Nat) (s : State) : Host.Outcome State Fault Refusal :=
  .next (s.modPort port fun p =>
    let old := p.frags.filter fun r => s.passedMs r.since 100
    { p with frags := p.frags.filter (fun r => !s.passedMs r.since 100), fragDrops := p.fragDrops + (old.map fun r => r.frags.length).sum })

/-- A received fragment joins its datagram; the whole UDP datagram once it is complete (R308). -/
def reassemble (n src id off : Nat) (more : Bool) (data : List Byte) (s : State) : State × Option (List Byte) :=
  let p := s.port n
  let live := p.frags.filter fun r => !s.passedMs r.since 100
  let drop := (s.modPort n fun p => { p with fragDrops := p.fragDrops + 1 }, none)
  match live.find? fun r => r.src == src && r.id == id with
  | none =>
    if 4 ≤ live.length ∨ 4132 < off + data.length then drop
    else (s.modPort n fun p => { p with frags := live ++ [{ src := src, id := id, since := s.now, frags := [{ off := off, more := more, data := data }] }] }, none)
  | some r =>
    if 4132 < off + data.length then drop
    else
      let fs := (r.frags.filter fun f => f.off != off) ++ [{ off := off, more := more, data := data }]
      let rest := live.filter fun x => !(x.src == src && x.id == id)
      match fs.find? fun f => !f.more with
      | none => (s.modPort n fun p => { p with frags := rest ++ [{ r with frags := fs }] }, none)
      | some l =>
        let len := l.off + l.data.length
        if (fs.map fun f => f.data.length).sum = len then
          let whole := (List.range len).map fun i =>
            ((fs.find? fun f => decide (f.off ≤ i) && decide (i < f.off + f.data.length)).bind fun f => f.data[i - f.off]?).getD 0
          (s.modPort n fun p => { p with frags := rest }, some whole)
        else (s.modPort n fun p => { p with frags := rest ++ [{ r with frags := fs }] }, none)

end Sys2Proof.Machine
end

