-- ==== Sys2Proof/Machine/Ptp.lean ====
section
/-! DEFINITION. Precision Time Protocol on EP0 and EP1 (R267, R273–R285). -/

namespace Sys2Proof.Machine
open Sys2Proof

def State.ptp (s : State) (n : Nat) : Ptp := (s.port n).ptp
def State.modPtp (s : State) (n : Nat) (f : Ptp → Ptp) : State := s.modPort n fun p => { p with ptp := f p.ptp }

/-- PTP states (R286). -/
def ptpFaulty : Nat := 1
def ptpDisabled : Nat := 2
def ptpListening : Nat := 3
def ptpMaster : Nat := 5
def ptpPassive : Nat := 6
def ptpSlave : Nat := 8

/-- PTP seconds from the PTP epoch to the GPS epoch, in TAI (R267). -/
def ptpEpochGap : Nat := 315964819

/-- The device's PTP time at a DT in ns: DT / 64 in NO_TIME (R267). -/
def State.ptpTime (s : State) (dt : Nat) : Rat :=
  match s.clock.time dt with
  | some t => (t : Rat) / 4294967296 + ((ptpEpochGap * 1000000000 : Nat) : Rat)
  | none => ((dt : Nat) : Rat) / 64

/-- A timestamp field: 48-bit seconds and 32-bit nanoseconds. -/
def ptpStampBytes (t : Rat) : List Byte := let v := (floorRat t).toNat; be 6 (v / 1000000000) ++ be 4 (v % 1000000000)

def ptpStampOf (p : List Byte) (off : Nat) : Rat := ((beField p off 6 * 1000000000 + beField p (off + 6) 4 : Nat) : Rat)

/-- clockIdentity: the EUI-64 of EP0's MAC address (R273). -/
def State.clockId (s : State) : List Byte := let m := s.macOf 0; m.take 3 ++ [0xFF, 0xFE] ++ m.drop 3
def State.portId (s : State) (n : Nat) : List Byte := s.clockId ++ be 2 (n + 1)

/-- PTP_EVENT (R286). -/
def State.ptpEvent (s : State) (n kind : Nat) (value : Int) : State :=
  s.notify 0x8A10 (s.beatBytes ++ u8 n ++ u8 kind ++ rsv 2 ++ i32 (clampI (-2147483648) 2147483647 value))

/-- An interval of 2^k s in DT units. -/
def logUnits (k : Int) : Nat := if k < 0 then 64000000000 / 2 ^ (-k).toNat else 64000000000 * 2 ^ k.toNat

/-! ### The data set of the device (R275) -/

/-- The smallest clockAccuracy code that covers UNC in ns. -/
def accuracyCode (unc : Option Rat) : Nat :=
  match unc with
  | none => 0xFE
  | some u =>
    let bounds : List (Nat × Rat) :=
      [ (0x17, 1 / 1000), (0x18, 25 / 10000), (0x19, 1 / 100), (0x1A, 25 / 1000), (0x1B, 1 / 10), (0x1C, 25 / 100), (0x1D, 1), (0x1E, 25 / 10), (0x1F, 10),
        (0x20, 25), (0x21, 100), (0x22, 250), (0x23, 1000), (0x24, 2500), (0x25, 10000), (0x26, 25000), (0x27, 100000), (0x28, 250000), (0x29, 1000000),
        (0x2A, 2500000), (0x2B, 10000000), (0x2C, 25000000), (0x2D, 100000000), (0x2E, 250000000), (0x2F, 1000000000), (0x30, 10000000000) ]
    ((bounds.find? fun b => decide (u ≤ b.2)).map (·.1)).getD 0xFE

/-- clockClass, timeSource and the traceable flags (Table 11.5). -/
def announcedQuality (c : Clock) : Nat × Nat × Bool :=
  match c.effective with
  | 1 | 3 => (6, if c.source = 1 then 0x20 else 0x40, true)
  | 2 => (7, 0xA0, true)
  | 5 => (52, 0xA0, false)
  | _ => (248, 0xA0, false)

/-- flagField: leap61, leap59, currentUtcOffsetValid, ptpTimescale, timeTraceable, frequencyTraceable in bits 0 to 5 of its second byte. -/
def ptpFlags (s : State) (traceable : Bool) : Nat :=
  let c := s.clock
  let leap : Nat := match c.leapNext, c.leapAt s.now with
    | some (_, l), some now => if now < l then 1 else 2
    | _, _ => 0
  leap + (if (c.leapAt s.now).isSome then 4 else 0) + (if c.state ≠ 0 then 8 else 0) + (if traceable then 48 else 0)

/-- The device's own data set. -/
def State.ownSet (s : State) (n : Nat) : ClockSet :=
  let (cls, src, tr) := announcedQuality s.clock
  let p := (s.ptp n).cfg.inForce
  { priority1 := p.priority1, clockClass := cls, accuracy := accuracyCode (s.clock.unc s.now), variance := Config.ptpVariance.toNat
    priority2 := p.priority2, identity := s.clockId, steps := 0, port := s.portId n, heard := s.now, timeSource := src
    flags := ptpFlags s tr, utcOffset := (((s.clock.leapAt s.now).getD 0 : Nat) : Int) + 19 }

/-- The order of two data sets: lexical, then steps removed and sender. PRESUMED (log 43). -/
def setKey (c : ClockSet) : List Nat :=
  [c.priority1, c.clockClass, c.accuracy, c.variance, c.priority2, beNat c.identity, c.steps, beNat c.port]

def lexLt : List Nat → List Nat → Bool
  | a :: as_, b :: bs => if a < b then true else if b < a then false else lexLt as_ bs
  | [], _ :: _ => true
  | _, _ => false

/-- PRESUMED (log 43). -/
def betterSet (a b : ClockSet) : Bool := lexLt (setKey a) (setKey b)

/-- PRESUMED (log 43). -/
def bestSet (cs : List ClockSet) : Option ClockSet :=
  cs.foldl (fun b c => match b with | none => some c | some x => some (if betterSet c x then c else x)) none

/-- The foreign masters of a port that the algorithm may use (R281, R284). PRESUMED (log 43). -/
def usableSets (s : State) (n : Nat) : List ClockSet :=
  let p := s.ptp n
  p.foreign.filter fun c => decide (c.steps < 255) && decide (c.clockClass ≠ 255) && !(p.untrusted.any fun u => u.1 == c.identity)

/-- The ports of one PTP instance (R274). -/
def sameInstance (s : State) (n : Nat) : List Nat :=
  (List.range 2).filter fun m => m == n || ((s.ptp m).enable && (s.ptp m).stop.profile == (s.ptp n).stop.profile && (s.ptp m).stop.domain == (s.ptp n).stop.domain)

/-! ### State changes -/

/-- The port's filter starts anew; ASYM and ASYM_BOUND return to DELAY_ASYM and 0 (R278, R283). -/
def Ptp.restart (p : Ptp) : Ptp :=
  { p with anchor := none, rate := 0, residuals := [], used := 0, locked := false, suspect := none, kept := [], window := none, gnssSum := 0
           gnssCount := 0, gnssOk := true, fwd := none, delays := [], path := none, asym := ((p.cfg.inForce.asym : Int) : Rat) / 1000, asymBound := 0
           syncSeq := none, wait := none, req := none, responders := [], pdelay := none }

/-- A port takes a state, with PTP_EVENT STATE_CHANGE; UNLOCKED when it was locked. -/
def setPtpState (n st : Nat) (parent : Option ClockSet) (s : State) : State :=
  let p := s.ptp n
  let moved := decide (p.state ≠ st)
  let newMaster := !((p.parent.map (·.identity)) == (parent.map (·.identity)))
  let restart := (moved && (p.state == ptpSlave || st == ptpSlave)) || (st == ptpSlave && newMaster)
  let s := if restart && p.locked then s.ptpEvent n 3 0 else s
  let s := s.modPtp n fun p => let p := if restart then p.restart else p; { p with state := st, parent := parent, lastSync := if restart then s.now else p.lastSync }
  if moved then s.ptpEvent n 1 (st : Int) else s

/-- The best master clock algorithm over one port (R274). PRESUMED (log 43). -/
def runBmca (n : Nat) (timeout : Bool) (s : State) : State :=
  let p := s.ptp n
  if !p.enable || p.state == ptpFaulty || p.state == ptpDisabled then s
  else if p.stop.role = 1 then setPtpState n ptpMaster none s
  else
    let own := s.ownSet n
    let mine := bestSet (usableSets s n)
    let all := bestSet ((sameInstance s n).flatMap (usableSets s))
    match p.stop.role, mine, all with
    | 2, some m, _ => setPtpState n ptpSlave (some m) s
    | 2, none, _ => setPtpState n ptpListening none s
    | _, none, none => if timeout || p.state == ptpMaster then setPtpState n ptpMaster none s else setPtpState n ptpListening none s
    | _, m, some e =>
      if own.clockClass ≤ 127 then
        match m with
        | some x => if betterSet own x then setPtpState n ptpMaster none s else setPtpState n ptpPassive none s
        | none => setPtpState n ptpMaster none s
      else if betterSet own e then setPtpState n ptpMaster none s
      else match m with
        | some x => if x.port = e.port then setPtpState n ptpSlave (some x) s else if x.identity = e.identity then setPtpState n ptpPassive none s
            else setPtpState n ptpMaster none s
        | none => setPtpState n ptpMaster none s
    | _, some _, none => s

/-! ### Commands -/

/-- Defaults that depend on the profile (Table 11.9). -/
def markerI (v marker d d3 : Int) (profile : Nat) : Int := if v = marker then (if profile = 3 then d3 else d) else v

def ptpStopOf (q : Qcp) : PtpStop :=
  let pr := q.u 2 1
  { profile := pr, role := q.u 3 1, domain := q.u 4 1, logSync := markerI (q.i 7 1) (-128) 0 (-3) pr, logAnnounce := markerI (q.i 8 1) (-128) 1 0 pr
    logDelay := markerI (q.i 9 1) (-128) 0 0 pr, annTimeout := if q.u 10 1 = 0xFF then 3 else q.u 10 1 }

def ptpFrameOf (q : Qcp) : PtpFrame :=
  { priority1 := q.u 5 1, priority2 := q.u 6 1, pathAvg := if q.u 11 1 = 0xFF then 8 else q.u 11 1, lockThr := q.u 12 2, ptpBw := q.u 14 2
    jumpThr := q.u 16 4, pathThr := q.u 20 4, stabWindow := q.u 24 2, untrustHold := q.u 26 2, asym := q.i 28 4 }

def ptpCfgCmd : HostCmd :=
  { opcode := 0x0A10, len := .fixed 32, priv := 2
    range := fun q _ =>
      let t := ptpStopOf q
      let f := ptpFrameOf q
      [ (0, q.u 0 1 ≤ 1), (1, q.u 1 1 ≤ 1), (2, t.profile ≤ 3), (3, t.role ≤ 2), (4, if t.profile = 3 then t.domain = 0 else t.domain ≤ 127),
        (7, -7 ≤ t.logSync && t.logSync ≤ 4), (8, -3 ≤ t.logAnnounce && t.logAnnounce ≤ 4), (9, -7 ≤ t.logDelay && t.logDelay ≤ 5),
        (10, 2 ≤ t.annTimeout && t.annTimeout ≤ 10), (11, 1 ≤ f.pathAvg && f.pathAvg ≤ 64), (12, 5 ≤ f.lockThr && f.lockThr ≤ 10000),
        (14, 10 ≤ f.ptpBw && f.ptpBw ≤ 1000), (16, 100 ≤ f.jumpThr && f.jumpThr ≤ 1000000000), (20, 20 ≤ f.pathThr && f.pathThr ≤ 1000000),
        (24, 4 ≤ f.stabWindow && f.stabWindow ≤ 3600), (28, f.asym.natAbs ≤ 1000000000) ]
    state := fun q s => let p := s.ptp (q.u 0 1); [!p.enable || ptpStopOf q == p.stop]
    effect := fun q s =>
      let n := q.u 0 1
      let was := (s.ptp n).enable
      let en := q.u 1 1 == 1
      let s := s.modPtp n fun p => { p with enable := en, stop := ptpStopOf q, cfg := .at (ptpFrameOf q) }
      let s :=
        if en && !was then
          let s := s.modPtp n fun p => { p.restart with foreign := [], untrusted := [], asCapable := false, parent := none }
          if s.portUp n then runBmca n false (setPtpState n ptpListening none s) else setPtpState n ptpFaulty none s
        else if !en && was then setPtpState n ptpDisabled none s
        else s
      (s, .ok []) }

def execPtpCfg (q : Qcp) (s : State) : Host.Outcome State Fault Refusal := runHost ptpCfgCmd q s

/-- rms of the residuals in ns. -/
def rmsOf (rs : List Rat) : Rat := if rs.isEmpty then 0 else Config.fn .sqrt ((rs.map fun x => x * x).sum / rs.length)

def psField (x : Rat) : List Byte := i32 (clampI (-2147483648) 2147483647 (roundRat (x * 1000)))
def psFieldU (x : Rat) : List Byte := u32 (sat32 (roundRat (x * 1000)).toNat)

/-- The parent is marked UNTRUSTED. -/
def Ptp.distrusts (p : Ptp) : Bool := match p.parent with
  | some m => p.untrusted.any fun u => u.1 == m.identity
  | none => false

def ptpStatusCmd : HostCmd :=
  { opcode := 0x0A11, len := .fixed 4, priv := 0, range := fun q _ => [(0, q.u 0 1 ≤ 1)]
    effect := fun q s =>
      let p := s.ptp (q.u 0 1)
      let sub := (if p.locked then 1 else 0) + (if p.suspect.isSome then 2 else 0) + (if p.window.isSome then 4 else 0)
        + (if p.untrusted.isEmpty then 0 else 8) + (if p.asCapable then 16 else 0)
      (s, .ok (u8 p.state ++ u8 sub ++ u16 ((p.parent.map fun m => m.steps + 1).getD 0) ++ ((p.parent.map (·.identity)).getD (rsv 8)) ++ psField p.offset
        ++ psField (p.path.getD 0) ++ psField p.asym ++ psFieldU p.asymBound ++ psFieldU (rmsOf p.residuals) ++ u32 p.syncOk ++ u32 p.discarded
        ++ u32 p.outliers ++ rsv 4)) }

def execPtpStatus (q : Qcp) (s : State) : Host.Outcome State Fault Refusal := runHost ptpStatusCmd q s

def ptpTrustCmd : HostCmd :=
  { opcode := 0x0A12, len := .fixed 4, priv := 2, range := fun q _ => [(0, q.u 0 1 ≤ 1)]
    effect := fun q s => (runBmca (q.u 0 1) false (s.modPtp (q.u 0 1) fun p => { p with untrusted := [] }), .ok []) }

def execPtpTrust (q : Qcp) (s : State) : Host.Outcome State Fault Refusal := runHost ptpTrustCmd q s

/-! ### The port filter (R278–R283) -/

/-- M̂ at a DT: the master's time in ns. -/
def Ptp.master (p : Ptp) (dt : Nat) : Option Rat := p.anchor.map fun a => a.2 + (((dt : Int) - (a.1 : Int) : Int) : Rat) / 64 * (1 + p.rate)

/-- The offset that the filter predicts at a DT. -/
def predictedOffset (s : State) (n dt : Nat) : Option Rat := ((s.ptp n).master dt).map fun m => s.ptpTime dt - m

/-- GNSS is valid under Table 10.2. -/
def State.gnssFix (s : State) : Option SourceFix := s.clock.gnss

/-- A sample that the filter uses: `o` at a DT, with the residual against the prediction. DESIGN CHOICE (log 44). -/
def useSample (n dt : Nat) (o : Rat) (s : State) : State :=
  let p := s.ptp n
  let m := s.ptpTime dt - o
  let p' : Ptp := match p.master dt with
    | none => { p with anchor := some (dt, m), used := 1, residuals := [0], offset := o }
    | some pred =>
      let r := m - pred
      let (k1, k2) := Config.ptpGain p.cfg.inForce.ptpBw p.stop.logSync
      { p with anchor := some (dt, pred + k1 * r), rate := p.rate + k2 * r / 1000000000, used := p.used + 1, residuals := (r :: p.residuals).take 16, offset := o }
  let rms := rmsOf p'.residuals
  let thr : Rat := (p.cfg.inForce.lockThr : Nat)
  let locked := if p.locked then decide (rms ≤ 2 * thr) else decide (16 ≤ p'.used) && decide (rms ≤ thr)
  let s := s.modPtp n fun _ => { p' with locked := locked }
  if locked && !p.locked then s.ptpEvent n 2 0 else if p.locked && !locked then s.ptpEvent n 3 0 else s

/-- The tests of R279 on one sample. DESIGN CHOICE (log 44). -/
def takeSample (n dt : Nat) (fwd : Rat) (s : State) : State :=
  let p := s.ptp n
  match p.path with
  | none => s
  | some d =>
    let o := fwd - d - p.asym
    if p.window.isSome then
      s.modPtp n fun p => match s.gnssFix with
        | some g => { p with gnssSum := p.gnssSum + (fwd - p.asym - g.e), gnssCount := p.gnssCount + 1 }
        | none => { p with gnssOk := false }
    else
      match predictedOffset s n dt with
      | none => useSample n dt o s
      | some pred =>
        let r := absRat (o - pred)
        let c := p.cfg.inForce
        if p.suspect.isSome then s.modPtp n fun p => { p with kept := (o, pred) :: p.kept }
        else if (c.jumpThr : Rat) < r then
          (s.modPtp n fun p => { p with suspect := some (s.now, 0), kept := [(o, pred)] }).ptpEvent n 4 (roundRat (o - pred))
        else if 4 * rmsOf p.residuals < r ∧ 4 * (c.lockThr : Rat) < r then s.modPtp n fun p => { p with outliers := sat32 (p.outliers + 1) }
        else useSample n dt o s

/-- The mean of the last PATH_AVG delays. -/
def meanDelay (p : Ptp) : Rat := let ds := p.delays.take p.cfg.inForce.pathAvg; if ds.isEmpty then 0 else ds.sum / ds.length

/-- A new delay value: the mean follows it, or a path change is detected (R282). DEDUCED (log 45). -/
def takeDelay (n : Nat) (d : Rat) (s : State) : State :=
  let s := s.modPtp n fun p => { p with delays := (d :: p.delays).take 64 }
  let p := s.ptp n
  let m := meanDelay p
  let thr : Rat := (p.cfg.inForce.pathThr : Nat)
  match p.window, p.path with
  | some (_, m0, held), _ =>
    if thr / 4 < absRat (m - m0) then
      s.modPtp n fun p => { p with window := some (s.now, m, held), gnssSum := 0, gnssCount := 0, gnssOk := s.gnssFix.isSome }
    else s
  | none, some held =>
    if thr < absRat (m - held) then
      (s.modPtp n fun p => { p with window := some (s.now, m, held), gnssSum := 0, gnssCount := 0, gnssOk := s.gnssFix.isSome }).ptpEvent n 7 (roundRat (m - held))
    else s.modPtp n fun p => { p with path := some m }
  | none, none => s.modPtp n fun p => { p with path := some m }

/-- The port as a source at an epoch (R278). -/
def ptpFix (s : State) (n te : Nat) : Option SourceFix :=
  let p := s.ptp n
  if p.enable && p.state == ptpSlave && p.locked && !p.distrusts then
    (p.master te).map fun m => { e := s.ptpTime te - m, y := -p.rate, sigma := rmsOf p.residuals + p.asymBound }
  else none

/-- Mark the parent UNTRUSTED and run the algorithm again (R280, R281). -/
def distrust (n : Nat) (s : State) : State :=
  match (s.ptp n).parent with
  | none => s
  | some m =>
    let hold := (s.ptp n).cfg.inForce.untrustHold
    let s := s.modPtp n fun p => { p with untrusted := p.untrusted ++ [(m.identity, if hold = 0 then none else some (s.now + hold * 1000 * msUnits))], suspect := none, kept := [] }
    runBmca n false (s.ptpEvent n 6 0)

/-- Re-anchor the filter by J (Table 11.6). DEDUCED (log 45). -/
def reanchor (n : Nat) (j : Rat) (s : State) : State :=
  s.modPtp n fun p => { p with anchor := p.anchor.map (fun a => (a.1, a.2 - j)), suspect := none, kept := [] }

/-- The end of SUSPECT_MASTER (R280, Table 11.6). -/
def execSuspectMasterEnd (port : Nat) (s : State) : Host.Outcome State Fault Refusal :=
  .next (
    let p := s.ptp port
    match p.suspect with
    | none => s
    | some (since, restarts) =>
      if s.now < since + 4 * logUnits p.stop.logSync then s
      else
        let k : Rat := p.kept.length
        let meanO := if p.kept.isEmpty then 0 else (p.kept.map (·.1)).sum / k
        let j := if p.kept.isEmpty then 0 else (p.kept.map fun x => x.1 - x.2).sum / k
        let diffs := p.kept.map fun x => x.1 - x.2
        let hi := diffs.foldl (fun a b => if a < b then b else a) j
        let lo := diffs.foldl (fun a b => if b < a then b else a) j
        let thr : Rat := (p.cfg.inForce.jumpThr : Nat)
        match s.gnssFix with
        | some g => if thr < absRat (g.e - meanO) then distrust port s else reanchor port j s
        | none =>
          if hi - lo ≤ thr / 4 then (reanchor port j s).ptpEvent port 5 (roundRat j)
          else if 3 ≤ restarts + 1 then distrust port s
          else s.modPtp port fun p => { p with suspect := some (s.now, restarts + 1), kept := [] })

/-- The end of a stable window after a path change (R283). -/
def execPathWindowEnd (port : Nat) (s : State) : Host.Outcome State Fault Refusal :=
  .next (
    let p := s.ptp port
    match p.window with
    | none => s
    | some (since, _, held) =>
      if !s.passedMs since (1000 * p.cfg.inForce.stabWindow) then s
      else
        let d := meanDelay p
        let delta := absRat (d - held)
        let useGnss := p.gnssOk && decide (0 < p.gnssCount)
        let change := if useGnss then p.gnssSum / p.gnssCount - d else 0
        let s := s.modPtp port fun p =>
          { p with path := some d, window := none, asym := p.asym + change, asymBound := if useGnss then p.asymBound else p.asymBound + delta
                   anchor := none, used := p.used }
        s.ptpEvent port 8 (roundRat (if useGnss then change else delta)))

/-- UNTRUST_HOLD has passed (R281). -/
def execUntrustHoldEnd (port : Nat) (s : State) : Host.Outcome State Fault Refusal :=
  .next (
    let p := s.ptp port
    let keep := p.untrusted.filter fun u => (u.2.map fun t => decide (s.now < t)).getD true
    if keep.length = p.untrusted.length then s else runBmca port false (s.modPtp port fun p => { p with untrusted := keep }))

/-- No Sync for 3 sync intervals (R278). -/
def execSyncReceiptTimeout (port : Nat) (s : State) : Host.Outcome State Fault Refusal :=
  .next (
    let p := s.ptp port
    if p.state = ptpSlave ∧ p.locked ∧ p.lastSync + 3 * logUnits p.stop.logSync ≤ s.now then
      (s.modPtp port fun p => { p with locked := false }).ptpEvent port 3 0
    else s)

/-- No Announce from the parent for ANN_TIMEOUT intervals (R284). -/
def execAnnounceTimeout (port : Nat) (s : State) : Host.Outcome State Fault Refusal :=
  .next (
    let p := s.ptp port
    let limit := p.stop.annTimeout * logUnits p.stop.logAnnounce
    let stale (c : ClockSet) : Bool := decide (c.heard + limit ≤ s.now)
    if !p.enable || !s.portUp port then s
    else match p.parent with
      | some m =>
        if (p.foreign.any fun c => c.identity == m.identity && stale c) then runBmca port true (s.modPtp port fun p => { p with foreign := p.foreign.filter fun c => !stale c })
        else s
      | none => runBmca port true (s.modPtp port fun p => { p with foreign := p.foreign.filter fun c => !stale c }))

/-! ### Messages -/

/-- messageType, minimum length (R284). PRESUMED (log 42). -/
def ptpMinLength : Nat → Nat
  | 0 | 1 | 8 => 44
  | 2 | 3 | 9 | 10 => 54
  | 11 => 64
  | 12 => 44
  | 13 => 48
  | _ => 34

/-- The configured interval of a message type. -/
def ptpInterval (t : PtpStop) : Nat → Int
  | 11 => t.logAnnounce
  | 0 | 8 => t.logSync
  | _ => t.logDelay

/-- A message of the device: header of IEEE 1588 and body. PRESUMED (log 42). -/
def ptpMessage (s : State) (n type seq : Nat) (flags : Nat) (corr : Int) (logInt : Int) (body : List Byte) : List Byte :=
  let t := (s.ptp n).stop
  let sdo := if t.profile = 3 then 0x10 else 0
  be 1 (sdo + type) ++ be 1 0x12 ++ be 2 (34 + body.length) ++ be 1 t.domain ++ be 1 0 ++ be 2 flags ++ (leBytesI 8 corr).reverse ++ be 4 0 ++ s.portId n
    ++ be 2 seq ++ be 1 (match type with | 0 => 0 | 1 => 1 | 8 => 2 | 9 => 3 | _ => 5) ++ i8 logInt ++ body

/-- Peer-delay messages have an address of their own. -/
def ptpIsPeer (type : Nat) : Bool := type == 2 || type == 3 || type == 10

/-- Send a message by the transport of the port's profile (Table 11.4). -/
def sendPtp (n type : Nat) (msg : List Byte) (ts : Bool) (use seq : Nat) (launch : Option Nat) (s : State) : State :=
  let pr := (s.ptp n).stop.profile
  if pr = 0 then
    let ip := if ptpIsPeer type then 0xE000006B else 0xE0000181
    let port := if type < 8 then 319 else 320
    let (s, fs) := udpFrames s n (groupMac ip) ip port port msg
    fs.foldl (fun s f => sendOwn n f ts use seq launch s) s
  else
    let mac : List Byte := if pr = 3 || ptpIsPeer type then [0x01, 0x80, 0xC2, 0, 0, 0x0E] else [0x01, 0x1B, 0x19, 0, 0, 0]
    sendOwn n (s.ethFrame n mac 0x88F7 msg) ts use seq launch s

/-- Ticks of the sync-interval grid: the next boundary of DT after an instant. -/
def nextGrid (interval now : Nat) : Nat := (now / interval + 1) * interval

/-- A master port sends Sync, launched at the next sync-interval boundary of DT (R276). -/
def execSyncSend (port : Nat) (s : State) : Host.Outcome State Fault Refusal :=
  .next (
    let p := s.ptp port
    if p.state = ptpMaster ∧ s.portUp port then
      let seq := p.txSeq
      let msg := ptpMessage s port 0 seq 0x0200 0 p.stop.logSync (rsv 10)
      sendPtp port 0 msg true 1 seq (some (nextGrid (logUnits p.stop.logSync) s.now)) (s.modPtp port fun p => { p with txSeq := (p.txSeq + 1) % 65536 })
    else s)

/-- lastGmPhaseChange and the rest of the 802.1AS Follow_Up information TLV; its phase change is that of the last step. PRESUMED (log 42). -/
def followUpTlv (s : State) : List Byte :=
  be 2 3 ++ be 2 28 ++ [0x00, 0x80, 0xC2, 0, 0, 1] ++ be 4 0 ++ be 2 s.clock.gen ++ rsv 12 ++ be 4 0

/-- Follow_Up with the transmit timestamp of a Sync, converted at its own DT (R267, R276). -/
def sendFollowUp (n seq dt : Nat) (s : State) : State :=
  let p := s.ptp n
  let body := ptpStampBytes (s.ptpTime dt) ++ (if p.stop.profile = 3 then followUpTlv s else [])
  sendPtp n 8 (ptpMessage s n 8 seq 0 0 p.stop.logSync body) false 0 seq none s

/-- The data set that a master port announces: the parent's while a port of the instance is in SLAVE (R275). -/
def announcedSet (s : State) (n : Nat) : ClockSet :=
  match ((sameInstance s n).findSome? fun m => if (s.ptp m).state = ptpSlave then (s.ptp m).parent else none) with
  | some p => { p with steps := p.steps + 1 }
  | none => s.ownSet n

/-- A master port sends Announce (R275, R276). -/
def execAnnounceSend (port : Nat) (s : State) : Host.Outcome State Fault Refusal :=
  .next (
    let p := s.ptp port
    if p.state = ptpMaster ∧ s.portUp port then
      let c := announcedSet s port
      let body := rsv 10 ++ (leBytesI 2 c.utcOffset).reverse ++ [0] ++ be 1 c.priority1 ++ be 1 c.clockClass ++ be 1 c.accuracy ++ be 2 c.variance
        ++ be 1 c.priority2 ++ c.identity ++ be 2 c.steps ++ be 1 c.timeSource
      let msg := ptpMessage s port 11 p.txSeq c.flags 0 p.stop.logAnnounce body
      sendPtp port 11 msg false 0 p.txSeq none (s.modPtp port fun p => { p with txSeq := (p.txSeq + 1) % 65536 })
    else s)

/-- A slave port sends Delay_Req; a peer-to-peer port sends Pdelay_Req (R277). -/
def execDelayReqSend (port : Nat) (s : State) : Host.Outcome State Fault Refusal :=
  .next (
    let p := s.ptp port
    let peer := decide (2 ≤ p.stop.profile)
    if p.enable && s.portUp port && (peer || p.state == ptpSlave) then
      let seq := p.txSeq
      let type := if peer then 2 else 1
      let msg := ptpMessage s port type seq 0 0 0x7F (rsv (if peer then 20 else 10))
      let s := s.modPtp port fun p => { p with txSeq := (p.txSeq + 1) % 65536, req := some (seq, none), responders := [], pdelay := none }
      sendPtp port type msg true (if peer then 3 else 2) seq none s
    else s)

/-- The first failing row of Table 11.7 among the checks that hold for every message. -/
def ptpHeaderOk (s : State) (n : Nat) (m : List Byte) : Bool :=
  let t := (s.ptp n).stop
  let type := beField m 0 1 % 16
  beField m 1 1 % 16 == 2 && decide (beField m 1 1 / 16 ≤ 1) && beField m 4 1 == t.domain && beField m 0 1 / 16 == (if t.profile = 3 then 1 else 0)
    && decide (beField m 2 2 ≤ m.length) && decide (ptpMinLength type ≤ beField m 2 2)

/-- The correctionField is not negative and at most 1 ms (R284). -/
def ptpCorrOk (m : List Byte) : Bool := let c := toSigned 8 (beField m 8 8); decide (0 ≤ c) && decide (c ≤ 1000000 * 65536)

/-- Bytes 20 to 29: sourcePortIdentity. -/
def ptpSource (m : List Byte) : List Byte := fieldB m 20 10
def ptpSeq (m : List Byte) : Nat := beField m 30 2
def ptpCorr (m : List Byte) : Rat := (toSigned 8 (beField m 8 8) : Rat) / 65536
def ptpTwoStep (m : List Byte) : Bool := bitOf (beField m 6 1) 1

/-- Messages of a type from a source in the second in progress; false in excess of 4 times the configured rate (R284). DEDUCED (log 45). -/
def ptpRate (n type : Nat) (src : List Byte) (s : State) : State × Bool :=
  let p := s.ptp n
  let sec := s.second
  let rest := p.rates.filter fun r => r.2.2.1 == sec
  let c := ((rest.find? fun r => r.1 == src && r.2.1 == type).map (·.2.2.2)).getD 0
  let limit := max 1 (256000000000 / logUnits (ptpInterval p.stop type))
  (s.modPtp n fun p => { p with rates := (rest.filter fun r => !(r.1 == src && r.2.1 == type)) ++ [(src, type, sec, c + 1)] }, decide (c < limit))

def discardPtp (n : Nat) (s : State) : State := s.modPtp n fun p => { p with discarded := sat32 (p.discarded + 1) }

/-- A Sync and Follow_Up pair is complete: t1, the unwrapped receive DT and the correction (R277). -/
def syncPair (n dt : Nat) (t1 corr : Rat) (s : State) : State :=
  let s := s.modPtp n fun p => { p with syncOk := sat32 (p.syncOk + 1), lastSync := s.now, wait := none, fwd := some (s.ptpTime dt - t1 - corr) }
  takeSample n dt (s.ptpTime dt - t1 - corr) s

def stampValid (m : List Byte) : Bool := decide (beField m 40 4 < 1000000000)

/-- Sync and Follow_Up in SLAVE (R277, R284). -/
def ptpSync (n dt : Nat) (m : List Byte) (s : State) : State :=
  let p := s.ptp n
  let follow := beField m 0 1 % 16 == 8
  if p.state ≠ ptpSlave ∨ (p.parent.map (·.port)) ≠ some (ptpSource m) then discardPtp n s
  else if follow then
    match p.wait with
    | some (seq, t2, c) =>
      if seq = ptpSeq m ∧ s.now ≤ t2 + logUnits p.stop.logSync ∧ stampValid m then syncPair n t2 (ptpStampOf m 34) (c + ptpCorr m) s
      else discardPtp n (s.modPtp n fun p => { p with wait := none })
    | none => discardPtp n s
  else
    let d := (ptpSeq m + 65536 - p.syncSeq.getD (ptpSeq m + 65535)) % 65536
    if d = 0 ∨ 32768 ≤ d then discardPtp n s
    else if ptpTwoStep m then s.modPtp n fun p => { p with syncSeq := some (ptpSeq m), wait := some (ptpSeq m, dt, ptpCorr m) }
    else if !stampValid m then discardPtp n s
    else syncPair n dt (ptpStampOf m 34) (ptpCorr m) (s.modPtp n fun p => { p with syncSeq := some (ptpSeq m) })

/-- A delay value is tested before it is used (R284 DELAY). -/
def acceptDelay (n : Nat) (d : Rat) (s : State) : State :=
  if d < -(((s.ptp n).cfg.inForce.pathThr : Nat) : Rat) ∨ 1000000 < d then discardPtp n s else takeDelay n d s

/-- Delay_Resp (R277). -/
def ptpDelayResp (n : Nat) (m : List Byte) (s : State) : State :=
  let p := s.ptp n
  match p.req, p.fwd with
  | some (seq, some t3), some fwd =>
    if p.state = ptpSlave ∧ (p.parent.map (·.port)) = some (ptpSource m) ∧ seq = ptpSeq m ∧ fieldB m 44 10 = s.portId n ∧ stampValid m then
      acceptDelay n ((fwd + (ptpStampOf m 34 - s.ptpTime t3 - ptpCorr m)) / 2) (s.modPtp n fun p => { p with req := none })
    else discardPtp n s
  | _, _ => discardPtp n s

/-- The link delay of a completed peer exchange: t1, t4 in ns of DT, t2, t3 of the responder (R277). -/
def peerDelay (n : Nat) (t1 t4 : Nat) (t2 t3 : Rat) (s : State) : State :=
  let p := s.ptp n
  let ratio := match p.neighbour with
    | some (p3, p4) => if p4 < t4 ∧ t2 ≠ 0 then (t3 - p3) / (((t4 - p4 : Nat) : Rat) / 64) else p.ratio
    | none => p.ratio
  let d := ((((t4 : Int) - (t1 : Int) : Int) : Rat) / 64 * ratio - (t3 - t2)) / 2
  let s := s.modPtp n fun p => { p with neighbour := if t2 = 0 then none else some (t3, t4), ratio := if t2 = 0 then p.ratio else ratio, req := none, pdelay := none }
  if p.stop.profile = 3 ∧ 800 < d then discardPtp n (s.modPtp n fun p => { p with asCapable := false })
  else if 1 < p.responders.length then s.modPtp n fun p => { p with asCapable := false }
  else
    let s := s.modPtp n fun p => { p with linkDelay := some d, asCapable := true }
    acceptDelay n d s

/-- Pdelay_Req, Pdelay_Resp and Pdelay_Resp_Follow_Up (R277). -/
def ptpPeer (n dt : Nat) (m : List Byte) (s : State) : State :=
  let p := s.ptp n
  let type := beField m 0 1 % 16
  if p.stop.profile < 2 then discardPtp n s
  else if type = 2 then
    let body := ptpStampBytes (s.ptpTime dt) ++ ptpSource m
    let s := s.modPtp n fun p => { p with asked := (p.asked ++ [(ptpSeq m, ptpSource m)]).drop (p.asked.length - 7) }
    sendPtp n 3 (ptpMessage s n 3 (ptpSeq m) 0x0200 0 0x7F body) true 4 (ptpSeq m) none s
  else
    match p.req with
    | some (seq, some t1) =>
      if seq ≠ ptpSeq m ∨ fieldB m 44 10 ≠ s.portId n then discardPtp n s
      else
        let who := ptpSource m
        let s := s.modPtp n fun p => { p with responders := if p.responders.contains who then p.responders else p.responders ++ [who] }
        if 1 < (s.ptp n).responders.length then s.modPtp n fun p => { p with asCapable := false }
        else if !stampValid m then discardPtp n s
        else if type = 3 then
          if ptpTwoStep m then s.modPtp n fun p => { p with pdelay := some (ptpStampOf m 34 + ptpCorr m, dt) }
          else peerDelay n t1 dt 0 (ptpCorr m) s
        else
          match p.pdelay with
          | some (t2, t4) => peerDelay n t1 t4 t2 (ptpStampOf m 34 + ptpCorr m) s
          | none => discardPtp n s
    | _ => discardPtp n s

/-- A master answers Delay_Req (R276). DEDUCED (log 45). -/
def ptpDelayReq (n dt : Nat) (m : List Byte) (s : State) : State :=
  let p := s.ptp n
  if p.state ≠ ptpMaster ∨ 2 ≤ p.stop.profile then discardPtp n s
  else sendPtp n 9 (ptpMessage s n 9 (ptpSeq m) 0 (toSigned 8 (beField m 8 8)) p.stop.logDelay (ptpStampBytes (s.ptpTime dt) ++ ptpSource m)) false 0 0 none s

/-- Announce (R274, R284). -/
def ptpAnnounce (n : Nat) (m : List Byte) (s : State) : State :=
  let flags := beField m 7 1
  let utc := toSigned 2 (beField m 44 2)
  let c : ClockSet :=
    { priority1 := beField m 47 1, clockClass := beField m 48 1, accuracy := beField m 49 1, variance := beField m 50 2, priority2 := beField m 52 1
      identity := fieldB m 53 8, steps := beField m 61 2, port := ptpSource m, heard := s.now, timeSource := beField m 63 1, flags := flags, utcOffset := utc }
  let s := match s.clock.leapAt s.now with
    | some l => if bitOf flags 2 && utc != (l : Int) + 19 then
        let first := (s.ptp n).utcMismatch == 0
        let s := s.modPtp n fun p => { p with utcMismatch := sat32 (p.utcMismatch + 1) }
        if first then s.ptpEvent n 10 (utc - ((l : Int) + 19)) else s
      else s
    | none => s
  let s := s.modPtp n fun p => { p with foreign := (p.foreign.filter fun x => x.port != c.port) ++ [c] }
  runBmca n false s

/-- A received PTP message: the checks of Table 11.7, then its use (R284). DESIGN CHOICE (log 46). -/
def ptpReceive (n dt : Nat) (m : List Byte) (s : State) : State :=
  let p := s.ptp n
  if !p.enable || !s.portUp n then s
  else if !ptpHeaderOk s n m then
    discardPtp n s
  else if (ptpSource m).take 8 = s.clockId then
    let s := discardPtp n s
    if (p.loopAt.map fun t => s.passedMs t 60000).getD true then (s.modPtp n fun p => { p with loopAt := some s.now }).ptpEvent n 9 0 else s
  else
    let type := beField m 0 1 % 16
    let (s, ok) := ptpRate n type (ptpSource m) s
    if !ok || !ptpCorrOk m then discardPtp n s
    else match type with
      | 0 | 8 => ptpSync n dt m s
      | 1 => ptpDelayReq n dt m s
      | 9 => ptpDelayResp n m s
      | 2 | 3 | 10 => ptpPeer n dt m s
      | 11 => ptpAnnounce n m s
      | _ => discardPtp n s

/-- The row's message has one of its types. DESIGN CHOICE (log 46). -/
def ptpRow (types : List Nat) (n dt : Nat) (m : List Byte) (s : State) : State := if types.contains (beField m 0 1 % 16) then ptpReceive n dt m s else s

def execSyncRx (port stamp : Nat) (msg : List Byte) (s : State) : Host.Outcome State Fault Refusal := .next (ptpRow [0, 8] port stamp msg s)
def execDelayRespRx (port stamp : Nat) (msg : List Byte) (s : State) : Host.Outcome State Fault Refusal := .next (ptpRow [9] port stamp msg s)
def execPdelayRx (port stamp : Nat) (msg : List Byte) (s : State) : Host.Outcome State Fault Refusal := .next (ptpRow [2, 3, 10] port stamp msg s)
def execAnnounceRx (port stamp : Nat) (msg : List Byte) (s : State) : Host.Outcome State Fault Refusal := .next (ptpRow [11] port stamp msg s)

/-! ### The line -/

/-- The link goes down: FAULTY, and everything pending completes LINK_DOWN (R285). -/
def execLinkDown (port : Nat) (s : State) : Host.Outcome State Fault Refusal :=
  .next (
    if (s.port port).link = 0 then s
    else
      let s := dropAll port (s.modPort port fun p => { p with link := 0, linkUpAt := none })
      if (s.ptp port).enable then setPtpState port ptpFaulty none s else s)

/-- The link comes up; 1 s later the port returns to LISTENING (R285). -/
def execLinkUp (port speed : Nat) (s : State) : Host.Outcome State Fault Refusal :=
  .next (
    let p := s.port port
    if !s.live || !s.on 12 || !p.cfg.enable || decide (speed = 0) || decide (3 < speed) then s
    else if p.link = 0 then s.modPort port fun p => { p with link := speed, linkUpAt := some (s.now + 1000 * msUnits) }
    else match p.linkUpAt with
      | some t =>
        if t ≤ s.now then
          let s := s.modPort port fun p => { p with linkUpAt := none }
          if (s.ptp port).enable && (s.ptp port).state == ptpFaulty then runBmca port false (setPtpState port ptpListening none s) else s
        else s
      | none => s)

/-- What follows the transmission of a frame of the device. -/
def afterOwn (n dt : Nat) (f : TxFrame) (s : State) : State :=
  match f.use with
  | 1 => sendFollowUp n f.seq dt s
  | 2 | 3 => s.modPtp n fun p => { p with req := p.req.map fun r => if r.1 = f.seq then (r.1, some dt) else r }
  | 4 =>
    match (s.ptp n).asked.find? fun a => a.1 == f.seq with
    | some a =>
      let s := s.modPtp n fun p => { p with asked := p.asked.filter fun x => x != a }
      sendPtp n 10 (ptpMessage s n 10 f.seq 0 0 0x7F (ptpStampBytes (s.ptpTime dt) ++ a.2)) false 0 0 none s
    | none => s
  | _ => s

/-- A frame leaves: first the launch frame on the line, else the oldest queued one (R266, R269). -/
def execEthTxDone (port stamp : Nat) (sameTick : Bool) (s : State) : Host.Outcome State Fault Refusal :=
  .next (
    let s := drainEth s
    if !s.portUp port then s
    else
      let p := s.port port
      match p.line.orElse fun _ => p.queue.head? with
      | none => s
      | some f =>
        let dt := ((stamp : Int) + p.lat.inForce.1).toNat
        let s := s.modPort port fun p =>
          { p with line := none, queue := if p.line.isSome then p.queue else p.queue.drop 1, txOk := sat32 (p.txOk + 1), lat := p.lat.latch }
        let s := match f.id with | some i => completeTs port i 0 dt sameTick s | none => s
        afterOwn port dt f s)

end Sys2Proof.Machine
end

