-- ==== Sys2Proof/Machine/Corr.lean ====
section
/-! DEFINITION. Corrections: RTCM 3 frames, stations, state-space corrections, HAS and SBAS (R213–R223). -/

namespace Sys2Proof.Machine
open Sys2Proof

def State.modCorr (s : State) (f : CorrSys → CorrSys) : State := { s with corr := f s.corr }

/-- CORR_EVENT (R238). -/
def State.corrEvent (s : State) (kind source id value : Nat) : State :=
  s.notify 0x8810 (s.beatBytes ++ u8 kind ++ u8 source ++ u16 id ++ u32 value)

/-! ### RTCM 3 frames (R215) -/

/-- One bit, and one byte, of the CRC-24Q. -/
def crc24Bit (c : Nat) : Nat := if bitOf c 23 then ((2 * c) ^^^ 0x864CFB) % 2 ^ 24 else 2 * c
def crc24Byte (c : Nat) (b : Byte) : Nat :=
  crc24Bit (crc24Bit (crc24Bit (crc24Bit (crc24Bit (crc24Bit (crc24Bit (crc24Bit (c ^^^ (b.toNat * 65536)))))))))
/-- PRESUMED (log 85). -/
def crc24q (bs : List Byte) : Nat := bs.foldl crc24Byte 0

/-- The CRC of a whole frame is good. -/
def frameCrcOk (f : List Byte) : Bool := beNat (f.drop (f.length - 3)) == crc24q (f.take (f.length - 3))

/-- Message number and reference station ID: the first 24 bits of the message. PRESUMED (log 38). -/
def rtcmNumber (f : List Byte) : Nat := beField f 3 2 / 16
/-- PRESUMED (log 38). -/
def rtcmStation (f : List Byte) : Nat := beField f 4 2 % 4096

/-- Length of the frame that begins with a header. PRESUMED (log 38). -/
def rtcmLength (p : List Byte) : Nat := beField p 1 2 % 1024 + 6

/-- The structure check of `count` frames from an offset: the frames with their offsets, or the offset to report (R209, R215). PRESUMED (log 38). -/
def splitFrames (countOff : Nat) : Nat → Nat → List Byte → Except Nat (List (Nat × List Byte))
  | 0, off, p => if p.isEmpty then .ok [] else .error off
  | n + 1, off, p =>
    if p.isEmpty then .error countOff
    else
      let len := rtcmLength p
      if p.head? ≠ some 0xD3 ∨ p.length < 3 ∨ p.length < len then .error off
      else match splitFrames countOff n (off + len) (p.drop len) with
        | .ok fs => .ok ((off, p.take len) :: fs)
        | .error e => .error e

/-- Classes of Table 9.2. -/
inductive RtcmKind where
  | arp | text | msm | bias | eph | ssr | other
  deriving DecidableEq, Repr

/-- PRESUMED (log 38). -/
def rtcmKind (n : Nat) : RtcmKind :=
  if n = 1005 ∨ n = 1006 then .arp
  else if n = 1007 ∨ n = 1008 ∨ n = 1033 then .text
  else if 1074 ≤ n ∧ n ≤ 1137 ∧ 4 ≤ n % 10 ∧ n % 10 ≤ 7 then .msm
  else if n = 1230 then .bias
  else if [1019, 1020, 1041, 1042, 1044, 1045, 1046].contains n then .eph
  else if (1057 ≤ n ∧ n ≤ 1068) ∨ (1240 ≤ n ∧ n ≤ 1263) ∨ n = 4076 then .ssr
  else .other

/-- A source of Table 9.1 is switched on. -/
def sourceOn (s : State) (bit : Nat) : Bool := bitOf s.corr.cfg.inForce.sources bit

/-- RX_TIME now, in GPS ns. -/
def State.rxNow (s : State) : Option Nat := if s.clock.valid then some (s.clock.gpsNs s.now) else s.nav.rxTime

/-- FUTURE: the reference time is later than RX_TIME + 1 s (Table 9.3). -/
def future (s : State) (time : Nat) : Bool := (s.rxNow.map fun r => decide (r + 1000000000 < time)).getD false

def normSq (p : List Int) : Nat := (p.map fun x => x.natAbs ^ 2).sum

/-- ARP_RANGE: 6,300 to 6,400 km in 0.1 mm. -/
def arpOk (p : List Int) : Bool := decide (63000000000 ^ 2 ≤ normSq p) && decide (normSq p ≤ 64000000000 ^ 2)
def distSq (a b : List Int) : Nat := normSq (List.zipWith (· - ·) a b)

/-- Put a broadcast or loaded data set in use (R188): a loaded one never takes the place of a broadcast one with the same issue. -/
def putData (loaded : Bool) (d : SatData) (s : State) : State :=
  let old := Tab.get none s.nav.sets d.sat
  let new : DataSet := { issue := d.issue, loaded := loaded, healthy := d.healthy, from_ := d.fitFrom, to_ := d.fitTo, data := d.data }
  let take := match old with
    | some o => if loaded then o.loaded || decide (o.to_ < d.fitTo) else o.loaded || decide (o.issue ≠ d.issue) || decide (o.healthy ≠ d.healthy) || decide (o.to_ < d.fitTo)
    | none => true
  if take then
    let s := s.modNav fun v => { v with sets := Tab.set none v.sets d.sat (some new), saveDue := true }
    let s := s.modCorr fun c => { c with ref := { c.ref with changed := if c.ref.changed.contains d.sat then c.ref.changed else c.ref.changed ++ [d.sat] } }
    if d.sat / 64 = 1 ∧ (old.map (·.data)) ≠ some d.data then osnmaNewData (d.sat % 64) s else s
  else s

/-! ### State-space corrections (R218, R223) -/

/-- ORB_RANGE ±30 m, CLK_RANGE ±100 m, STEC_RANGE ±500 TECU and STEC_SIG 20 TECU (Table 9.3). -/
def corrInRange (c : SatCorr) : Bool :=
  match c.kind with
  | 0 => c.value.all fun v => decide (v.natAbs ≤ 300000)
  | 1 => c.value.all fun v => decide (v.natAbs ≤ 1000000)
  | 4 => decide (((c.value[0]?).getD 0).natAbs ≤ 50000) && decide ((c.value[1]?).getD 0 ≤ 2000)
  | _ => true

/-- Hold one correction of a source (1 RTCM SSR, 2 HAS, 3 SBAS). -/
def putCorr (source time : Nat) (c : SatCorr) (s : State) : State :=
  if !corrInRange c then
    if c.kind = 4 then s else (s.modCorr fun v => { v with rangeFail := sat32 (v.rangeFail + 1) }).corrEvent 4 source (c.sat % 64) c.kind
  else
    let s := s.modCorr fun v =>
      { v with corrs := (v.corrs.filter fun x => !(x.source == source && x.kind == c.kind && x.sat == c.sat))
          ++ [{ source := source, kind := c.kind, sat := c.sat, iod := c.iod, time := time, until_ := time + c.validMs * 1000000, value := c.value }] }
    match Tab.get none s.nav.sets c.sat with
    | some d =>
      if c.kind ≤ 1 && d.issue != c.iod && !(s.corr.iods.contains (c.sat, c.iod)) then
        (s.modCorr fun v => { v with iods := v.iods ++ [(c.sat, c.iod)] }).corrEvent 5 source (c.sat % 64) c.iod
      else s
    | none => s

/-- The age limit of a kind of correction, s (Table 9.7). -/
def ageLimit (c : CorrCfg) (kind : Nat) : Nat := (c.ages[match kind with | 0 => 2 | 1 => 3 | 2 | 3 => 4 | _ => 5]?).getD 0

/-- A held correction is within its validity and its age limit at a time, and its IOD is that of the data set in use (R218, R223). -/
def corrUsable (s : State) (te : Nat) (c : Correction) : Bool :=
  decide (te ≤ c.time + ageLimit s.corr.cfg.inForce c.kind * 1000000000) && decide (te ≤ c.until_)
    && (decide (1 < c.kind) || ((Tab.get none s.nav.sets c.sat).map fun d => d.issue == c.iod).getD false)

/-! ### Stations (R216) -/

def Station.is (t : Station) (source node id : Nat) : Bool := t.source == source && t.node == node && t.id == id

/-- The station, taken into the table where it is new: a ninth evicts the one heard least recently. DEDUCED (log 39). -/
def holdStation (source node id : Nat) (s : State) : State :=
  if s.corr.stations.any fun t => t.is source node id then
    s.modCorr fun c => { c with stations := c.stations.map fun t => if t.is source node id then { t with heard := s.now } else t }
  else
    let ts := s.corr.stations
    let oldest := ts.foldl (fun a t => min a t.heard) ((ts.head?.map (·.heard)).getD 0)
    let ts := if 8 ≤ ts.length then match ts.find? fun t => t.heard == oldest with | some t => ts.erase t | none => ts else ts
    s.modCorr fun c =>
      { c with stations := ts ++ [{ source := source, node := node, id := id, arp := none, desc := [], open_ := none, obs := none, waitSince := none, heard := s.now, last := [] }] }

def modStation (source node id : Nat) (f : Station → Station) (s : State) : State :=
  s.modCorr fun c => { c with stations := c.stations.map fun t => if t.is source node id then f t else t }

/-- The open epoch of a station is complete (R216): without an ARP it waits. -/
def Station.close (t : Station) (now : Nat) : Station :=
  match t.open_ with
  | none => t
  | some o => { t with obs := some { o with complete := true }, open_ := none, waitSince := if t.arp.isNone then (t.waitSince.orElse fun _ => some now) else none }

/-- An ARP message (R214, Table 9.3). DEDUCED (log 39). -/
def takeArp (source node id : Nat) (arp : List Int) (f : List Byte) (s : State) : State :=
  if !arpOk arp then
    let s := s.modCorr fun c => { c with rangeFail := sat32 (c.rangeFail + 1), stations := c.stations.filter fun t => !t.is source node id }
    s.corrEvent 4 source id 0
  else
    modStation source node id (fun t =>
      let moved := match t.arp with | some a => decide (10000 ^ 2 < distSq a arp) | none => false
      let t := if moved then { t with open_ := none, obs := none, desc := [], last := [] } else t
      { t with arp := some arp, waitSince := none, last := (t.last ++ [f]).drop (t.last.length - 31) }) s

/-- An MSM message joins its epoch (R216). DEDUCED (log 39). -/
def takeMsm (source node id : Nat) (i : RtcmInfo) (f : List Byte) (s : State) : State :=
  modStation source node id (fun t =>
    let t := match t.open_ with
      | some o => if o.time = i.time then t else t.close s.now
      | none => t
    let o := match t.open_ with
      | some o => { o with frames := o.frames ++ [f], sats := o.sats ++ i.sats }
      | none => { time := i.time, frames := [f], sats := i.sats, since := s.now, complete := false }
    let t := { t with open_ := some o, last := (t.last ++ [f]).drop (t.last.length - 31) }
    if i.more then t else t.close s.now) s

/-- The newest epoch time a station holds. -/
def Station.newest (t : Station) : Nat := max ((t.open_.map (·.time)).getD 0) ((t.obs.map (·.time)).getD 0)

/-- How a frame was handled (R215). -/
inductive FrameEnd where
  | accepted | badCrc | unsupported | stale | off
  deriving DecidableEq, Repr

/-- Handle one frame whose structure is right (R215). DEDUCED (log 39). -/
def applyFrame (source node : Nat) (f : List Byte) (i : RtcmInfo) (s : State) : State × FrameEnd :=
  let n := rtcmNumber f
  let id := rtcmStation f
  let k := rtcmKind n
  if !frameCrcOk f then (s.modCorr fun c => { c with crcFail := sat32 (c.crcFail + 1) }, .badCrc)
  else if k = .other then (s.modCorr fun c => { c with unsupported := c.unsupported + 1 }, .unsupported)
  else if (k = .ssr ∧ !sourceOn s 1) ∨ (k ≠ .ssr ∧ k ≠ .eph ∧ !sourceOn s 0) then (s.modCorr fun c => { c with dropped := c.dropped + 1 }, .off)
  else
    let ok (s : State) : State × FrameEnd := (s.modCorr fun c => { c with framesOk := sat32 (c.framesOk + 1) }, .accepted)
    let stale : State × FrameEnd := (s.modCorr fun c => { c with stale := sat32 (c.stale + 1) }, .stale)
    match k with
    | .eph => ok (i.sets.foldl (fun s d => putData true d s) s)
    | .ssr => if future s i.time then stale else ok (i.corrs.foldl (fun s c => putCorr 1 i.time c s) s)
    | _ =>
      if s.corr.stations.any fun t => t.is source node id && t.last.contains f then ok s
      else
        let s' := holdStation source node id s
        match k with
        | .arp => ok (match i.arp with | some a => takeArp source node id a f s' | none => s')
        | .text => ok (modStation source node id (fun t => { t with desc := (t.desc.filter fun d => rtcmNumber d != n) ++ [f] }) s')
        | .msm =>
          if future s i.time ∨ (s.corr.stations.any fun t => t.is source node id && decide (i.time < t.newest)) then stale
          else ok (takeMsm source node id i f s')
        | _ => ok (modStation source node id (fun t => { t with last := (t.last ++ [f]).drop (t.last.length - 31) }) s')

/-- Frames in order; the counts of the reply: ACCEPTED, CRC_FAIL, UNSUPPORTED, STALE. -/
def applyFrames (source node : Nat) : List (List Byte) → List RtcmInfo → State → State × List FrameEnd
  | f :: fs, i :: is_, s =>
    let (s, r) := applyFrame source node f i s
    let (s, rs) := applyFrames source node fs is_ s
    (s, r :: rs)
  | _, _, s => (s, [])

/-! ### Commands -/

def corrCfgOf (q : Qcp) : CorrCfg :=
  { sources := q.u 0 1, orbPrio := q.u 1 1, sbasSat := q.u 2 1, ages := [q.u 4 2, q.u 6 2, q.u 8 2, q.u 10 2, q.u 12 2, q.u 14 2], range := q.u 16 2
    switchGain := q.u 18 2 }

def corrCfgCmd : HostCmd :=
  { opcode := 0x0801, len := .fixed 20, priv := 1
    range := fun q _ =>
      let within (o lo hi : Nat) : Int × Bool := (o, decide (lo ≤ q.u o 2) && decide (q.u o 2 ≤ hi))
      [ (0, q.u 0 1 ≤ 31), (1, q.u 1 1 ≤ 1), (2, q.u 2 1 == 0 || (decide (20 ≤ q.u 2 1) && decide (q.u 2 1 ≤ 58))), within 4 1 60, within 6 5 300, within 8 10 600,
        within 10 5 300, within 12 60 3600, within 14 5 600, within 16 40 500, within 18 1 20 ]
    effect := fun q s => (s.modCorr fun c => { c with cfg := c.cfg.commit (corrCfgOf q) }, .ok []) }

def execCorrCfg (q : Qcp) (s : State) : Host.Outcome State Fault Refusal := runHost corrCfgCmd q s

/-- The node has an ALERT of kind 1 to 3 in force (R233). -/
def alerted (s : State) (node : Nat) : Bool := s.corr.domain.peers.any fun p => p.node == node && p.alert != 0

/-- DIST in 0.1 km from the latest position. -/
def stationDist (s : State) (t : Station) : Nat :=
  match t.arp, s.nav.pvt with
  | some a, some r => min 65535 (roundRat (Config.fn .sqrt ((distSq a r.pos : Nat) : Rat) / 1000000)).toNat
  | _, _ => 65535

def stationBytes (s : State) (t : Station) : List Byte :=
  let age := match t.obs, s.rxNow with | some o, some r => min 65535 ((r - o.time) / 100000000) | _, _ => 65535
  let used := s.corr.rtk == some (t.source, t.node, t.id) || s.corr.dgnss == some (t.source, t.node, t.id)
  u8 t.source ++ rsv 1 ++ u16 (if t.source = 4 then t.node else t.id) ++ u16 (stationDist s t) ++ u16 age ++ u8 ((t.obs.map fun o => min 255 o.sats.length).getD 0)
    ++ u8 ((if t.arp.isSome then 1 else 0) + (if used then 2 else 0) + (if t.source = 4 && alerted s t.node then 4 else 0)) ++ rsv 6

def corrStatusCmd : HostCmd :=
  { opcode := 0x0802, len := .fixed 0, priv := 0
    effect := fun _ s =>
      let c := s.corr
      let rtk := ((c.stations.findIdx? fun t => c.rtk == some (t.source, t.node, t.id))).getD 0xFF
      (s, .ok (u8 c.orbSource ++ u8 rtk ++ u8 c.sbasNow ++ u8 c.hasState ++ u8 c.stations.length ++ rsv 3 ++ u32 c.framesOk ++ u32 c.crcFail ++ u32 c.rangeFail
        ++ u32 c.hasMsg ++ u32 c.stale ++ rsv 4 ++ (c.stations.map (stationBytes s)).flatten)) }

def execCorrStatus (q : Qcp) (s : State) : Host.Outcome State Fault Refusal := runHost corrStatusCmd q s

def errOff : Except Nat (List (Nat × List Byte)) → Option Nat
  | .ok _ => none
  | .error e => some e

def okFrames : Except Nat (List (Nat × List Byte)) → List (Nat × List Byte)
  | .ok fs => fs
  | .error _ => []

def corrPushFrames (q : Qcp) : Except Nat (List (Nat × List Byte)) := splitFrames 1 (q.u 1 1) 4 (q.payload.drop 4)

def corrPushCmd (info : List RtcmInfo) : HostCmd :=
  { opcode := 0x0810, len := ⟨10, 4080, fun _ => none⟩, priv := 1
    range := fun q _ =>
      ([ (0, q.u 0 1 ≤ 3), (1, 1 ≤ q.u 1 1 && q.u 1 1 ≤ 64) ] : List (Int × Bool)) ++ (match errOff (corrPushFrames q) with | some e => [((e : Int), false)] | none => [])
    effect := fun q s =>
      let (s, rs) := applyFrames (q.u 0 1) 0 ((okFrames (corrPushFrames q)).map (·.2)) info s
      (s, .ok (u8 (rs.count .accepted) ++ u8 (rs.count .badCrc) ++ u8 (rs.count .unsupported) ++ u8 (rs.count .stale))) }

def execCorrPush (q : Qcp) (info : List RtcmInfo) (s : State) : Host.Outcome State Fault Refusal := runHost (corrPushCmd info) q s

/-! ### Timeouts -/

def execMsmEpochTimeout (s : State) : Host.Outcome State Fault Refusal :=
  .next (s.modCorr fun c => { c with stations := c.stations.map fun t =>
    match t.open_ with
    | some o => if s.passedMs o.since 500 then t.close s.now else t
    | none => t })

def execArpWaitTimeout (s : State) : Host.Outcome State Fault Refusal :=
  .next (s.modCorr fun c => { c with stations := c.stations.map fun t =>
    match t.waitSince with
    | some w => if t.arp.isNone ∧ s.passedMs w 30000 then { t with obs := none, waitSince := none } else t
    | none => t })

def execHasPageTimeout (s : State) : Host.Outcome State Fault Refusal :=
  .next (s.modCorr fun c => { c with has := c.has.filter fun h => !s.passedMs h.since 60000 })

def execSbasUnusableEnd (s : State) : Host.Outcome State Fault Refusal :=
  .next (s.modCorr fun c => { c with sbas := c.sbas.map fun b => { b with unusable := b.unusable.filter fun t => decide (s.now < t) } })

/-! ### HAS and SBAS (R219, R221) -/

/-- HAS_STATE changes, with HAS_ON and HAS_OFF. -/
def setHas (st : Nat) (s : State) : State :=
  let was := s.corr.hasState
  let s := s.modCorr fun c => { c with hasState := st }
  if st = 2 ∧ was ≠ 2 then s.corrEvent 6 2 0 0 else if was = 2 ∧ st ≠ 2 then s.corrEvent 7 2 0 0 else s

/-- A HAS page that passed its CRC; `decoded` is what the message says once its pages are complete: HAS status operational, reference time, corrections. DESIGN CHOICE (log 34). -/
def hasPage (id size page : Nat) (data : List Byte) (decoded : Option (Bool × Nat × List SatCorr)) (s : State) : State :=
  if !sourceOn s 2 then s.modCorr fun c => { c with dropped := c.dropped + 1 }
  else
    let live := s.corr.has.filter fun h => !s.passedMs h.since 60000
    let old := (live.find? fun h => h.id == id).getD { id := id, size := size, pages := [], since := s.now }
    let h := { old with size := size, pages := if old.pages.any fun p => p.1 == page then old.pages else old.pages ++ [(page, data)] }
    let rest := live.filter fun x => x.id != id
    let s := if s.corr.hasState = 0 then setHas 1 s else s
    if h.pages.length < h.size then s.modCorr fun c => { c with has := rest ++ [h] }
    else
      let s := s.modCorr fun c => { c with has := rest, hasMsg := sat32 (c.hasMsg + 1) }
      match decoded with
      | none => s
      | some (false, _, _) => setHas 3 s
      | some (true, time, cs) => if future s time then s else cs.foldl (fun s c => putCorr 2 time c s) (setHas 2 s)

/-- An SBAS message: `sets` are the kinds of data (mask, fast, long-term, ionosphere) it brings, each with the ms until its time-out. -/
def sbasMessage (sat type time : Nat) (sets : List (Nat × Nat)) (cs : List SatCorr) (s : State) : State :=
  if !sourceOn s 3 then s.modCorr fun c => { c with dropped := c.dropped + 1 }
  else
    let old := (s.corr.sbas.find? fun b => b.sat == sat).getD { sat := sat, until_ := [0, 0, 0, 0], unusable := none }
    let b := sets.foldl (fun (b : SbasSat) x => { b with until_ := modAt b.until_ x.1 fun _ => s.now + x.2 * msUnits }) old
    let b := if type = 0 then { b with unusable := some (s.now + 60000 * msUnits) } else b
    let s := s.modCorr fun c => { c with sbas := (c.sbas.filter fun x => x.sat != sat) ++ [b] }
    cs.foldl (fun s c => putCorr 3 time c s) s

/-- The satellite holds a current mask, fast, long-term and ionospheric corrections and is usable. -/
def SbasSat.current (b : SbasSat) (now : Nat) : Bool := (b.unusable.map fun t => decide (t ≤ now)).getD true && b.until_.all fun t => decide (now < t)

end Sys2Proof.Machine
end

