-- ==== Sys2Proof/Machine/Fp64.lean ====
section
/-! DEFINITION. IEEE 754 binary64: rounding to nearest, ties to even, and the operations of CP0 (R389). -/

namespace Sys2Proof.Machine
open Sys2Proof

/-- A binary64 datum. -/
inductive F64 where
  | nan
  | inf (neg : Bool)
  /-- the sign bit, and the magnitude -/
  | fin (neg : Bool) (mag : Rat)
  deriving DecidableEq, Repr

/-- Sticky bits of the CP0 status: 6 invalid, 5 division by zero, 4 overflow, 3 underflow, 2 inexact. -/
def fInvalid : BitVec 7 := 0x40
def fDivZero : BitVec 7 := 0x20
def fOverflow : BitVec 7 := 0x10
def fUnderflow : BitVec 7 := 0x08
def fInexact : BitVec 7 := 0x04

def f64Neg (b : BitVec 64) : Bool := b.getLsbD 63

/-- What the bits mean. -/
def f64Of (b : BitVec 64) : F64 :=
  let e : Nat := b.toNat / 2 ^ 52 % 2048
  let m : Nat := b.toNat % 2 ^ 52
  if e = 2047 then (if m = 0 then .inf (f64Neg b) else .nan)
  else if e = 0 then .fin (f64Neg b) ((m : Rat) / ((2 ^ 1074 : Nat) : Rat))
  else .fin (f64Neg b) (((2 ^ 52 + m : Nat) : Rat) * ((2 ^ e : Nat) : Rat) / ((2 ^ 1075 : Nat) : Rat))

/-- Round a quotient to nearest, ties to even; true where it was not exact. -/
def roundEven (n d : Nat) : Nat × Bool :=
  let q := n / d
  let r := n % d
  let up := decide (d < 2 * r) || (decide (2 * r = d) && q % 2 == 1)
  (if up then q + 1 else q, r != 0)

/-- The exponent e with 2^e ≤ n / d < 2^(e+1). -/
def log2Ratio (n d : Nat) : Int :=
  let e : Int := (n.log2 : Int) - (d.log2 : Int)
  let le (e : Int) : Bool := if 0 ≤ e then decide (d * 2 ^ e.toNat ≤ n) else decide (d ≤ n * 2 ^ (-e).toNat)
  if le e then e else e - 1

def signBit (neg : Bool) : Nat := if neg then 2 ^ 63 else 0

/-- Round a magnitude to binary64, with the status bits that this sets. PRESUMED (log 58). -/
def f64Round (neg : Bool) (a : Rat) : BitVec 64 × BitVec 7 :=
  let n := a.num.toNat
  let d := a.den
  if n = 0 then (BitVec.ofNat 64 (signBit neg), 0)
  else
    let e := log2Ratio n d
    let norm := decide (-1022 ≤ e)
    let q : Int := (if norm then e else -1022) - 52
    let (m, inexact) := if 0 ≤ q then roundEven n (d * 2 ^ q.toNat) else roundEven (n * 2 ^ (-q).toNat) d
    let v := if norm then (e + 1022).toNat * 2 ^ 52 + m else m
    if 2047 * 2 ^ 52 ≤ v then (BitVec.ofNat 64 (signBit neg + 2047 * 2 ^ 52), fOverflow ||| fInexact)
    else (BitVec.ofNat 64 (signBit neg + v), (if inexact then fInexact else 0) ||| (if inexact && !norm then fUnderflow else 0))

/-- The binary64 nearest to a rational. -/
def f64OfRat (r : Rat) : BitVec 64 := (f64Round (decide (r < 0)) (if r < 0 then -r else r)).1

/-- An infinity. -/
def f64Inf (neg : Bool) : BitVec 64 := BitVec.ofNat 64 (signBit neg + 2047 * 2 ^ 52)

/-- A quiet NaN whose payload is free: the spec does not say which NaN an operation gives. -/
def f64Nan (free : BitVec 64) : BitVec 64 := free ||| 0x7FF8000000000000

/-- The signed value of a finite datum. -/
def f64Val (neg : Bool) (m : Rat) : Rat := if neg then -m else m

/-- Negation flips the sign bit. -/
def f64Flip (b : BitVec 64) : BitVec 64 := b ^^^ 0x8000000000000000

/-- A signalling NaN among the operands is invalid. PRESUMED (log 58). -/
def f64Signals (a : BitVec 64) : Bool := decide (a.toNat / 2 ^ 51 % 4096 = 4094) && decide (a.toNat % 2 ^ 51 ≠ 0)
/-- PRESUMED (log 58). -/
def nanFlag (a b : BitVec 64) : BitVec 7 := if f64Signals a || f64Signals b then fInvalid else 0

def f64Add (free a b : BitVec 64) : BitVec 64 × BitVec 7 :=
  match f64Of a, f64Of b with
  | .nan, _ | _, .nan => (f64Nan free, nanFlag a b)
  | .inf x, .inf y => if x = y then (f64Inf x, 0) else (f64Nan free, fInvalid)
  | .inf x, .fin _ _ | .fin _ _, .inf x => (f64Inf x, 0)
  | .fin x m, .fin y n =>
    let v := f64Val x m + f64Val y n
    if v = 0 then (BitVec.ofNat 64 (signBit (x && y)), 0) else f64Round (decide (v < 0)) (if v < 0 then -v else v)

def f64Sub (free a b : BitVec 64) : BitVec 64 × BitVec 7 :=
  match f64Of b with
  | .nan => (f64Nan free, nanFlag a b)
  | _ => f64Add free a (f64Flip b)

def f64Mul (free a b : BitVec 64) : BitVec 64 × BitVec 7 :=
  match f64Of a, f64Of b with
  | .nan, _ | _, .nan => (f64Nan free, nanFlag a b)
  | .inf x, .inf y => (f64Inf (x != y), 0)
  | .inf x, .fin y m | .fin y m, .inf x => if m = 0 then (f64Nan free, fInvalid) else (f64Inf (x != y), 0)
  | .fin x m, .fin y n => f64Round (x != y) (m * n)

def f64Div (free a b : BitVec 64) : BitVec 64 × BitVec 7 :=
  match f64Of a, f64Of b with
  | .nan, _ | _, .nan => (f64Nan free, nanFlag a b)
  | .inf _, .inf _ => (f64Nan free, fInvalid)
  | .inf x, .fin y _ => (f64Inf (x != y), 0)
  | .fin x _, .inf y => (BitVec.ofNat 64 (signBit (x != y)), 0)
  | .fin x m, .fin y n =>
    if n = 0 then (if m = 0 then (f64Nan free, fInvalid) else (f64Inf (x != y), fDivZero)) else f64Round (x != y) (m / n)

/-- The integer square root, from the bit below `k` down. -/
def isqrtFrom (n : Nat) : Nat → Nat → Nat
  | 0, r => r
  | k + 1, r => let t := r + 2 ^ k; isqrtFrom n k (if t * t ≤ n then t else r)

def isqrt (n : Nat) : Nat := isqrtFrom n (n.log2 / 2 + 1) 0

/-- The nearest integer to a square root: no root of an integer lies half way. -/
def nearRoot (p : Nat) : Nat := let r := isqrt p; if r * r + r < p then r + 1 else r

/-- Square root: 110 bits of the exact root and a sticky bit round as the root does. -/
def f64Sqrt (free a : BitVec 64) : BitVec 64 × BitVec 7 :=
  match f64Of a with
  | .nan => (f64Nan free, nanFlag a a)
  | .inf true => (f64Nan free, fInvalid)
  | .inf false => (f64Inf false, 0)
  | .fin x m =>
    if m = 0 then (a, 0)
    else if x then (f64Nan free, fInvalid)
    else
      let e := log2Ratio m.num.toNat m.den
      let k := (240 - e).toNat / 2 * 2
      let v := m.num.toNat * 2 ^ k / m.den
      let r := isqrt v
      let sticky := if r * r * m.den = m.num.toNat * 2 ^ k then 0 else 1
      f64Round false (((2 * r + sticky : Nat) : Rat) / ((2 ^ (k / 2 + 1) : Nat) : Rat))

/-- FCMP: 0 equal, 1 less, 2 greater, 3 unordered. PRESUMED (log 58). -/
def f64Cmp (a b : BitVec 64) : Nat :=
  match f64Of a, f64Of b with
  | .nan, _ | _, .nan => 3
  | .inf x, .inf y => if x = y then 0 else if x then 1 else 2
  | .inf x, .fin _ _ => if x then 1 else 2
  | .fin _ _, .inf y => if y then 2 else 1
  | .fin x m, .fin y n =>
    let u := f64Val x m
    let v := f64Val y n
    if u = v then 0 else if u < v then 1 else 2

/-- FCVTFI: truncated and saturated to 32 signed bits; NaN gives 0. -/
def f64ToInt (a : BitVec 64) : Int × BitVec 7 :=
  match f64Of a with
  | .nan => (0, fInvalid)
  | .inf x => (if x then -2147483648 else 2147483647, fInvalid)
  | .fin x m =>
    let t : Nat := m.num.toNat / m.den
    let v : Int := if x then -(t : Int) else t
    if v < -2147483648 then (-2147483648, fInvalid)
    else if 2147483647 < v then (2147483647, fInvalid)
    else (v, if ((t : Nat) : Rat) = m then 0 else fInexact)

end Sys2Proof.Machine
end

