-- ==== Sys2Proof/Machine/Dma.lean ====
section
/-! DEFINITION. DMA channels: descriptors, chains and the registers of DC8–DC23 (R359–R362). -/

namespace Sys2Proof.Machine
open Sys2Proof

/-- Master whose rights a channel has: the one that programmed it (R14, R360). -/
def dmaMaster (n : Nat) (c : DmaChan) : Nat := if n < 8 then 0 else c.master

/-- One access of a channel: customer channels are checked against the windows and bank rights of UC, the device's own against the bank rights of CC. -/
def judgeDma (s : State) (n a len : Nat) (k : Access) : Verdict × Nat :=
  let c := s.dmaChan n
  if n < 8 then s.judgeBanks 0 a len (k == .store) else s.judgeCore (dmaMaster n c) k a len

/-- A descriptor as read (Table 15.14). -/
def descOf (p : List Byte) : DmaDesc :=
  { ctrl := fieldU p 0 4, src := fieldU p 4 4, dst := fieldU p 8 4, length := fieldU p 12 4, next := fieldU p 16 4 }

/-- VALID is set and every field is in range; a request line of a customer channel is a UART's and moves whole words (R361, R436). -/
def descOk (n : Nat) (d : DmaDesc) : Bool :=
  let req := bitsOf d.ctrl 12 8
  bitOf d.ctrl 0 && bitsOf d.ctrl 7 6 == 0 && decide (d.ctrl < 2 ^ 13) && decide (1 ≤ d.length ∧ d.length ≤ 16777216)
  && (!bitOf d.ctrl 1 || d.next % 32 == 0) && (n < 8 || req ≤ 12) && (req == 0 || 12 < req || d.length % 4 == 0)

/-- A descriptor ends: DONE_COUNT and its STATUS word (Table 15.14). -/
def descStatus (n code : Nat) (s : State) : State :=
  let c := s.dmaChan n
  if inMem (c.cur + 24) then s.memPut (c.cur + 24) (u32 (code + 256 * c.skipped)) else s

/-- The chain ends with ERR and state ABORTED (R361). DEDUCED (log 52). -/
def abortDma (n : Nat) (s : State) : State := s.modDma n fun c => { c with state := .aborted, err := true, run := none, waitBeat := none }

/-- Read the descriptor at `cur`, once (R361). DEDUCED (log 52). -/
def loadDesc (n : Nat) (sameTick : Bool) (s : State) : State :=
  let a := (s.dmaChan n).cur
  match judgeDma s n a 32 .load with
  | (.bad v, x) => freezeDma n v x false sameTick s
  | (.stall, _) => s
  | (.ok, _) =>
    if inIo a then abortDma n s
    else
      let p := s.memRead a 32
      match s.eccRead 0x12 a 32 with
      | (s, some x) => freezeDma n .ecc x false sameTick s
      | (s, none) =>
        let d := descOf p
        if descOk n d then
          s.modDma n fun c =>
            { c with run := some d, moved := 0, skipped := 0, waitBeat := if bitOf d.ctrl 5 then some s.time.beat else none }
        else abortDma n s

/-- START: run the chain from DMA_DESC; ignored unless IDLE, STOPPED or ABORTED (Table 15.16). -/
def startDma (n : Nat) (s : State) : State :=
  match (s.dmaChan n).state with
  | .idle | .stopped | .aborted =>
    loadDesc n false (s.modDma n fun c => { c with state := .running, cur := c.desc, run := none, moved := 0, skipped := 0, waitBeat := none, stopReq := false })
  | _ => s

/-- STOP at the next 64-byte boundary: between bursts, at once; on a frozen channel after the thaw. -/
def stopDma (n : Nat) (s : State) : State :=
  s.modDma n fun c => match c.state with
    | .running | .waiting => { c with state := .stopped, waitBeat := none }
    | .frozen => { c with stopReq := true }
    | _ => c

/-- The channel is one of DC8–DC23 and assigned to UC (R362). -/
def ucChan (s : State) (n : Nat) : Bool := decide (8 ≤ n ∧ n ≤ 23) && (s.dmaChan n).master == 7

def execDmaStart (chan : Nat) (s : State) : Host.Outcome State Fault Refusal := .next (if s.live ∧ ucChan s chan then startDma chan s else s)
def execDmaStop (chan : Nat) (s : State) : Host.Outcome State Fault Refusal := .next (if s.live ∧ ucChan s chan then stopDma chan s else s)

/-- W1C of ERR and DONE (Table 15.17). -/
def clearDma (n value : Nat) (s : State) : State :=
  s.modDma n fun c => { c with err := c.err && !bitOf value 7, done := c.done && !bitOf value 6 }

def execDmaStatusClear (chan value : Nat) (s : State) : Host.Outcome State Fault Refusal :=
  .next (if s.live ∧ ucChan s chan then clearDma chan value s else s)

/-- A write of DMA_CTRL: CLASS above CLASS_MAX is stored as CLASS_MAX (Table 15.18), then START and STOP. -/
def dmaCtrlWrite (n value : Nat) (s : State) : State :=
  let s := s.modDma n fun c => { c with cls := max c.classMax (bitsOf value 3 2) }
  let s := if bitOf value 0 then startDma n s else s
  if bitOf value 1 then stopDma n s else s

/-- Bytes of the current descriptor not yet moved. -/
def DmaChan.resid (c : DmaChan) : Nat := (c.run.map fun d => d.length - c.moved).getD 0

/-- A register of a customer channel as read (Table 15.15). -/
def dmaRegRead (n off : Nat) (s : State) : Nat :=
  let c := s.dmaChan n
  match off with
  | 0x00 => c.cls * 4
  | 0x04 => c.desc
  | 0x08 => c.doneCount * 65536 + (if c.err then 128 else 0) + (if c.done then 64 else 0) + (c.shown s).code
  | 0x0C => c.resid
  | 0x10 => c.fail
  | 0x14 => c.cur
  | _ => 0

def dmaRegWrite (n off value : Nat) (s : State) : State :=
  match off with
  | 0x00 => dmaCtrlWrite n value s
  | 0x04 => s.modDma n fun c => { c with desc := value / 32 * 32 }
  | 0x08 => clearDma n value s
  | _ => s

end Sys2Proof.Machine
end

