-- ==== Sys2Proof/Machine/Domain.lean ====
section
/-! DEFINITION. The Quothar domain protocol and the reference station (R224–R240), and received Ethernet frames (R265). -/

namespace Sys2Proof.Machine
open Sys2Proof

def State.domain (s : State) : Domain := s.corr.domain
def State.modDomain (s : State) (f : Domain → Domain) : State := s.modCorr fun c => { c with domain := f c.domain }

/-- DOMAIN_EVENT (R238). -/
def State.domainEvent (s : State) (kind node value : Nat) : State :=
  s.notify 0x8831 (s.beatBytes ++ u8 kind ++ rsv 1 ++ u16 node ++ u32 value)

/-- QDP goes on while the block is enabled and CC runs. -/
def State.qdpOn (s : State) : Bool := s.live && s.domain.cfg.enable

/-- A slot that QDP can use: CMAC_GEN and CMAC_VER allowed, for master 0x00 (R226, R419). -/
def qdpKeyOk (k : SlotKey) : Bool := k.policy.getLsbD 0 && k.policy.getLsbD 1 && k.masters.getLsbD 0

/-- The MAC key; none while the slot is empty or its key may not be used. -/
def macKey (s : State) : Option (List Nat) :=
  let k := s.slot s.domain.cfg.keySlot
  if s.on 11 && k.state == .active && qdpKeyOk k.cur && !k.cur.expired s.time.dt && k.cur.uses != 0 then some (k.cur.key.map fun (x : Byte) => x.toNat) else none

/-- Bytes 0 to 23 + LEN with HOPS and FLAGS as 0 (Table 9.4). -/
def macInput (d : List Byte) : List Nat := ((d.take 10) ++ ([0, 0] : List Byte) ++ (d.drop 12)).map fun (x : Byte) => x.toNat
/-- DEDUCED (log 40). -/
def qdpMac (key : List Nat) (d : List Byte) : List Byte := ((cmac key (macInput d)).take 8).map (BitVec.ofNat 8)

/-! ### Sending -/

/-- The transports of DOMAIN_CFG.TRANSPORT: 0 EP0, 1 EP1, 2 tunnel. -/
def qdpTransports (s : State) : List Nat := (List.range 3).filter fun t => bitOf s.domain.cfg.transport t

/-- A datagram goes out on one transport: UDP to the group, or a QDP_OUT notice (R224). -/
def qdpOut (t : Nat) (d : List Byte) (s : State) : State :=
  if t = 2 then s.notify 0x8830 d
  else sendUdp t (groupMac s.domain.cfg.mcast) s.domain.cfg.mcast s.domain.cfg.port s.domain.cfg.port d s

/-- The device may send: not silent by conflict (R232) nor by a saturated DT epoch ID (R239). -/
def qdpMaySend (s : State) : Bool := s.qdpOn && !s.saturated && (s.domain.silent.map fun t => decide (t ≤ s.now)).getD true

/-- A datagram of the device: SEQ counts from 0 in each DT epoch (Table 9.4). -/
def qdpBuild (type dst : Nat) (body : List Byte) (key : List Nat) (s : State) : List Byte :=
  let c := s.domain.cfg
  let h := [0x51, 0x44, 0x01] ++ u8 type ++ u16 c.domainId ++ u16 s.nodeId ++ u16 dst ++ u8 c.maxHops ++ u8 0 ++ leBytes 4 s.nv.epoch.toNat
    ++ leBytes 4 s.domain.seq.toNat ++ u16 body.length ++ rsv 2 ++ body
  h ++ qdpMac key h

/-- Originate a datagram on every enabled transport: TIME differs by transport, so the body is a function of it. DEDUCED (log 40). -/
def qdpSend (type dst : Nat) (body : Nat → List Byte) (launch : Option Nat) (s : State) : State :=
  match macKey s with
  | none => s
  | some key =>
    if !qdpMaySend s then s
    else (qdpTransports s).foldl (fun s t =>
      let d := qdpBuild type dst (body t) key s
      let s := s.modDomain fun v => { v with seq := v.seq + 1, sent := (v.sent ++ [v.seq]).drop (v.sent.length - 63) }
      match launch, t with
      | some l, 0 | some l, 1 =>
        let (s, fs) := udpFrames s t (groupMac s.domain.cfg.mcast) s.domain.cfg.mcast s.domain.cfg.port s.domain.cfg.port d
        fs.foldl (fun s f => sendOwn t f true 0 0 (some l) s) s
      | _, _ => qdpOut t d s) s

/-- Roles: bit 0 GM, 1 REFERENCE, 2 ROVER, 3 RELAY (R229). -/
def Domain.role (d : Domain) (b : Nat) : Bool := bitOf d.cfg.roles b

/-- A node with only the ROVER role sends nothing. -/
def Domain.sends (d : Domain) : Bool := d.role 0 || d.role 1 || d.role 3

/-- ECEF in m of the latest position. -/
def posMetres (s : State) : List Int := match s.nav.pvt with
  | some r => if r.mode = 0 then [0, 0, 0] else r.pos.map fun v => roundDiv v 10000
  | none => [0, 0, 0]

def helloBody (s : State) : List Byte :=
  u8 s.domain.cfg.roles ++ u8 s.clock.qdpClass ++ u8 s.domain.cfg.gmPriority ++ u8 s.nav.spoof.state ++ ((posMetres s).map i32).flatten

/-- TIME at an instant (Table 9.5). DEDUCED (log 40). -/
def timeBody (s : State) (dt : Nat) : List Byte :=
  u64 (s.clock.gpsNs dt) ++ u32 (s.clock.uncField dt) ++ u16 s.clock.gen ++ u8 ((s.clock.leapAt dt).getD 0) ++ u8 s.clock.qdpClass

def alertBody (s : State) (kind : Nat) : List Byte := u8 kind ++ u8 s.nav.spoof.score ++ rsv 2 ++ s.beatBytes ++ rsv 4

/-- The candidates of an election: CLASS, GM_PRIORITY and node (R229). -/
def gmCandidates (s : State) : List (Nat × Nat × Nat) :=
  (if s.domain.role 0 then [(s.clock.qdpClass, s.domain.cfg.gmPriority, s.nodeId)] else [])
  ++ ((s.domain.peers.filter fun p => bitOf p.roles 0 && !p.timedOut && !s.passedMs p.hello (3 * s.domain.cfg.helloInt)).map fun p => (p.class_, p.priority, p.node))

def gmLess (a b : Nat × Nat × Nat) : Bool := lexLt [a.1, a.2.1, a.2.2] [b.1, b.2.1, b.2.2]

/-- Elect the grandmaster, with DOMAIN_EVENT GM_CHANGE (R229). -/
def electGm (s : State) : State :=
  let gm := ((gmCandidates s).foldl (fun b c => match b with | none => some c | some x => some (if gmLess c x then c else x)) none).map (·.2.2)
  if gm = s.domain.gm then s else (s.modDomain fun d => { d with gm := gm }).domainEvent 3 (gm.getD 0xFFFF) (gm.getD 0xFFFF)

/-- The ALERT kind that holds: MOVED, SPOOF or INTEGRITY of a reference station (R228, R236). -/
def ownAlert (s : State) : Nat :=
  if s.corr.ref.state = 3 then 3 else if s.corr.ref.state = 2 && s.nav.spoof.state == 2 then 1 else if s.corr.ref.state = 2 && s.nav.alarm then 2 else 0

/-- ALERT as the condition asks: repeated while it holds, CLEAR once (Table 9.5). -/
def sendAlert (s : State) : State :=
  let k := ownAlert s
  let was := s.domain.alert
  let s := s.modDomain fun d => { d with alert := k }
  if k ≠ 0 ∨ was ≠ 0 then qdpSend 5 0xFFFF (fun _ => alertBody s k) none s else s

/-- How far ahead the device queues its TIME frames: within the 20 ms of R272. DEDUCED (log 40). -/
def timeLead : Nat := 10 * msUnits

/-- Every HELLO_INT (R228, R229). -/
def execHelloSend (s : State) : Host.Outcome State Fault Refusal :=
  .next (
    let d := s.domain
    if !s.qdpOn || !d.sends || decide (s.now < d.helloDue) then s
    else
      let s := s.modDomain fun d => { d with helloDue := s.now + d.cfg.helloInt * msUnits }
      let s := qdpSend 1 0xFFFF (fun _ => helloBody s) none s
      let s := if s.domain.role 0 then electGm s else s
      let s := if s.domain.role 0 && s.domain.gm == some s.nodeId then
          qdpSend 2 0xFFFF (fun t => timeBody s (if t = 2 then s.now else s.now + timeLead)) (some (s.now + timeLead)) s
        else s
      sendAlert s)

/-! ### Receiving (R225–R233) -/

def qField (d : List Byte) (off n : Nat) : Nat := fieldU d off n

/-- The header checks of R225. -/
def qdpHeaderOk (s : State) (d : List Byte) : Bool :=
  decide (32 ≤ d.length) && d.take 3 == [0x51, 0x44, 0x01] && qField d 4 2 == s.domain.cfg.domainId && decide (qField d 20 2 ≤ 1376)
    && decide (d.length = 32 + qField d 20 2) && decide (1 ≤ qField d 3 1) && decide (qField d 3 1 ≤ 5)
    && (qField d 8 2 == 0xFFFF || qField d 8 2 == s.nodeId)

def qdpDiscard (s : State) : State := s.modDomain fun v => { v with discarded := v.discarded + 1 }

/-- A MAC failure: counted, and reported once per source per 60 s (R226). -/
def macFailed (src : Nat) (s : State) : State :=
  let recent := s.domain.macEvents.any fun m => m.1 == src && !s.passedMs m.2 60000
  let s := s.modDomain fun v => { v with macFail := sat32 (v.macFail + 1) }
  if recent then s
  else (s.modDomain fun v => { v with macEvents := (v.macEvents.filter fun m => m.1 != src && !s.passedMs m.2 60000) ++ [(src, s.now)] }).domainEvent 6 src 0

/-- The replay window of a source (R227): none, a replay. -/
def replayStep (p : Peer) (epoch seq : BitVec 32) : Option Peer :=
  if epoch.toNat < p.epoch.toNat then none
  else if p.epoch.toNat < epoch.toNat then some { p with epoch := epoch, highest := seq, window := 1 }
  else if p.highest.toNat < seq.toNat then
    let d := seq.toNat - p.highest.toNat
    some { p with highest := seq, window := if d < 64 then p.window <<< d ||| 1 else 1 }
  else
    let b := p.highest.toNat - seq.toNat
    if 64 ≤ b ∨ p.window.getLsbD b then none else some { p with window := p.window ||| (1#64 <<< b) }

def modPeer (node : Nat) (f : Peer → Peer) (s : State) : State :=
  s.modDomain fun v => { v with peers := v.peers.map fun p => if p.node == node then f p else p }

/-- A HELLO of a new source is admitted where an entry is free or belongs to a source silent for 10 s (R227). DEDUCED (log 40). -/
def admitPeer (node : Nat) (epoch seq : BitVec 32) (s : State) : State × Bool :=
  let new : Peer := { node := node, roles := 0, class_ := 3, priority := 255, epoch := epoch, highest := seq, window := 1, heard := s.now, hello := s.now, alert := 0, alertAt := 0, timedOut := false }
  let ps := s.domain.peers
  if ps.length < 256 then ((s.modDomain fun v => { v with peers := ps ++ [new] }).domainEvent 1 node 0, true)
  else match ps.find? fun p => s.passedMs p.heard 10000 with
    | some old => (((s.modDomain fun v => { v with peers := ps.erase old ++ [new] }).domainEvent 2 old.node 0).domainEvent 1 node 0, true)
    | none => (qdpDiscard s, false)

/-- ATMO of a reference (R228, R233): a time in the future or a source switched off discards it, STEC_RANGE an entry. -/
def takeAtmo (node : Nat) (b : List Byte) (s : State) : State :=
  let time := fieldU b 0 8
  let n := fieldU b 25 1
  if !sourceOn s 4 ∨ future s time then qdpDiscard s
  else if fieldU b 24 1 = 0 ∨ 100 < fieldU b 24 1 ∨ n = 0 ∨ 64 < n ∨ b.length ≠ 28 + 8 * n then qdpDiscard s
  else
    let es := (List.range n).map fun i => let o := 28 + 8 * i; (fieldU b o 1, fieldU b (o + 1) 1, fieldI b (o + 2) 2, fieldU b (o + 4) 2)
    let a : Atmo :=
      { node := node, time := time, arp := (List.range 3).map fun i => fieldI b (8 + 4 * i) 4, zwd := fieldU b 20 2, zwdSig := fieldU b 22 2, radius := fieldU b 24 1
        entries := es.filter fun e => decide (e.2.2.1.natAbs ≤ 50000) && decide (e.2.2.2 ≤ 2000) }
    s.modCorr fun c => { c with atmo := (c.atmo.filter fun x => x.node != node) ++ [a] }

/-- The frames of an RTCM body; none where the body is not made of COUNT whole frames. -/
def qdpFrames (b : List Byte) : Option (List (List Byte)) :=
  match splitFrames 0 (fieldU b 2 1) 4 (b.drop 4) with
  | .ok fs => if 1 ≤ fieldU b 2 1 ∧ fieldU b 2 1 ≤ 16 then some (fs.map (·.2)) else none
  | .error _ => none

/-- The body of an accepted datagram is used (Table 9.5).  `rx`: the unwrapped receive DT, none over the tunnel. -/
def qdpUse (node type : Nat) (b : List Byte) (rx : Option Nat) (info : List RtcmInfo) (s : State) : State :=
  match type with
  | 1 => modPeer node (fun p => { p with roles := fieldU b 0 1, class_ := fieldU b 1 1, priority := fieldU b 2 1, hello := s.now, timedOut := false }) s
  | 2 =>
    let unc := fieldU b 8 4
    let (at_, u) := match rx with
      | some t => (t, unc + s.domain.cfg.pathBound * 1000)
      | none => (s.now, unc + 1000000000)
    let s := s.modDomain fun v => { v with prior := some (at_, fieldU b 0 8, u) }
    s.modClock fun c => { c with qdpLeap := some (fieldU b 14 1) }
  | 3 => match qdpFrames b with
    | some fs => (applyFrames 4 node fs info s).1
    | none => qdpDiscard s
  | 4 => takeAtmo node b s
  | _ =>
    let k := fieldU b 0 1
    if 3 < k then s
    else
      let was := ((s.domain.peers.find? fun p => p.node == node).map (·.alert)).getD 0
      let s := modPeer node (fun p => { p with alert := k, alertAt := s.now }) s
      if was = k then s else s.domainEvent 5 node k

/-- A relay forwards to its other transports (R231). -/
def qdpRelay (from_ : Nat) (d : List Byte) (s : State) : State :=
  let hops := qField d 10 1
  if !s.domain.role 3 || decide (hops < 2) || !qdpMaySend s then s
  else
    let f := d.take 10 ++ u8 (hops - 1) ++ u8 1 ++ d.drop 12
    ((qdpTransports s).filter fun t => t != from_).foldl (fun s t => qdpOut t f s) s

/-- A conflicting HELLO (R232). DEDUCED (log 40). -/
def nodeConflict (s : State) : State :=
  let was := (s.domain.silent.map fun t => decide (s.now < t)).getD false
  let s := s.modDomain fun v => { v with silent := some (s.now + 30000 * msUnits) }
  if was then s else s.domainEvent 4 s.nodeId 0

/-- Datagrams of known and of new sources with a good MAC (R227). -/
def qdpAccept (from_ : Nat) (rx : Option Nat) (d : List Byte) (info : List RtcmInfo) (s : State) : State :=
  let node := qField d 6 2
  let type := qField d 3 1
  let epoch : BitVec 32 := BitVec.ofNat 32 (qField d 12 4)
  let seq : BitVec 32 := BitVec.ofNat 32 (qField d 16 4)
  let body := (d.drop 24).take (qField d 20 2)
  let use (s : State) : State := qdpRelay from_ d (qdpUse node type body rx info s)
  match s.domain.peers.find? fun p => p.node == node with
  | some p =>
    match replayStep p epoch seq with
    | none => s.modDomain fun v => { v with replay := sat32 (v.replay + 1) }
    | some p' => use (modPeer node (fun _ => { p' with heard := s.now }) s)
  | none =>
    if type ≠ 1 then qdpDiscard s
    else
      let (s, ok) := admitPeer node epoch seq s
      if ok then use s else s

/-- A received datagram (R225–R233). -/
def qdpReceive (from_ : Nat) (rx : Option Nat) (d : List Byte) (info : List RtcmInfo) (s : State) : State :=
  if !s.qdpOn || !bitOf s.domain.cfg.transport from_ then s
  else if !qdpHeaderOk s d then qdpDiscard s
  else
    let src := qField d 6 2
    let mine := src == s.nodeId && qField d 12 4 == s.nv.epoch.toNat && s.domain.sent.contains (BitVec.ofNat 32 (qField d 16 4))
    match macKey s with
    | none => macFailed src s
    | some key =>
      let n := d.length - 8
      if qdpMac key (d.take n) ≠ d.drop n then macFailed src s
      else if mine then s
      else if src == s.nodeId then (if qField d 3 1 = 1 ∧ s.domain.sends then nodeConflict s else qdpDiscard s)
      else qdpAccept from_ rx d info s

/-! ### Commands -/

def domainCfgOf (q : Qcp) : DomainCfg :=
  { enable := q.u 0 1 == 1, roles := q.u 1 1, transport := q.u 2 1, gmPriority := q.u 3 1, port := q.u 4 2, helloInt := q.u 6 2, mcast := q.u 8 4
    keySlot := q.u 12 1, maxHops := q.u 13 1, domainId := q.u 14 2, pathBound := q.u 16 4 }

/-- The Stop fields (Table 9.9). -/
def DomainCfg.stop (c : DomainCfg) : List Nat := [c.roles, c.transport, c.port, c.helloInt, c.mcast, c.keySlot, c.domainId]

def domainCfgCmd : HostCmd :=
  { opcode := 0x0830, len := .fixed 20, priv := 2
    range := fun q s =>
      let c := domainCfgOf q
      let k := s.slot c.keySlot
      [ (0, q.u 0 1 ≤ 1), (1, c.roles ≤ 15), (2, c.transport ≤ 7),
        (4, 1024 ≤ c.port && c.port != (s.transport 8).qcpPort && c.port != (s.transport 9).qcpPort), (6, 250 ≤ c.helloInt && c.helloInt ≤ 10000),
        (8, 224 ≤ c.mcast / 2 ^ 24 && c.mcast / 2 ^ 24 ≤ 239),
        (12, c.keySlot ≤ 31 && (!c.enable || (k.state != .empty && qdpKeyOk k.cur))), (13, 1 ≤ c.maxHops && c.maxHops ≤ 8),
        (16, 1 ≤ c.pathBound && c.pathBound ≤ 1000000) ]
    state := fun q s => let c := domainCfgOf q; [!(s.domain.cfg.enable && c.enable) || c.stop == s.domain.cfg.stop]
    late := fun q s =>
      let c := domainCfgOf q
      match c.enable, (s.slot c.keySlot).state with
      | true, .rewritePending => some (.keyBusy 0xFF c.keySlot 2 0xFF)
      | true, .erasePending => some (.keyBusy 0xFF c.keySlot 3 0xFF)
      | _, _ => none
    effect := fun q s =>
      let c := domainCfgOf q
      let was := s.domain.cfg.enable
      (s.modDomain fun d => { d with cfg := c, helloDue := if c.enable && !was then s.now else d.helloDue
                                     gm := if c.enable then d.gm else none, silent := if c.enable then d.silent else none }, .ok []) }

def execDomainCfg (q : Qcp) (s : State) : Host.Outcome State Fault Refusal := runHost domainCfgCmd q s

/-- STATE of DOMAIN_STATUS (R238, R239). -/
def domainState (s : State) : Nat :=
  if !s.domain.cfg.enable then 0 else if s.saturated then 3 else if (s.domain.silent.map fun t => decide (s.now < t)).getD false then 2 else 1

def peerBytes (s : State) (p : Peer) : List Byte :=
  u16 p.node ++ u8 p.roles ++ u8 p.class_ ++ u16 (min 65535 ((s.now - p.heard) / (100 * msUnits))) ++ u8 p.alert ++ rsv 1

def domainStatusCmd : HostCmd :=
  { opcode := 0x0831, len := .fixed 0, priv := 0
    effect := fun _ s =>
      let d := s.domain
      (s, .ok (u8 (domainState s) ++ rsv 1 ++ u16 (d.gm.getD 0xFFFF) ++ u16 d.peers.length ++ u32 d.macFail ++ u32 d.replay ++ rsv 2
        ++ (d.peers.map (peerBytes s)).flatten)) }

def execDomainStatus (q : Qcp) (s : State) : Host.Outcome State Fault Refusal := runHost domainStatusCmd q s

def qdpTunnelCmd (info : List RtcmInfo) : HostCmd :=
  { opcode := 0x0832, len := ⟨32, 1408, fun _ => none⟩, priv := 1, effect := fun q s => (qdpReceive 2 none q.payload info s, .ok []) }

def execQdpTunnelIn (q : Qcp) (info : List RtcmInfo) (s : State) : Host.Outcome State Fault Refusal := runHost (qdpTunnelCmd info) q s

def execQdpDatagramRx (port stamp : Nat) (data : List Byte) (info : List RtcmInfo) (s : State) : Host.Outcome State Fault Refusal :=
  .next (if s.portUp port ∧ port < 2 then qdpReceive port (some (((stamp : Int) - (s.port port).lat.committed.2).toNat)) data info s else s)

/-- TRANSPORT_CFG, whose QCP_PORT may not take the QDP port (R312, Table 9.9). -/
def execTransportCfg (q : Qcp) (s : State) : Host.Outcome State Fault Refusal := runHost (transportCfgCmd fun s => s.domain.cfg.port) q s

/-! ### Timeouts -/

/-- An ALERT without a repeat for 3 × HELLO_INT ends (R233). -/
def execAlertExpiry (s : State) : Host.Outcome State Fault Refusal :=
  let over_ (d : Domain) (p : Peer) : Bool := p.alert != 0 && s.passedMs p.alertAt (3 * d.cfg.helloInt)
  .next (s.modDomain fun d => { d with peers := d.peers.map fun p => if over_ d p then { p with alert := 0 } else p })

/-- A GM node whose HELLO is older than 3 × HELLO_INT leaves the election (R229). -/
def execPeerTimeout (s : State) : Host.Outcome State Fault Refusal :=
  .next (
    let old := s.domain.peers.filter fun p => !p.timedOut && bitOf p.roles 0 && s.passedMs p.hello (3 * s.domain.cfg.helloInt)
    let s := s.modDomain fun d => { d with peers := d.peers.map fun p => if old.contains p then { p with timedOut := true } else p }
    let s := old.foldl (fun s p => s.domainEvent 2 p.node 0) s
    if s.qdpOn && s.domain.role 0 && !old.isEmpty then electGm s else s)

def execConflictSilenceEnd (s : State) : Host.Outcome State Fault Refusal :=
  .next (s.modDomain fun d => { d with silent := d.silent.filter fun t => decide (s.now < t) })

/-! ### Received frames (R265) -/

/-- Destination addresses that a port accepts. -/
def macAccepted (s : State) (n : Nat) (dst : List Byte) : Bool :=
  let p := s.ptp n
  dst == s.macOf n || dst == bcast
    || (p.enable && (if p.stop.profile = 0 then dst == groupMac 0xE0000181 || dst == groupMac 0xE000006B
        else dst == [0x01, 0x80, 0xC2, 0, 0, 0x0E] || (p.stop.profile != 3 && dst == [0x01, 0x1B, 0x19, 0, 0, 0])))
    || (s.domain.cfg.enable && bitOf s.domain.cfg.transport n && dst == groupMac s.domain.cfg.mcast)

def dropRx (n : Nat) (s : State) : State := s.modPort n fun p => { p with rxDrop := sat32 (p.rxDrop + 1) }
def goodRx (n : Nat) (s : State) : State := s.modPort n fun p => { p with rxOk := sat32 (p.rxOk + 1) }

/-- A UDP datagram for the device. DESIGN CHOICE (log 46). -/
def udpReceive (n stamp : Nat) (d : List Byte) (info : List RtcmInfo) (s : State) : State :=
  let dport := beField d 2 2
  let data := d.drop 8
  if dport = 319 ∨ dport = 320 then
    if (s.ptp n).enable ∧ (s.ptp n).stop.profile = 0 then ptpReceive n stamp data (goodRx n s) else dropRx n s
  else if s.domain.cfg.enable ∧ dport = s.domain.cfg.port then qdpReceive n (some stamp) data info (goodRx n s)
  else if (s.transport (8 + n)).enable ∧ dport = (s.transport (8 + n)).qcpPort then
    if data.take 2 = [0xCA, 0xFE] then goodRx n s else dropRx n s
  else dropRx n s

/-- An IPv4 packet for the device: UDP, or an ICMP echo request of at most 1,472 payload bytes. -/
def ipReceive (n stamp : Nat) (srcMac : List Byte) (p : List Byte) (info : List RtcmInfo) (s : State) : State :=
  let hl := 4 * (beField p 0 1 % 16)
  let total := beField p 2 2
  let src := beField p 12 4
  let dst := beField p 16 4
  let frag := beField p 6 2
  let proto := beField p 9 1
  let data := (p.take total).drop hl
  let mine := dst == (s.port n).cfg.ipv4 || dst == 0xFFFFFFFF || dst == 0xE0000181 || dst == 0xE000006B || dst == s.domain.cfg.mcast
  if beField p 0 1 / 16 ≠ 4 ∨ hl < 20 ∨ p.length < total ∨ total < hl then dropRx n s
  else if !mine then dropRx n s
  else if proto = 1 then
    if frag % 0x4000 ≠ 0 ∨ beField data 0 1 ≠ 8 ∨ 1480 < data.length ∨ dst ≠ (s.port n).cfg.ipv4 then dropRx n s
    else
      let h (c : Nat) := [0, 0] ++ be 2 c ++ data.drop 4
      let (s, id) := s.openVal 70
      let (s, ttl) := s.openVal 71
      sendOwn n (s.ethFrame n srcMac 0x0800 (ipv4 dst src (id % 65536) 0 (ttl % 256) 1 (h (inetChecksum (h 0))))) false 0 0 none (goodRx n s)
  else if proto ≠ 17 then dropRx n s
  else if frag % 0x4000 = 0 then udpReceive n stamp data info s
  else
    let (s, whole) := reassemble n src (beField p 4 2) (8 * (frag % 0x2000)) (bitOf frag 13) data s
    match whole with
    | some d => udpReceive n stamp d info s
    | none => s

/-- ARP: a request for the device's address is answered. PRESUMED (log 42). -/
def arpReceive (n : Nat) (p : List Byte) (s : State) : State :=
  if p.take 8 = [0, 1, 8, 0, 6, 4, 0, 1] ∧ beField p 24 4 = (s.port n).cfg.ipv4 then
    let srcMac := fieldB p 8 6
    sendOwn n (s.ethFrame n srcMac 0x0806 ([0, 1, 8, 0, 6, 4, 0, 2] ++ s.macOf n ++ be 4 (s.port n).cfg.ipv4 ++ srcMac ++ fieldB p 14 4)) false 0 0 none (goodRx n s)
  else dropRx n s

/-- A received frame without its FCS; `stamp` is the unwrapped DT of its timestamp point at the interface (R265, R266). DESIGN CHOICE (log 46). -/
def execEthFrameRx (port stamp : Nat) (fcsOk : Bool) (frame : List Byte) (info : List RtcmInfo) (s : State) : Host.Outcome State Fault Refusal :=
  .next (
    if !s.portUp port || decide (1 < port) then s
    else if !fcsOk then s.modPort port fun p => { p with rxFcs := sat32 (p.rxFcs + 1) }
    else if frame.length < 60 ∨ 1518 < frame.length ∨ !macAccepted s port (frame.take 6) then dropRx port s
    else
      let v := (s.port port).cfg.vlan
      let tagged := beField frame 12 2 == 0x8100
      if (v = 0) = (tagged = true) ∨ (v ≠ 0 ∧ beField frame 14 2 % 4096 ≠ v) then dropRx port s
      else
        let o := if tagged then 16 else 12
        let data := frame.drop (o + 2)
        let stamp := ((stamp : Int) - (s.port port).lat.committed.2).toNat
        match beField frame o 2 with
        | 0x0806 => arpReceive port data s
        | 0x0800 => ipReceive port stamp (fieldB frame 6 6) data info s
        | 0x88F7 => if (s.ptp port).enable ∧ (s.ptp port).stop.profile ≠ 0 then ptpReceive port stamp data (goodRx port s) else dropRx port s
        | _ => dropRx port s)

/-! ### The reference station: commands (R234–R238) -/

def refStopOf (q : Qcp) : RefStop :=
  { posMode := q.u 1 1, station := q.u 2 2, arp := if q.u 1 1 = 1 then [0, 0, 0] else (List.range 3).map fun i => q.i (4 + 8 * i) 8, surveyTime := q.u 28 2, surveySig := q.u 30 2 }

/-- OBS_RATE in beats. -/
def obsBeats (code : Nat) : Nat := ([1000, 500, 200, 100][code]?).getD 1000

/-- DESIGN CHOICE (log 41). -/
def refstnCfgCmd : HostCmd :=
  { opcode := 0x0840, len := .fixed 36, priv := 2
    range := fun q s =>
      let t := refStopOf q
      [ (0, q.u 0 1 ≤ 1), (1, t.posMode ≤ 1), (2, t.station ≤ 4095), (4, t.posMode == 1 || arpOk t.arp), (28, 60 ≤ t.surveyTime),
        (30, 5 ≤ t.surveySig && t.surveySig ≤ 10000), (32, q.u 32 1 ≤ 3 && obsBeats (q.u 32 1) % measBeats s.nav.cfg.committed.rate == 0),
        (33, 4 ≤ q.u 33 1 && q.u 33 1 ≤ 7), (34, q.u 34 1 ≤ 7) ]
    state := fun q s => [!(s.corr.ref.state == 1 || s.corr.ref.state == 2) || refStopOf q == s.corr.ref.stop]
    effect := fun q s =>
      (s.modCorr fun c => { c with ref := { c.ref with
        stop := refStopOf q, saved := if refStopOf q = c.ref.stop ∨ c.ref.stop = RefStn.reset.stop then c.ref.saved else none, epoch := c.ref.epoch.commit (q.u 0 1 == 1, q.u 32 1, q.u 33 1, q.u 34 1), state := if c.ref.state = 3 then 0 else c.ref.state } }, .ok []) }

def execRefstnCfg (q : Qcp) (s : State) : Host.Outcome State Fault Refusal := runHost refstnCfgCmd q s

/-- σ of the weighted mean in mm: weights are 1/mm². -/
def RefStn.sigma (r : RefStn) : Nat := if r.weight ≤ 0 then 0xFFFFFFFF else sat32 (roundRat (Config.fn .sqrt (1 / r.weight))).toNat

def refstnStatusCmd : HostCmd :=
  { opcode := 0x0841, len := .fixed 0, priv := 0
    effect := fun _ s =>
      let r := s.corr.ref
      (s, .ok (u8 r.state ++ rsv 3 ++ (r.arp.map i64).flatten ++ u32 (if r.state = 1 then (s.now - r.since) / (1000 * msUnits) else 0)
        ++ u32 (if r.state = 1 then r.sigma else 0))) }

def execRefstnStatus (q : Qcp) (s : State) : Host.Outcome State Fault Refusal := runHost refstnStatusCmd q s

end Sys2Proof.Machine
end

