-- ==== Sys2Proof/Machine/Nav.lean ====
section
/-! DEFINITION. Navigation commands, decoded messages and fusion inputs (R178–R188, R200–R204, R208–R210). -/

namespace Sys2Proof.Machine
open Sys2Proof

/-- NAV_EVENT (R210); VALUE is free where the rule gives it no meaning. DESIGN CHOICE (log 36). -/
def State.navEvent (s : State) (kind sat : Nat) (value : Option Nat) : State :=
  let (s, v) := match value with
    | some v => (s, v)
    | none => s.openVal 80
  s.notify 0x8750 (s.beatBytes ++ u8 kind ++ u8 sat ++ u16 (v % 65536) ++ rsv 4)

/-! ### Commands (R208, R209) -/

/-- Beats of a FUSE code (R178). -/
def fuseBeats (code : Nat) : Nat := ([0, 5, 10, 20, 50, 100][code]?).getD 0

/-- A FUSE code is permitted when its beat count divides MEAS_BEATS (R178). -/
def fuseOk (rate code : Nat) : Bool := code == 0 || measBeats rate % fuseBeats code == 0

def navCfgOf (q : Qcp) : NavCfg :=
  { modeMax := q.u 0 1, rate := q.u 1 1, pvtDecim := q.u 2 1, fuse := q.u 3 1, systems := q.u 4 1, elevMask := q.u 5 1, dynamics := q.u 6 1, fdeMax := q.u 7 1
    faExp := q.u 8 1, measNotify := q.u 9 1 == 1, kff := q.u 10 2, kmd := q.u 12 2, hal := q.u 14 2, val := q.u 16 2, arRatio := q.u 18 2, cn0Mask := q.u 20 1 }

def navCfgCmd : HostCmd :=
  { opcode := 0x0701, len := .fixed 24, priv := 1
    range := fun q _ =>
      let c := navCfgOf q
      [ (0, 2 ≤ c.modeMax && c.modeMax ≤ 9), (1, c.rate ≤ 6),
        (2, c.pvtDecim ≤ 100), (3, c.fuse ≤ 5 && fuseOk c.rate c.fuse), (4, c.systems ≤ 127), (5, c.elevMask ≤ 30), (6, c.dynamics ≤ 2), (7, c.fdeMax ≤ 3),
        (8, 3 ≤ c.faExp && c.faExp ≤ 9), (9, q.u 9 1 ≤ 1), (10, 256 ≤ c.kff && c.kff ≤ 2560), (12, 256 ≤ c.kmd && c.kmd ≤ 2560), (14, 10 ≤ c.hal && c.hal ≤ 10000),
        (16, 10 ≤ c.val && c.val ≤ 10000), (18, 256 ≤ c.arRatio && c.arRatio ≤ 2560), (20, 15 ≤ c.cn0Mask && c.cn0Mask ≤ 40) ]
    effect := fun q s => (s.modNav fun v => { v with cfg := v.cfg.commit (navCfgOf q) }, .ok []) }

def execNavCfg (q : Qcp) (s : State) : Host.Outcome State Fault Refusal := runHost navCfgCmd q s

/-- A data set that may be used now: inside its fit interval and healthy (R188). -/
def dataValid (s : State) (d : DataSet) : Bool :=
  d.healthy && (s.rxNow.map fun t => decide (d.from_ ≤ t) && decide (t ≤ d.to_)).getD true

/-- The first enabled system: its bit in SYSTEMS is its number. -/
def firstSystem (systems : Nat) : Nat := ((List.range 7).find? fun n => bitOf systems n).getD 7

def navStatusCmd : HostCmd :=
  { opcode := 0x0702, len := .fixed 0, priv := 0
    effect := fun _ s =>
      let n := s.nav
      let sys := firstSystem n.cfg.inForce.systems
      let excl := ((List.range 32).map fun i => if n.excluded.any fun e => e.sat == 64 * sys + i + 1 then 2 ^ i else 0).sum
      let eph := n.sets.countP fun d => (d.2.map (dataValid s)).getD false
      (s, .ok (u8 n.mode ++ u8 n.active ++ u8 n.svUsed ++ u8 eph ++ u32 n.overruns ++ u32 n.late ++ u32 excl ++ u16 n.states ++ rsv 14)) }

def execNavStatus (q : Qcp) (s : State) : Host.Outcome State Fault Refusal := runHost navStatusCmd q s

def navResetCmd : HostCmd :=
  { opcode := 0x0703, len := .fixed 4, priv := 1, range := fun q _ => [(0, q.u 0 1 ≤ 2)]
    effect := fun q s => (s.modNav fun v => { v with resetDue := some (q.u 0 1) }, .ok []) }

def execNavReset (q : Qcp) (s : State) : Host.Outcome State Fault Refusal := runHost navResetCmd q s

def armOf (q : Qcp) : List Int := (List.range 3).map fun i => q.i (4 + 4 * i) 4

def antCfgCmd : HostCmd :=
  { opcode := 0x0710, len := .fixed 20, priv := 1
    range := fun q _ =>
      let p (o : Nat) : Int × Bool := ((o : Int), (q.i o 4).natAbs ≤ 50000)
      [(0, q.u 0 1 ≤ 7), (1, q.u 1 1 ≤ 1), p 4, p 8, p 12, (16, (q.i 16 2).natAbs ≤ 500)]
    effect := fun q s =>
      let a : AntCfg := { primary := q.u 1 1 == 1, arm := armOf q, pco := q.i 16 2 }
      (s.modNav fun v => { v with ants := v.ants.commit (modAt v.ants.committed (q.u 0 1) fun _ => a) }, .ok []) }

def execAntCfg (q : Qcp) (s : State) : Host.Outcome State Fault Refusal := runHost antCfgCmd q s

/-- Squared length in mm² between the lever arms of two antennas. -/
def baselineSq (ants : List AntCfg) (a b : Nat) : Nat := distSq ((ants[a]?).getD AntCfg.reset).arm ((ants[b]?).getD AntCfg.reset).arm

def pairsOf (q : Qcp) : List PairCfg := (List.range (q.u 0 1)).map fun i =>
  let o := 4 + 4 * i
  { a := q.u o 1, b := q.u (o + 1) 1, heading := bitOf (q.u (o + 2) 1) 0 }

def pairCfgCmd : HostCmd :=
  { opcode := 0x0711, len := ⟨4, 36, fun p => some (4 + 4 * clampN 0 8 (fieldU p 0 1))⟩, priv := 1
    range := fun q s =>
      ([(0, decide (q.u 0 1 ≤ 8))] : List (Int × Bool)) ++ ((pairsOf q).zipIdx.map fun (x : PairCfg × Nat) =>
        let o : Int := ((4 + 4 * x.2 : Nat) : Int)
        let l := baselineSq s.nav.ants.committed x.1.a x.1.b
        let firstHeading := !((pairsOf q).take x.2).any (·.heading)
        ([ (o, decide (x.1.a ≤ 7)), (o + 1, decide (x.1.b ≤ 7) && x.1.b != x.1.a), (o, decide (200 ^ 2 ≤ l) && decide (l ≤ 10000 ^ 2)),
           (o + 2, decide (q.u (4 + 4 * x.2 + 2) 1 ≤ 1) && (!x.1.heading || firstHeading)) ] : List (Int × Bool))).flatten
    effect := fun q s => (s.modNav fun v => { v with pairs := v.pairs.commit (pairsOf q) }, .ok []) }

def execPairCfg (q : Qcp) (s : State) : Host.Outcome State Fault Refusal := runHost pairCfgCmd q s

def i16s (q : Qcp) (o : Nat) : List Int := (List.range 3).map fun i => q.i (o + 2 * i) 2

def fusionCfgOf (q : Qcp) : FusionCfg :=
  { enable := q.u 0 1, imuRate := q.u 1 1, imuTick := q.u 2 2, imuLatency := q.u 4 2, imuRot := i16s q 6, imuArm := i16s q 12, wheelMask := q.u 18 1
    fuseWait := q.u 19 1, ticksPerRev := q.u 20 2, wheelCirc := q.u 22 2, canLatency := q.u 24 2, hist := q.u 26 2, drPlMax := q.u 28 2 }

def fusionCfgCmd : HostCmd :=
  { opcode := 0x0720, len := .fixed 32, priv := 1
    range := fun q _ =>
      let c := fusionCfgOf q
      ([ (0, c.enable ≤ 7), (1, c.imuRate ≤ 4), (2, c.imuTick ≤ 25999), (4, c.imuLatency ≤ 20000) ] : List (Int × Bool))
      ++ ((List.range 3).map fun i => (((6 + 2 * i : Nat) : Int), decide ((q.i (6 + 2 * i) 2).natAbs ≤ 18000)))
      ++ ((List.range 3).map fun i => (((12 + 2 * i : Nat) : Int), decide ((q.i (12 + 2 * i) 2).natAbs ≤ 32767)))
      ++ ([ (18, c.wheelMask ≤ 15), (19, 1 ≤ c.fuseWait && c.fuseWait ≤ 10), (20, 1 ≤ c.ticksPerRev && c.ticksPerRev ≤ 1000), (22, 500 ≤ c.wheelCirc && c.wheelCirc ≤ 4000),
        (24, c.canLatency ≤ 2000), (26, 50 ≤ c.hist && c.hist ≤ 500), (28, 1 ≤ c.drPlMax && c.drPlMax ≤ 600) ] : List (Int × Bool))
    state := fun q s =>
      let c := fusionCfgOf q
      let o := s.nav.fusion.committed
      [!bitOf o.enable 0 || (c.imuRate == o.imuRate && c.imuTick == o.imuTick)]
    effect := fun q s => (s.modNav fun v => { v with fusion := v.fusion.commit (fusionCfgOf q) }, .ok []) }

def execFusionCfg (q : Qcp) (s : State) : Host.Outcome State Fault Refusal := runHost fusionCfgCmd q s

def ephFrames (q : Qcp) : Except Nat (List (Nat × List Byte)) := splitFrames 0 (q.u 0 1) 4 (q.payload.drop 4)

def ephLoadCmd (info : List RtcmInfo) : HostCmd :=
  { opcode := 0x0730, len := ⟨10, 4080, fun _ => none⟩, priv := 1
    range := fun q _ =>
      ([(0, decide (1 ≤ q.u 0 1) && decide (q.u 0 1 ≤ 32))] : List (Int × Bool))
      ++ (match ephFrames q with
        | .error e => [((e : Int), false)]
        | .ok fs => fs.map fun f => ((f.1 : Int), frameCrcOk f.2 && rtcmKind (rtcmNumber f.2) == .eph))
    effect := fun _ s => ((info.flatMap (·.sets)).foldl (fun s d => putData true d s) s, .ok []) }

def execEphLoad (q : Qcp) (info : List RtcmInfo) (s : State) : Host.Outcome State Fault Refusal := runHost (ephLoadCmd info) q s

/-- An almanac block by system and number. -/
def putAlmanac (system number : Nat) (block : List Byte) (s : State) : State :=
  let key := 65536 * system + number
  if s.nav.almanac.contains (key, block) then s
  else s.modNav fun v => { v with almanac := (v.almanac.filter fun b => b.1 != key) ++ [(key, block)], saveDue := true }

/-- `pages`: for each block the number of its page, word or string; none where its check fails. -/
def almLoadCmd (pages : List (Option Nat)) : HostCmd :=
  { opcode := 0x0731, len := ⟨44, 4004, fun p => some (4 + 40 * clampN 1 100 (fieldU p 1 1))⟩, priv := 1
    range := fun q _ => [(0, q.u 0 1 ≤ 4), (1, 1 ≤ q.u 1 1 && q.u 1 1 ≤ 100)]
    effect := fun q s =>
      let got := ((pages.take (q.u 1 1)).zipIdx).filterMap fun (x : Option Nat × Nat) => x.1.map fun k => (k, fieldB q.payload (4 + 40 * x.2) 40)
      (got.foldl (fun s b => putAlmanac (q.u 0 1) b.1 b.2 s) s, .ok (u8 got.length ++ rsv 3)) }

def execAlmLoad (q : Qcp) (pages : List (Option Nat)) (s : State) : Host.Outcome State Fault Refusal := runHost (almLoadCmd pages) q s

/-- The 96 bytes of Table 8.12. -/
def NavRec.bytes (r : NavRec) : List Byte :=
  leBytes 8 r.dt.toNat ++ leBytes 4 r.epoch.toNat ++ u16 r.gen ++ u8 r.mode ++ u8 r.flags ++ u64 r.time ++ (r.pos.map i64).flatten ++ (r.vel.map i32).flatten
  ++ (r.posSig.map u16).flatten ++ u16 r.velSig ++ u16 r.hpl ++ u16 r.vpl ++ i32 r.clkBias ++ i32 r.clkDrift ++ u16 r.heading ++ i16 r.pitch ++ u16 r.headSig
  ++ u8 r.svUsed ++ u8 r.svTracked ++ u8 r.integrity ++ u8 r.datum ++ u16 r.corrAge ++ u16 r.pdop ++ u8 r.tscale ++ rsv 1

def pvtReadCmd : HostCmd :=
  { opcode := 0x0740, len := .fixed 4, priv := 0, range := fun q _ => [(0, q.u 0 1 ≤ 1)], state := fun q s => [(s.nav.record (q.u 0 1)).isSome]
    effect := fun q s => match s.nav.record (q.u 0 1) with
      | some r => (s, .ok r.bytes)
      | none => (s, .state) }

def execPvtRead (q : Qcp) (s : State) : Host.Outcome State Fault Refusal := runHost pvtReadCmd q s

/-- The 40 bytes of Table 8.5. -/
def MeasRec.bytes (m : MeasRec) : List Byte :=
  u16 m.channel ++ u8 m.signal ++ u8 m.sat ++ u8 m.subband ++ u8 m.antenna ++ u16 m.quality ++ leBytes 8 m.pseudorange.toNat ++ leBytes 8 m.carrier.toNat
  ++ i32 m.doppler ++ u16 m.cn0 ++ u8 m.slips ++ u8 m.state ++ u32 m.lockTime ++ i16 m.mpCorr ++ u16 m.sigma

/-- PARTS of an epoch (R189). -/
def MeasEpoch.parts (m : MeasEpoch) : Nat := max 1 ((m.recs.length + 100) / 101)

/-- One part: the header of Table 8.4 and its records. -/
def MeasEpoch.part (m : MeasEpoch) (k : Nat) : List Byte :=
  u64 m.beat ++ leBytes 4 m.epoch.toNat ++ u16 m.gen ++ u16 m.recs.length ++ u8 k ++ u8 m.parts ++ u16 m.flags ++ u32 m.unc ++ u64 m.rxTime
  ++ (((m.recs.drop (101 * (k - 1))).take 101).map MeasRec.bytes).flatten

def measReadCmd : HostCmd :=
  { opcode := 0x0741, len := .fixed 4, priv := 0
    range := fun q s => [(0, 1 ≤ q.u 0 1 && q.u 0 1 ≤ 21 && (s.nav.meas.map fun m => decide (q.u 0 1 ≤ m.parts)).getD true)]
    state := fun _ s => [s.nav.meas.isSome]
    effect := fun q s => match s.nav.meas with
      | some m => (s, .ok (m.part (q.u 0 1)))
      | none => (s, .state) }

def execMeasRead (q : Qcp) (s : State) : Host.Outcome State Fault Refusal := runHost measReadCmd q s

/-! ### Decoded messages (R186, R187) -/

/-- The polarity of a passing frame-synchronisation word (R186). -/
def frameWord (n : Nat) (inverted : Bool) (s : State) : State :=
  let t := s.track n
  let c := s.navChan n
  match c.polarity with
  | none =>
    if t.halfAmbig then
      (s.setTrack n { t with halfAmbig := false }).setNavChan n { c with polarity := some inverted, half := if inverted then c.half + 1 / 2 else c.half }
    else s
  | some p =>
    if p = inverted then s
    else
      let s := (s.setTrack n { t with slipCount := (t.slipCount + 1) % 256 }).setNavChan n { c with polarity := some inverted, half := c.half + 1 / 2, halfSlip := true }
      s.navEvent 7 ((s.chan n).act.sat) (some n)

def execNavMessage (m : NavMsg) (s : State) : Host.Outcome State Fault Refusal :=
  .next (
    if !s.navRuns then s
    else match m with
      | .failed => s
      | .data d => putData false d s
      | .almanac sys k b => putAlmanac sys k b s
      | .utc leap delta to_ => s.setUtc leap delta to_
      | .offset i delta => if i < 4 then s.setDelta i delta else s
      | .frameWord n inv => if (s.chan n).idle then s else frameWord n inv s
      | .osnma f => osnmaSubframe f s
      | .has id size page data dec => hasPage id size page data dec s
      | .sbas sat type time sets cs => sbasMessage sat type time sets cs s)

/-! ### Fusion inputs (R202, R203) -/

def State.modImu (s : State) (f : ImuState → ImuState) : State := s.modNav fun v => { v with imu := f v.imu }

/-- HIST back from now, unwrapped DT. -/
def histStart (s : State) : Nat := s.now - s.nav.fusion.inForce.hist * msUnits

/-- Take a fusion input (R203 FUTURE, R204): one that is too old is discarded and counted. -/
def putInput (i : FuseInput) (s : State) : State :=
  if s.now < i.at_ then s
  else if i.at_ < histStart s then s.modNav fun v => { v with late := sat32 (v.late + 1) }
  else s.modNav fun v => { v with inputs := (v.inputs.filter fun x => decide (histStart s ≤ x.at_)) ++ [i] }

/-- Any axis at its full-scale code. -/
def imuSat (v : List Int) : Bool := v.any fun x => x == 32767 || x == -32768

/-- Identical samples in a row per axis, and STUCK (Table 8.11). DEDUCED (log 37). -/
def imuStuck (m : ImuState) (v : List Int) : ImuState :=
  let same := (List.zip m.same (List.zip m.prev v)).map fun x => if x.2.1 = x.2.2 then x.1 + 1 else 1
  let hit := same.any fun n => decide (50 ≤ n)
  let varying := if hit then 0 else m.varying + 1
  { m with same := same, prev := v, varying := varying, stuck := hit || (m.stuck && decide (varying < 50)) }

/-- One decoded IMU sample at its timestamp. -/
def imuSample (v : List Int) (at_ : Nat) (s : State) : State :=
  let m := imuStuck s.nav.imu v
  let s := s.modImu fun _ => m
  if imuSat v || m.stuck then s
  else
    let back := if m.lost then m.back + 1 else 0
    let s := s.modImu fun m => { m with lastValid := s.now, back := back, lost := m.lost && decide (back < 10) }
    let s := if m.lost ∧ 10 ≤ back then s.navEvent 6 0 none else s
    if s.nav.imu.lost then s else putInput { kind := 0, unit := 0, at_ := at_, value := v } s

/-- The reads of IMU_RATE in a beat: 1,000 divided by the rate, in beats. -/
def imuPeriod (code : Nat) : Nat := ([10, 5, 4, 2, 1][code]?).getD 10

/-- Three i16 values of a response. -/
def imuAxes (big : Bool) (p : List Byte) (off : Nat) : List Int :=
  (List.range 3).map fun i => let b := fieldB p (off + 2 * i) 2; toSigned 2 (leNat (if big then b.reverse else b))

/-- The scheduled read of MS1 (R202, R440): `miso` holds the READ_LEN response bytes. -/
def execImuRead (miso : List Byte) (sameTick : Bool) (s : State) : Host.Outcome State Fault Refusal :=
  .next (
    let f := s.nav.fusion.inForce
    match s.periph.imuCfg with
    | none => s
    | some c =>
      if !s.live || !s.on 14 || !bitOf f.enable 0 || s.time.tick != f.imuTick || s.time.beat % imuPeriod f.imuRate != 0 then s
      else
        let _ := sameTick
        let v := imuAxes (c.endian == 1) miso c.gyroOff ++ imuAxes (c.endian == 1) miso c.accOff
        let at_ := s.now - f.imuLatency * 64000
        imuSample v at_ { s with periph := { s.periph with imuSample := some (v, at_) } })

/-- No valid sample for 20 ms (Table 8.11). -/
def execImuLost (s : State) : Host.Outcome State Fault Refusal :=
  .next (
    if s.live && bitOf s.nav.fusion.inForce.enable 0 && !s.nav.imu.lost && s.passedMs s.nav.imu.lastValid 20 then
      (s.modImu fun m => { m with lost := true, back := 0 }).navEvent 5 0 none
    else s)

/-- No speed frame for 100 ms (Table 8.11). -/
def execCanStale (s : State) : Host.Outcome State Fault Refusal :=
  .next (
    if s.nav.canUsed && (s.nav.canAt.map fun t => s.passedMs t 100).getD false then s.modNav fun v => { v with canUsed := false } else s)

/-- A CAN speed frame (Tables 8.10, 8.11). DEDUCED (log 37). -/
def canSpeed (entry : Nat) (value : Int) (s : State) : State :=
  if !bitOf s.nav.fusion.inForce.enable 2 then s
  else
  let s := s.modNav fun v => { v with canAt := some s.now, canUsed := true }
  putInput { kind := 2, unit := entry, at_ := s.now - s.nav.fusion.inForce.canLatency * 6400000, value := [value] } s

/-- A wheel tick (Table 8.10). -/
def wheelInput (n at_ : Nat) (dir : Int) (s : State) : State :=
  if bitOf s.nav.fusion.inForce.enable 1 && bitOf s.nav.fusion.inForce.wheelMask n then putInput { kind := 1, unit := n, at_ := at_, value := [dir] } s else s

end Sys2Proof.Machine
end

