-- ==== Sys2Proof/Machine/Periph.lean ====
section
/-! DEFINITION. UARTs and card mode (R430–R438), SPI and I2C controllers (R439–R441), CAN FD (R442–R444), wheel ticks and pins (R445–R448). -/

namespace Sys2Proof.Machine
open Sys2Proof

def State.modPeriph (s : State) (f : Periph → Periph) : State := { s with periph := f s.periph }
def State.uart (s : State) (n : Nat) : Uart := (s.periph.uarts[n]?).getD Uart.reset
def State.modUart (s : State) (n : Nat) (f : Uart → Uart) : State := s.modPeriph fun p => { p with uarts := modAt p.uarts n f }
def Uart.modCard (u : Uart) (f : UartCard → UartCard) : Uart := { u with card := f u.card }
/-- The Char-coded card fields in force, and their change by the device itself. -/
def Uart.ch (u : Uart) : CardChar := u.card.ch.inForce
def UartCard.setCh (k : UartCard) (f : CardChar → CardChar) : UartCard := { k with ch := ⟨f k.ch.committed, f k.ch.inForce⟩ }
/-- A start bit: the Char-coded settings of reception come into force (R435). DESIGN CHOICE (log 69). -/
def Uart.latchRx (u : Uart) : Uart := { u with rx := u.rx.latch, card := { u.card with ch := if u.shift.isNone then u.card.ch.latch else u.card.ch } }

/-- The blocks of PD14 run. DEDUCED (log 12). -/
def State.periphOn (s : State) : Bool := s.live && s.on 14

/-- PERIPH_CHECK (R447). -/
def State.periphCheck (s : State) (block check value : Nat) : State :=
  s.notify 0x8D01 (s.beatBytes ++ u8 block ++ u8 check ++ rsv 2 ++ u32 value)

/-! ### UART registers (R432, Tables 19.2–19.4) -/

/-- UA_STATUS: the W1C bits and the bits that show the registers. -/
def Uart.statusWord (u : Uart) : BitVec 32 :=
  u.status ||| (if u.shift.isNone && u.hold.isNone then 8#32 else 0#32) ||| (if u.shift.isSome then 4#32 else 0#32)
  ||| (if u.hold.isNone then 2#32 else 0#32) ||| (if u.rxHold.isSome then 1#32 else 0#32)

/-- UC interrupt line 6 + n (R432). -/
def Uart.line (u : Uart) : Bool := u.statusWord &&& u.ie != 0

/-- The receive and transmit request lines of DMA (R436). -/
def Uart.rxRequest (u : Uart) : Bool := u.rxHold.isSome
def Uart.txRequest (u : Uart) : Bool := u.hold.isNone && u.txen

/-- An idle shifter takes the holding register, under the settings committed last (R435). -/
def Uart.load (u : Uart) : Uart :=
  match u.shift, u.hold with
  | none, some c => { u with shift := some c, hold := none, tx := if u.afterReply then u.tx else u.tx.latch, card := { u.card with ch := u.card.ch.latch } }
  | _, _ => u

/-- UC may reach the registers of a UART (R430, R432). -/
def State.ucUart (s : State) (n : Nat) : Bool := s.periphOn && decide (n ≤ 5) && (s.uart n).owner == 1

/-- UA_TX (Table 19.2): a full holding register drops the character. -/
def Uart.putTx (u : Uart) (c : Byte) : Uart :=
  if u.hold.isSome then { u with status := u.status ||| 0x1000#32 }
  else
    let u := { u with hold := some c }
    if u.txen then u.load else u

def uartTxWrite (n : Nat) (value : Word) (s : State) : State :=
  if s.ucUart n then s.modUart n fun u => u.putTx (value.setWidth 8) else s

def execUaTxWrite (uart : Nat) (value : Word) (s : State) : Host.Outcome State Fault Refusal := .next (uartTxWrite uart value s)

/-- UA_RX as read (Table 19.2). -/
def Uart.rxWord (u : Uart) : Word :=
  match u.rxHold with
  | none => 0
  | some c => BitVec.ofNat 32 (0x800 + (if c.brk then 0x400 else 0) + (if c.ferr then 0x200 else 0) + (if c.perr then 0x100 else 0) + c.data.toNat)

/-- Reading UA_RX with VALID empties the holding register. -/
def uartRxRead (n : Nat) (s : State) : State := if s.ucUart n then s.modUart n fun u => { u with rxHold := none } else s

def execUaRxRead (uart : Nat) (s : State) : Host.Outcome State Fault Refusal := .next (uartRxRead uart s)

/-! ### Reception (R433, R437, R447, R508) -/

/-- Bits 7 to 0 in the other order. -/
def revByte (b : Byte) : Byte := BitVec.ofNat 8 (boolBits ((List.range 8).map fun i => b.getLsbD (7 - i)))

def oddOnes (b : Byte) : Bool := ((List.range 8).countP fun i => b.getLsbD i) % 2 == 1

/-- The character of a line under UA_CTRL[7:2]: [0] DATA7, [1] STOP2, [3:2] PARITY, [4] MSB_FIRST, [5] INV_LEVEL. -/
def framedChar (frame : Nat) (l : RxLine) : UartChar :=
  let inv := bitOf frame 5
  let bits : Byte := if inv then ~~~l.data else l.data
  let par := l.parity != inv
  let stop := l.stop != inv
  let seven := bitOf frame 0
  let bits := if seven then bits &&& 0x7F#8 else bits
  let data := if bitOf frame 4 then (if seven then revByte bits >>> 1 else revByte bits) else bits
  let mode := bitsOf frame 3 2
  let checks := mode == 1 || mode == 2
  { data := data, ferr := !stop, perr := checks && (oddOnes bits != par) == (mode == 1)
    brk := bits == 0#8 && (!checks || !par) && !stop }

/-- The character of a line in card mode (R437): convention `inverse`, even parity. -/
def cardChar (inverse : Bool) (l : RxLine) : UartChar :=
  let data := if inverse then revByte (~~~l.data) else l.data
  { data := data, ferr := !l.stop, perr := oddOnes data != (l.parity != inverse), brk := l.data == 0#8 && !l.parity && !l.stop }

/-- Count and notify one check of a UART, at most once per second for each (R447). -/
def uartCheck (n check : Nat) (s : State) : State :=
  let (since, count) := ((s.uart n).checks[check - 1]?).getD (none, 0)
  if since = some s.second then s.modUart n fun u => { u with checks := modAt u.checks (check - 1) fun _ => (since, count + 1) }
  else (s.modUart n fun u => { u with checks := modAt u.checks (check - 1) fun _ => (some s.second, 0) }).periphCheck n check (count + 1)

/-- Set the status bits of a character's errors, and count FERR, PERR and RXOVR (R447). -/
def uartErrors (n : Nat) (c : UartChar) (over_ : Bool) (s : State) : State :=
  let bits : BitVec 32 := (if over_ then 0x800#32 else 0#32) ||| (if c.perr then 0x400#32 else 0#32) ||| (if c.ferr then 0x200#32 else 0#32) ||| (if c.brk then 0x100#32 else 0#32)
  let k := [c.ferr, c.perr, over_].countP id
  let s := s.modUart n fun u => { u with status := u.status ||| bits, errors := min 65535 (u.errors + k) }
  [(1, c.ferr), (2, c.perr), (3, over_), (4, c.brk)].foldl (fun s (x : Nat × Bool) => if x.2 then uartCheck n x.1 s else s) s

/-- Deliver a character to UA_RX; one that completes while UA_RX holds one is dropped. -/
def deliver (n : Nat) (c : UartChar) (s : State) : State :=
  if (s.uart n).rxHold.isSome then uartErrors n { c with ferr := false, perr := false, brk := false } true s
  else (uartErrors n c false s).modUart n fun u => { u with rxHold := some c }

/-- A character in card mode: AUTOCONV on TS, and the repetitions of T=0 (R437). -/
def cardReceive (n : Nat) (l : RxLine) (s : State) : State :=
  let k := (s.uart n).card
  let h := (s.uart n).ch
  if k.awaitTs && h.autoconv then
    let c := cardChar false l
    let s := s.modUart n fun u => u.modCard fun k => { k with awaitTs := false }.setCh fun h => { h with conv := if c.data = 0x3B then false else if c.data = 0x03 then true else h.conv }
    if c.data = 0x3B then deliver n c s
    else if c.data = 0x03 then deliver n { c with data := 0x3F, perr := false } s
    else deliver n { c with ferr := true } s
  else
    let c := cardChar h.conv l
    let s := s.modUart n fun u => u.modCard fun k => { k with awaitTs := false }
    if c.perr && !h.t1 && decide (k.rxReps < min 4 h.repeats) then s.modUart n fun u => u.modCard fun k => { k with rxReps := k.rxReps + 1 }
    else deliver n c (s.modUart n fun u => u.modCard fun k => { k with rxReps := 0 })

/-- One received character of a UART. DESIGN CHOICE (log 69). -/
def uartReceive (n : Nat) (l : RxLine) (s : State) : State :=
  let s := if l.held || (s.uart n).afterReply then s else s.modUart n Uart.latchRx
  let u := s.uart n
  let s :=
    if u.owner = 0 then
      if s.transportUp (n + 2) then
        let c := framedChar u.rx.inForce.frame l
        { uartErrors n c false s with transports := modAt s.transports (n + 2) fun t => { t with rx := delimit t.rx c.data } }
      else s
    else if u.owner = 1 then
      if !u.rxen then s
      else if u.ch.card then cardReceive n l s
      else deliver n (framedChar u.rx.inForce.frame l) s
    else uartErrors n (cardChar u.ch.conv l) false s
  if (s.uart n).afterReply then s else s.modUart n Uart.latchRx

def execUartRxChar (uart : Nat) (line : RxLine) (s : State) : Host.Outcome State Fault Refusal :=
  .next (if s.periphOn ∧ uart ≤ 5 then uartReceive uart line s else s)

/-! ### Transmission (R435) -/

/-- The reply of a UART_CFG. -/
def isCfgReply (x : OutItem) : Bool :=
  match x.body with
  | .frame f => decide (f.kind = .reply ∧ f.opc = 0x0D01)
  | .nak _ _ => false

/-- The next byte of a transport's output queue. -/
def Transport.nextByte (t : Transport) : Option (Byte × Transport) :=
  match t.out with
  | [] => none
  | x :: xs =>
    match x.body.bytes[t.sent]? with
    | none => none
    | some b => some (b, if t.sent + 1 < x.body.size then { t with sent := t.sent + 1 } else { t with out := xs, sent := 0 })

/-- A UART that is a transport takes characters of its queue; while a UART_CFG waits for the end of its own reply, nothing follows that reply until its last stop bit (R435). DESIGN CHOICE (log 69). -/
def feedUart (n : Nat) (s : State) : State :=
  let t := n + 2
  let u := s.uart n
  if u.owner != 0 || !s.transportUp t then s
  else
    let waits := u.afterReply && !(s.transport t).out.any isCfgReply
    let s :=
      if waits && u.shift.isNone && u.hold.isNone then s.modUart n fun u => { u with afterReply := false, tx := u.tx.latch, rx := u.rx.latch } else s
    let u := s.uart n
    if u.hold.isSome || (waits && u.afterReply) then s.modUart n Uart.load
    else match (s.transport t).nextByte with
      | none => s.modUart n Uart.load
      | some (b, t') => ({ s with transports := modAt s.transports t fun _ => t' }).modUart n fun u => ({ u with hold := some b }).load

/-- DESIGN CHOICE (log 69). -/
def feedUarts (s : State) : State := if s.periphOn then (List.range 6).foldl (fun s n => feedUart n s) s else s

/-- The shifter completes a character: under T=0 a line held low at 11 ETU repeats it, up to REPEAT times (R437). DESIGN CHOICE (log 69). -/
def charSent (n : Nat) (low : Bool) (s : State) : State :=
  let u := s.uart n
  let h := u.ch
  if u.shift.isNone then s
  else if h.card && !h.t1 && low && decide (u.card.txReps < min 4 h.repeats) then s.modUart n fun u => u.modCard fun k => { k with txReps := k.txReps + 1 }
  else
    let fails := h.card && !h.t1 && low && decide (0 < min 4 h.repeats)
    let s := s.modUart n fun u =>
      let u := { u with shift := none, status := u.status ||| (if fails then 0x20000#32 else 0#32) }.modCard fun k => { k with txReps := 0 }
      if u.owner == 0 || u.txen then u.load else u
    feedUart n s

def execUartCharSent (uart : Nat) (low : Bool) (s : State) : Host.Outcome State Fault Refusal :=
  .next (if s.periphOn ∧ uart ≤ 5 then charSent uart low s else s)

/-! ### UART_CFG and PERIPH_STATUS (R431, R447, R448) -/

def uartCfg (q : Qcp) (s : State) : State × Reply :=
  let n := q.u 0 1
  let f : UartFraming := ⟨q.u 2 1, q.u 4 4⟩
  let own := q.transport == n + 2
  let s := s.modUart n fun u =>
    let u := { u with owner := q.u 1 1, tx := u.tx.commit f, rx := u.rx.commit f }
    if own then { u with afterReply := true } else if u.shift.isNone then { u with tx := u.tx.latch } else u
  (if q.u 1 1 = 0 then { s with nv := { s.nv with uarts := modAt s.nv.uarts n fun _ => (f.frame, f.div) } } else s, .ok [])

/-- DEDUCED (log 71). -/
def uartCfgCmd : HostCmd :=
  { opcode := 0x0D01, len := .fixed 12, priv := 1
    range := fun q _ =>
      [ (0, q.u 0 1 ≤ 5), (1, q.u 1 1 ≤ 2 && (q.u 1 1 != 2 || 4 ≤ q.u 0 1)), (2, q.u 2 1 ≤ 63 && (q.u 1 1 != 0 || q.u 2 1 == 0)),
        (4, 130 ≤ q.u 4 4 && q.u 4 4 ≤ 1048575) ]
    state := fun q s =>
      let u := s.uart (q.u 0 1)
      [ q.u 1 1 == 0 || !(s.transport (q.u 0 1 + 2)).enable, q.u 1 1 == u.owner || (!u.card.active && u.card.apdu.isNone) ]
    effect := uartCfg }

def execUartCfg (q : Qcp) (s : State) : Host.Outcome State Fault Refusal := runHost uartCfgCmd q s

def CanPort.bytes (c : CanPort) : List Byte := u8 c.state ++ u8 (min 255 c.tec) ++ u8 c.recv ++ rsv 1 ++ u32 c.rxOk ++ u32 c.err

def periphStatusCmd : HostCmd :=
  { opcode := 0x0D02, len := .fixed 0, priv := 0
    effect := fun _ s =>
      let p := s.periph
      (s, .ok ((p.uarts.map fun u => u16 u.errors).flatten ++ (p.cans.map CanPort.bytes).flatten ++ (p.wheels.map fun w => u32 w.count).flatten
        ++ u32 p.wtFast ++ u32 p.i2cNack ++ u32 p.imuTimeout)) }

def execPeriphStatus (q : Qcp) (s : State) : Host.Outcome State Fault Refusal := runHost periphStatusCmd q s

/-! ### The card protocol (R438, R448) -/

def cardCfg (q : Qcp) (s : State) : State × Reply :=
  (s.modUart (q.u 0 1) fun u => u.modCard fun k =>
    { k with enable := q.u 1 1 == 1, clkdiv := q.u 2 2, protocol := q.u 4 1, cfgConv := q.u 5 1, pps := q.u 6 1 == 1 }.setCh fun h => { h with guard := q.u 7 1 }, .ok [])

def cardUart (q : Qcp) : Int × Bool := (0, 4 ≤ q.u 0 1 && q.u 0 1 ≤ 5)

def cardCfgCmd : HostCmd :=
  { opcode := 0x0D10, len := .fixed 12, priv := 1
    range := fun q _ =>
      [ cardUart q, (1, q.u 1 1 ≤ 1), (2, 20 ≤ q.u 2 2 && q.u 2 2 ≤ 390), (4, q.u 4 1 ≤ 1 || q.u 4 1 == 0xFF), (5, q.u 5 1 ≤ 2), (6, q.u 6 1 ≤ 1) ]
    state := fun q s => [(s.uart (q.u 0 1)).owner == 2]
    effect := cardCfg }

def execCardCfg (q : Qcp) (s : State) : Host.Outcome State Fault Refusal := runHost cardCfgCmd q s

/-- CARD_EVENT (R447); no rule gives its VALUE. -/
def State.cardEvent (s : State) (n kind : Nat) : State :=
  let (s, v) := s.openVal 90
  s.notify 0x8D10 (s.beatBytes ++ u8 n ++ u8 kind ++ rsv 2 ++ u32 (v % 2 ^ 32))

/-- Take one byte of an ATR when it is present. -/
def atrTake (here : Bool) (p : List Byte) : Option Nat × List Byte :=
  match here, p with
  | true, b :: t => (some b.toNat, t)
  | _, _ => (none, p)

/-- The interface bytes TA, TB, TC, TD of one group. -/
structure AtrGroup where
  ta : Option Nat
  tb : Option Nat
  tc : Option Nat
  td : Option Nat
  deriving DecidableEq, Repr

/-- The groups of interface bytes that follow T0 or a TD (ISO/IEC 7816-3). PRESUMED (log 70). -/
def atrGroups : Nat → Nat → List Byte → List AtrGroup
  | 0, _, _ => []
  | n + 1, y, p =>
    let (ta, p) := atrTake (bitOf y 4) p
    let (tb, p) := atrTake (bitOf y 5) p
    let (tc, p) := atrTake (bitOf y 6) p
    let (td, p) := atrTake (bitOf y 7) p
    { ta := ta, tb := tb, tc := tc, td := td } :: (match td with | some d => atrGroups n d p | none => [])

/-- F of TA1[7:4] and D of TA1[3:0] (ISO/IEC 7816-3). PRESUMED (log 70). -/
def cardF (c : Nat) : Nat := ([372, 372, 558, 744, 1116, 1488, 1860, 372, 372, 512, 768, 1024, 1536, 2048][c]?).getD 372
/-- PRESUMED (log 70). -/
def cardD (c : Nat) : Nat := ([1, 1, 2, 4, 8, 16, 32, 64, 12, 20][c]?).getD 1

/-- Exclusive or of bytes. -/
def atrXor (p : List Byte) : Byte := p.foldl (· ^^^ ·) 0

/-- What the device takes from an ATR (R438): convention, protocol, guard, ETU16, whether PPS was applied and TCK is valid. -/
structure AtrResult where
  inverse : Bool
  protocol : Nat
  guard : Option Nat
  etu : Nat
  pps : Bool
  tck : Bool
  deriving DecidableEq, Repr

/-- PRESUMED (log 70). -/
def parseAtr (k : UartCard) (a : CardAtr) : AtrResult :=
  let ts := (a.bytes[0]?).getD 0
  let inverse := if k.cfgConv = 0 then decide (ts = 0x03) || decide (ts = 0x3F) else k.cfgConv == 2
  let gs := atrGroups 8 ((a.bytes[1]?).getD 0).toNat (a.bytes.drop 2)
  let protos := gs.filterMap fun g => g.td.map (· % 16)
  let first := (protos.head?).getD 0
  let ta1 := ((gs[0]?).bind (·.ta)).getD 0x11
  let ta2 := (gs[1]?).bind (·.ta)
  let asksPps := k.pps && ta2.isNone
  let pps := asksPps && a.ppsOk
  let proto := match ta2 with
    | some t => t % 16
    | none => if pps && k.protocol != 0xFF then k.protocol else first
  let fd := pps || (ta2.map fun t => !bitOf t 4).getD false
  { inverse := inverse, protocol := proto, guard := (gs[0]?).bind (·.tc), pps := pps
    etu := if fd then 16 * cardF (ta1 / 16) / cardD (ta1 % 16) else 16 * 372
    tck := protos.any (· != 0) && atrXor (a.bytes.drop 1) == 0 }

/-- Deactivate the card: RST low, the clock stopped, I/O released (R438). -/
def deactivate (n : Nat) (s : State) : State :=
  (s.modUart n fun u => u.modCard fun k => { k with rst := false, clken := false, active := false }).cardEvent n 6

/-- PRESUMED (log 70). -/
def cardReset (atr : Option CardAtr) (q : Qcp) (s : State) : State × Reply :=
  let n := q.u 0 1
  if q.u 1 1 = 2 then (deactivate n s, .ok (rsv 4))
  else
    let s := s.modUart n fun u => u.modCard fun k => { k with rst := true, clken := true, active := false }.setCh fun h => { h with card := true }
    match atr with
    | none => (deactivate n s, ⟨stTimeout, []⟩)
    | some a =>
      let r := parseAtr (s.uart n).card a
      let s := s.modUart n fun u => u.modCard fun k =>
        { k with active := true, running := r.protocol }.setCh fun h =>
          { h with t1 := r.protocol == 1, conv := r.inverse, etu := r.etu, guard := (r.guard).getD h.guard }
      let s := s.cardEvent n 1
      let s := if r.pps then s.cardEvent n 2 else s
      let ts : Byte := if r.inverse then 0x3F else 0x3B
      (s, .ok (u8 (if r.inverse then 2 else 1) ++ u8 r.protocol ++ u8 a.bytes.length ++ u8 (boolBits [r.pps, r.tck]) ++ ts :: a.bytes.drop 1))

/-- DEDUCED (log 71). -/
def cardResetCmd (atr : Option CardAtr) : HostCmd :=
  { opcode := 0x0D11, len := .fixed 4, priv := 1, range := fun q _ => [cardUart q, (1, q.u 1 1 ≤ 2)]
    state := fun q s => let u := s.uart (q.u 0 1); [u.owner == 2, u.card.enable, u.card.apdu.isNone]
    effect := cardReset atr }

def execCardReset (q : Qcp) (atr : Option CardAtr) (s : State) : Host.Outcome State Fault Refusal := runHost (cardResetCmd atr) q s

/-- DEDUCED (log 71). -/
def cardApduCmd : HostCmd :=
  { opcode := 0x0D12, len := ⟨8, 265, fun p => some (4 + clampN 4 261 (fieldU p 2 2))⟩, priv := 1
    range := fun q _ => [cardUart q, (2, 4 ≤ q.u 2 2 && q.u 2 2 ≤ 261)]
    state := fun q s => let u := s.uart (q.u 0 1); [u.owner == 2, u.card.active, u.card.apdu.isNone]
    effect := fun q s => ((s.modUart (q.u 0 1) fun u => u.modCard fun k => { k with apdu := some (q.origin 0x0D12) }), ⟨stAccepted, []⟩) }

def execCardApdu (q : Qcp) (s : State) : Host.Outcome State Fault Refusal := runHost cardApduCmd q s

/-- The exchange of a CARD_APDU ends (R438). PRESUMED (log 70). -/
def cardApduEnd (n : Nat) (how : CardEnd) (s : State) : State :=
  match (s.uart n).card.apdu with
  | none => s
  | some o =>
    let s := s.modUart n fun u => u.modCard fun k => { k with apdu := none }
    match how with
    | .response bs => s.complete o stOk bs
    | .repeatFail => (s.cardEvent n 3).complete o stTimeout []
    | .waitTimeout => (s.cardEvent n 4).complete o stTimeout []
    | .resynch => (s.cardEvent n 5).complete o stTimeout []

def execCardApduComplete (uart : Nat) (how : CardEnd) (s : State) : Host.Outcome State Fault Refusal :=
  .next (if s.periphOn then cardApduEnd uart how s else s)

/-- WT ETU without a start bit (R437). -/
def execCardWaitTimeout (uart : Nat) (s : State) : Host.Outcome State Fault Refusal :=
  let u := s.uart uart
  .next (
    if s.periphOn && (uart == 4 || uart == 5) && u.ch.card && u.card.wt != 0 then s.modUart uart fun u => { u with status := u.status ||| 0x10000#32 }
    else s)

/-! ### IMU and I2C (R440, R441) -/

def imuCfgOf (q : Qcp) : ImuCfg :=
  { spiMode := q.u 0 1, clkMhz := q.u 1 1, readCmd := q.u 2 1, readLen := q.u 3 1, gyroOff := q.u 4 1, accOff := q.u 5 1, endian := q.u 6 1
    gyroLsb := q.u 8 4, accLsb := q.u 12 4 }

def imuCfgCmd : HostCmd :=
  { opcode := 0x0D20, len := .fixed 16, priv := 1
    range := fun q _ =>
      [ (0, q.u 0 1 ≤ 3), (1, 1 ≤ q.u 1 1 && q.u 1 1 ≤ 20), (3, 12 ≤ q.u 3 1 && q.u 3 1 ≤ 32), (4, q.u 4 1 + 6 ≤ q.u 3 1), (5, q.u 5 1 + 6 ≤ q.u 3 1),
        (6, q.u 6 1 ≤ 1), (8, 1 ≤ q.u 8 4 && q.u 8 4 ≤ 1000000), (12, 1 ≤ q.u 12 4 && q.u 12 4 ≤ 1000000) ]
    state := fun q s => [!bitOf s.nav.fusion.inForce.enable 0 || s.periph.imuCfg == some (imuCfgOf q)]
    effect := fun q s => (s.modPeriph fun p => { p with imuCfg := some (imuCfgOf q) }, .ok []) }

def execImuCfg (q : Qcp) (s : State) : Host.Outcome State Fault Refusal := runHost imuCfgCmd q s

/-- IMU_XFER: `miso` holds the bytes received, or none where it did not start within 10 ms. -/
def imuXferCmd (miso : Option (List Byte)) : HostCmd :=
  { opcode := 0x0D21, len := ⟨5, 68, fun p => some (4 + clampN 1 64 (fieldU p 0 2))⟩, priv := 1
    range := fun q _ => [(0, 1 ≤ q.u 0 2 && q.u 0 2 ≤ 64)]
    state := fun _ s => [s.periph.imuCfg.isSome]
    effect := fun q s => match miso with
      | some bs => (s, .ok ((bs ++ rsv 64).take (q.u 0 2)))
      | none => (s.modPeriph fun p => { p with imuTimeout := sat32 (p.imuTimeout + 1) }, ⟨stTimeout, []⟩) }

def execImuXfer (q : Qcp) (miso : Option (List Byte)) (s : State) : Host.Outcome State Fault Refusal := runHost (imuXferCmd miso) q s

def i2cXferCmd (how : I2cEnd) : HostCmd :=
  { opcode := 0x0D30, len := ⟨8, 264, fun p => some (8 + clampN 0 256 (fieldU p 2 2))⟩, priv := 1
    range := fun q _ =>
      [ (0, 0x08 ≤ q.u 0 1 && q.u 0 1 ≤ 0x77), (1, q.u 1 1 ≤ 2), (2, q.u 2 2 ≤ 256 && (q.u 2 2 != 0 || q.u 4 2 != 0)), (4, q.u 4 2 ≤ 256) ]
    effect := fun q s => match how with
      | .read bs => (s, .ok ((bs ++ rsv 256).take (q.u 4 2)))
      | .nack => ((s.modPeriph fun p => { p with i2cNack := sat32 (p.i2cNack + 1) }).periphCheck 24 8 1, ⟨stTimeout, []⟩)
      | .stretch => (s.periphCheck 24 9 1, ⟨stTimeout, []⟩)
      | .stuck => (s.periphCheck 24 10 1, ⟨stTimeout, []⟩) }

def execI2cXfer (q : Qcp) (how : I2cEnd) (s : State) : Host.Outcome State Fault Refusal := runHost (i2cXferCmd how) q s

/-! ### CAN FD (R442–R444) -/

def State.can (s : State) (n : Nat) : CanPort := (s.periph.cans[n]?).getD CanPort.reset
def State.modCan (s : State) (n : Nat) (f : CanPort → CanPort) : State := s.modPeriph fun p => { p with cans := modAt p.cans n f }

def canCfgOf (q : Qcp) : CanCfg :=
  { enable := q.u 1 1 == 1, mode := q.u 2 1, fd := q.u 3 1
    timing := [q.u 4 2, q.u 6 1, q.u 7 1, q.u 8 1, q.u 9 1, q.u 10 1, q.u 11 1, q.u 12 1, q.u 13 1]
    rxNotify := q.u 14 1 == 1, filterId := BitVec.ofNat 32 (q.u 16 4), filterMask := BitVec.ofNat 32 (q.u 20 4) }

def CanCfg.sameStop (a b : CanCfg) : Bool := a.mode == b.mode && a.fd == b.fd && a.timing == b.timing

/-- Peripheral clocks of one bit. -/
def canClocks (brp t1 t2 : Nat) : Nat := brp * (1 + t1 + t2)

/-- Bits 30 and 29 of an identifier field are reserved. -/
def idField (v : Nat) : Bool := v / 2 ^ 29 % 4 == 0

def canCfgCmd : HostCmd :=
  { opcode := 0x0D40, len := .fixed 24, priv := 1
    range := fun q _ =>
      let nom := canClocks (q.u 4 2) (q.u 6 1) (q.u 7 1)
      let dat := canClocks (q.u 9 1) (q.u 10 1) (q.u 11 1)
      [ (0, q.u 0 1 ≤ 1), (1, q.u 1 1 ≤ 1), (2, q.u 2 1 ≤ 1), (3, q.u 3 1 ≤ 1),
        (4, 1 ≤ q.u 4 2 && q.u 4 2 ≤ 512 && 125000 * nom ≤ 390000000 && 390000000 ≤ 1000000 * nom), (6, 1 ≤ q.u 6 1), (7, 1 ≤ q.u 7 1 && q.u 7 1 ≤ 128),
        (8, 1 ≤ q.u 8 1 && q.u 8 1 ≤ q.u 7 1), (9, 1 ≤ q.u 9 1 && q.u 9 1 ≤ 32 && 390000000 ≤ 5000000 * dat), (10, 1 ≤ q.u 10 1 && q.u 10 1 ≤ 32),
        (11, 1 ≤ q.u 11 1 && q.u 11 1 ≤ 16), (12, 1 ≤ q.u 12 1 && q.u 12 1 ≤ q.u 11 1), (13, q.u 13 1 ≤ 1), (14, q.u 14 1 ≤ 1), (16, idField (q.u 16 4)), (20, idField (q.u 20 4)) ]
    state := fun q s => let c := (s.can (q.u 0 1)).cfg; [!c.enable || c.sameStop (canCfgOf q)]
    effect := fun q s => (s.modCan (q.u 0 1) fun c => { c with cfg := canCfgOf q }, .ok []) }

def execCanCfg (q : Qcp) (s : State) : Host.Outcome State Fault Refusal := runHost canCfgCmd q s

def canEntryOf (p : List Byte) : CanEntry :=
  { id := BitVec.ofNat 32 (fieldU p 0 4), port := fieldU p 4 1, len := fieldU p 5 1, start := fieldU p 6 2, flags := fieldU p 8 1, kind := fieldU p 9 1
    scale := fieldI p 12 4, value := none }

def CanEntry.enabled (e : CanEntry) : Bool := e.id.getLsbD 30

/-- IDE and identifier of an entry. -/
def CanEntry.key (e : CanEntry) : BitVec 32 := e.id &&& 0x9FFFFFFF#32

def CanEntry.onPort (e : CanEntry) (n : Nat) : Bool := e.enabled && (e.port == n || e.port == 2)

/-- Acceptance filters of a port: entries with one identifier share a filter (R443). -/
def canFilters (m : List CanEntry) (n : Nat) : Nat := (((m.filter fun e => e.onPort n).map CanEntry.key).eraseDups).length

/-- The map after a CAN_MAP. -/
def canMapAfter (q : Qcp) (m : List CanEntry) : List CanEntry :=
  (List.range (q.u 1 1)).foldl (fun m i => modAt m (q.u 0 1 + i) fun _ => canEntryOf (fieldB q.payload (4 + 16 * i) 16)) m

/-- The range of an entry's fields (Table 19.10). -/
def canEntryRange (p : List Byte) (o : Int) : List (Int × Bool) :=
  let id := fieldU p 0 4
  [ (o, !bitOf id 29 && (bitOf id 31 || id % 2 ^ 29 < 2 ^ 11)), (o + 4, fieldU p 4 1 ≤ 2), (o + 5, 1 ≤ fieldU p 5 1 && fieldU p 5 1 ≤ 32),
    (o + 6, fieldU p 6 2 ≤ 511), (o + 8, fieldU p 8 1 ≤ 7), (o + 9, fieldU p 9 1 ≤ 1), (o + 12, fieldU p 9 1 == 1 || fieldU p 12 4 != 0) ]

def canMapCmd : HostCmd :=
  { opcode := 0x0D41, len := ⟨20, 1028, fun p => some (4 + 16 * clampN 1 64 (fieldU p 1 1))⟩, priv := 1
    range := fun q _ =>
      ([ (0, q.u 0 1 ≤ 63), (1, 1 ≤ q.u 1 1 && q.u 1 1 ≤ 64 && q.u 0 1 + q.u 1 1 ≤ 64) ] : List (Int × Bool))
      ++ ((List.range (q.u 1 1)).map fun i => canEntryRange (fieldB q.payload (4 + 16 * i) 16) (4 + 16 * i : Nat)).flatten
    late := fun q s =>
      let m := canMapAfter q s.periph.canMap
      if 32 < canFilters m 0 ∨ 32 < canFilters m 1 then some .noResource else none
    effect := fun q s => (s.modPeriph fun p => { p with canMap := canMapAfter q p.canMap }, .ok []) }

def execCanMap (q : Qcp) (s : State) : Host.Outcome State Fault Refusal := runHost canMapCmd q s

/-- The states of ISO 11898-1: error-passive above 127, bus-off above 255; an entry to either is reported (R442). -/
def canSettle (n : Nat) (s : State) : State :=
  let c := s.can n
  let st := if 255 < c.tec then 2 else if 127 < c.tec ∨ 127 < c.recv then 1 else 0
  let st := if c.state = 2 then 2 else st
  let s' := s.modCan n fun c => { c with state := st }
  if st = c.state ∨ st = 0 ∨ (st = 1 ∧ c.state = 2) then s' else s'.periphCheck (8 + n) (4 + st) 1

/-- Data lengths of CAN and CAN FD (R444). -/
def canLens : List Nat := [0, 1, 2, 3, 4, 5, 6, 7, 8, 12, 16, 20, 24, 32, 48, 64]

/-- PRESUMED (log 72). -/
def canTx (how : CanTxEnd) (q : Qcp) (s : State) : State × Reply :=
  let n := q.u 0 1
  let s := canSettle n (s.modCan n fun c =>
    { c with tec := c.tec + 8 * how.errors - (if how.acked then 1 else 0), err := sat32 (c.err + how.errors) })
  (s, if how.acked then .ok [] else ⟨stTimeout, []⟩)

def canTxCmd (how : CanTxEnd) : HostCmd :=
  { opcode := 0x0D42, len := ⟨16, 80, fun p => if canLens.contains (fieldU p 2 1) then some (16 + fieldU p 2 1) else none⟩, priv := 1
    range := fun q _ =>
      [ (0, q.u 0 1 ≤ 1), (1, q.u 1 1 ≤ 7), (2, canLens.contains (q.u 2 1) && (q.u 2 1 ≤ 8 || bitOf (q.u 1 1) 1)),
        (4, q.u 4 4 < 2 ^ 29 && (bitOf (q.u 1 1) 0 || q.u 4 4 < 2 ^ 11)), (8, 1 ≤ q.u 8 2 && q.u 8 2 ≤ 1000) ]
    state := fun q s => let c := s.can (q.u 0 1); [c.cfg.enable, c.cfg.mode == 0, c.state != 2]
    effect := canTx how }

def execCanTx (q : Qcp) (how : CanTxEnd) (s : State) : Host.Outcome State Fault Refusal := runHost (canTxCmd how) q s

/-- Bit numbers of a signal, most significant first: Motorola order goes down in a byte and on to bit 7 of the next (R443). PRESUMED (log 72). -/
def signalBits (motorola : Bool) (start len : Nat) : List Nat :=
  if motorola then (List.range len).map fun i =>
      let p := 8 * (start / 8) + (7 - start % 8) + i
      8 * (p / 8) + (7 - p % 8)
  else ((List.range len).map fun i => start + i).reverse

/-- The raw value of an entry in a data field; none where the field is shorter than the signal. PRESUMED (log 72). -/
def CanEntry.raw (e : CanEntry) (data : List Byte) : Option Nat :=
  let bits := signalBits (bitOf e.flags 0) e.start e.len
  if bits.all fun b => decide (b < 8 * data.length) then
    some (bits.foldl (fun v b => 2 * v + (if ((data[b / 8]?).getD 0).getLsbD (b % 8) then 1 else 0)) 0)
  else none

/-- The signed value of LEN bits. -/
def CanEntry.decode (e : CanEntry) (raw : Nat) : Int := if bitOf e.flags 1 && decide (2 ^ (e.len - 1) ≤ raw) then (raw : Int) - (2 ^ e.len : Nat) else raw

/-- The speed entry in use: the lowest enabled KIND 0 entry whose last frame is at most 100 ms old (R443). -/
def speedEntry (s : State) : Option (Nat × Int) :=
  (s.periph.canMap.zipIdx.findSome? fun (x : CanEntry × Nat) =>
    match x.1.enabled && x.1.kind == 0, x.1.value with
    | true, some (v, at_) => if s.now ≤ at_ + 100 * msUnits then some (x.2, v * x.1.scale) else none
    | _, _ => none)

/-- The latest value of a KIND 1 entry. -/
def reverseOn (s : State) : Bool :=
  match (s.periph.canMap.filterMap fun e => if e.enabled && e.kind == 1 then e.value else none).foldl
      (fun (m : Option (Int × Nat)) v => match m with | none => some v | some w => if w.2 < v.2 then some v else some w) none with
  | some (v, _) => decide (v ≠ 0)
  | none => false

/-- One entry takes its value of a frame. -/
def canSignal (f : CanFrame) (i : Nat) (s : State) : State :=
  let e := (s.periph.canMap[i]?).getD CanEntry.reset
  if !e.onPort f.port || e.key != BitVec.ofNat 32 (f.id + (if f.ide then 2 ^ 31 else 0)) then s
  else match e.raw f.data with
    | none => s.modPeriph fun p => { p with canShort := sat32 (p.canShort + 1) }
    | some r =>
      if bitOf e.flags 2 ∧ r + 1 = 2 ^ e.len then s
      else
        let s := s.modPeriph fun p => { p with canMap := modAt p.canMap i fun e => { e with value := some (e.decode r, s.now) } }
        match speedEntry s with
        | some (k, v) => if k = i then canSpeed i (if reverseOn s then -v else v) s else s
        | none => s

/-- CAN_RX (Table 19.11). -/
def canRxBytes (f : CanFrame) (same : Bool) (s : State) : List Byte :=
  u8 f.port ++ u8 (boolBits [f.ide, f.fd, f.brs, f.esi, same]) ++ u8 f.data.length ++ rsv 1 ++ u32 f.id ++ s.dtBytes ++ f.data

/-- The frame passes the host filter of its port. -/
def canPasses (c : CanCfg) (f : CanFrame) : Bool :=
  let id := BitVec.ofNat 32 (f.id + (if f.ide then 2 ^ 31 else 0))
  (id ^^^ c.filterId) &&& c.filterMask == 0

/-- The receive error counter after a valid frame; above 127 the standard sets a value between 119 and 127. PRESUMED (log 72). -/
def recvAfter (open_ n : Nat) : Nat := if 127 < n then 119 + open_ % 9 else n - 1

/-- PRESUMED (log 72). -/
def canReceive (f : CanFrame) (same : Bool) (s : State) : State :=
  let n := f.port
  let (s, v) := s.openVal 91
  let s := canSettle n (s.modCan n fun c => { c with recv := min 255 (c.recv + f.errors), err := sat32 (c.err + f.errors) })
  let s := canSettle n (s.modCan n fun c => { c with recv := recvAfter v c.recv, rxOk := sat32 (c.rxOk + 1) })
  let s := (List.range 64).foldl (fun s i => canSignal f i s) s
  let c := (s.can n).cfg
  if c.rxNotify && canPasses c f then s.notify 0x8D40 (canRxBytes f same s) else s

def execCanFrameRx (f : CanFrame) (sameTick : Bool) (s : State) : Host.Outcome State Fault Refusal :=
  .next (if s.periphOn ∧ f.port ≤ 1 ∧ (s.can f.port).cfg.enable ∧ (s.can f.port).state ≠ 2 then canReceive f sameTick s else s)

/-- A bus error that no frame row counts: 1, or 8 where ISO 11898-1 says so; a transmit error always counts 8 (R442). PRESUMED (log 72). -/
def execCanBusError (port : Nat) (transmit heavy : Bool) (s : State) : Host.Outcome State Fault Refusal :=
  .next (if s.periphOn ∧ port ≤ 1 ∧ (s.can port).cfg.enable ∧ (s.can port).state ≠ 2 then
      canSettle port (s.modCan port fun c =>
        if transmit then { c with tec := c.tec + 8, err := sat32 (c.err + 1) }
        else { c with recv := min 255 (c.recv + (if heavy then 8 else 1)), err := sat32 (c.err + 1) })
    else s)

/-- 128 occurrences of 11 recessive bits end bus-off (R442). -/
def execBusOffRecovery (port : Nat) (s : State) : Host.Outcome State Fault Refusal :=
  .next (if s.periphOn ∧ (s.can port).state = 2 then s.modCan port fun c => { c with state := 0, tec := 0, recv := 0 } else s)

/-! ### Wheel ticks (R445) -/

def wtCfgOf (q : Qcp) : WtCfg :=
  { enable := q.u 0 1, minWidth := q.u 2 2, mode := (List.range 4).map fun i => q.u (4 + i) 1, dir := (List.range 4).map fun i => q.u (8 + i) 1 }

def wtCfgCmd : HostCmd :=
  { opcode := 0x0D50, len := .fixed 12, priv := 1
    range := fun q _ =>
      ([ (0, q.u 0 1 ≤ 15), (2, 1 ≤ q.u 2 2 && q.u 2 2 ≤ 1000) ] : List (Int × Bool))
      ++ ((List.range 4).map fun i => (((4 + i : Nat) : Int), decide (q.u (4 + i) 1 ≤ 2)))
      ++ ((List.range 4).map fun i =>
        let d := q.u (8 + i) 1
        (((8 + i : Nat) : Int), d == 0xFF || (d ≤ 3 && q.u (4 + d) 1 == 2)))
    effect := fun q s => (s.modPeriph fun p => { p with wtCfg := wtCfgOf q }, .ok []) }

def execWtCfg (q : Qcp) (s : State) : Host.Outcome State Fault Refusal := runHost wtCfgCmd q s

def State.wheel (s : State) (n : Nat) : WheelIn := (s.periph.wheels[n]?).getD WheelIn.reset
def State.modWheel (s : State) (n : Nat) (f : WheelIn → WheelIn) : State := s.modPeriph fun p => { p with wheels := modAt p.wheels n f }

/-- 20 µs in units of DT. -/
def wheelGap : Nat := 1280000

/-- An edge follows the last counted one of its input too fast. DEDUCED (log 73). -/
def WheelIn.fast (w : WheelIn) (pin : Nat) : Bool :=
  match w.last with
  | some t => decide (pin < t + wheelGap)
  | none => false

/-- The direction that a tick carries: reverse where its direction input is high. -/
def wheelDir (s : State) (n : Nat) : Int :=
  let d := (s.periph.wtCfg.dir[n]?).getD 0xFF
  if d != 0xFF && (s.wheel d).level then -1 else 1

/-- An edge that the glitch filter accepted, with the fine timestamp of its transition. DEDUCED (log 73). -/
def wheelTick (n : Nat) (rising : Bool) (pin : Nat) (s : State) : State :=
  let w := s.wheel n
  let mode := (s.periph.wtCfg.mode[n]?).getD 0
  let s := s.modWheel n fun w => { w with level := rising }
  if mode = 2 ∨ (mode = 0 ∧ !rising) then s
  else if w.fast pin then
    let s := s.modPeriph fun p => { p with wtFast := sat32 (p.wtFast + 1) }
    if w.fastSecond = some s.second then s.modWheel n fun w => { w with fastSince := w.fastSince + 1 }
    else (s.modWheel n fun w => { w with fastSecond := some s.second, fastSince := 0 }).periphCheck (16 + n) 7 (w.fastSince + 1)
  else wheelInput n pin (wheelDir s n) (s.modWheel n fun w => { w with last := some pin, count := (w.count + 1) % 2 ^ 32 })

def execWheelTick (input : Nat) (rising : Bool) (pin : Nat) (s : State) : Host.Outcome State Fault Refusal :=
  .next (if s.periphOn ∧ input ≤ 3 ∧ bitOf s.periph.wtCfg.enable input then wheelTick input rising pin s else s)

/-! ### General-purpose pins (R446) -/

def State.gpio (s : State) (n : Nat) : GpioPin := (s.periph.gpio[n]?).getD GpioPin.reset
def State.modGpio (s : State) (n : Nat) (f : GpioPin → GpioPin) : State := s.modPeriph fun p => { p with gpio := modAt p.gpio n f }

def gpioCfgCmd : HostCmd :=
  { opcode := 0x0D60, len := .fixed 8, priv := 1
    range := fun q _ =>
      [ (0, q.u 0 1 ≤ 7), (1, q.u 1 1 ≤ 1), (2, q.u 2 1 ≤ 2), (3, q.u 3 1 ≤ 2), (4, q.u 4 1 ≤ 3), (5, q.u 5 1 ≤ 1), (6, 1 ≤ q.u 6 2 && q.u 6 2 ≤ 1000) ]
    effect := fun q s =>
      (s.modGpio (q.u 0 1) fun g =>
        { g with owner := q.u 1 1, dir := q.u 2 1, pull := q.u 3 1, edge := q.u 4 1, notify := q.u 5 1 == 1, minWidth := q.u 6 2 }, .ok []) }

def execGpioCfg (q : Qcp) (s : State) : Host.Outcome State Fault Refusal := runHost gpioCfgCmd q s

/-- One bit of each pin as a number. -/
def gpioBits (s : State) (f : GpioPin → Bool) : Nat := boolBits (s.periph.gpio.map f)

def gpioWriteCmd : HostCmd :=
  { opcode := 0x0D61, len := .fixed 4, priv := 1
    state := fun q s => [(List.range 8).all fun n => !bitOf (q.u 0 1) n || ((s.gpio n).owner == 0 && (s.gpio n).dir != 0)]
    effect := fun q s =>
      ((List.range 8).foldl (fun s n => if bitOf (q.u 0 1) n then s.modGpio n fun g => { g with out := bitOf (q.u 1 1) n } else s) s, .ok []) }

def execGpioWrite (q : Qcp) (s : State) : Host.Outcome State Fault Refusal := runHost gpioWriteCmd q s

def gpioReadCmd : HostCmd :=
  { opcode := 0x0D62, len := .fixed 0, priv := 0
    effect := fun _ s => (s, .ok (u8 (gpioBits s (·.level)) ++ u8 (gpioBits s (·.out)) ++ u8 (gpioBits s fun g => g.owner == 1) ++ rsv 1)) }

def execGpioRead (q : Qcp) (s : State) : Host.Outcome State Fault Refusal := runHost gpioReadCmd q s

/-- An edge that the filter of a pin accepted. DEDUCED (log 73). -/
def gpioEdge (n : Nat) (rising same : Bool) (s : State) : State :=
  let g := s.gpio n
  let s := s.modGpio n fun g => { g with level := rising }
  if !bitOf g.edge (if rising then 0 else 1) then s
  else
    let s := s.modGpio n fun g => { g with evt := true }
    if g.owner != 0 || !g.notify then s
    else (s.modGpio n fun g => { g with seq := (g.seq + 1) % 2 ^ 32 }).notifyF 0x8D60 same
      (s.dtBytes ++ u8 n ++ ub rising ++ u8 (if same then 1 else 0) ++ rsv 1 ++ u32 g.seq)

def execGpioEdge (pin : Nat) (rising sameTick : Bool) (s : State) : Host.Outcome State Fault Refusal :=
  .next (if s.periphOn ∧ pin ≤ 7 then gpioEdge pin rising sameTick s else s)

/-- Write the output bits of UC's pins that a mask names. -/
def gpioDrive (mask : Word) (f : Nat → Bool) (s : State) : State :=
  if s.periphOn then
    (List.range 8).foldl (fun s n => if mask.getLsbD n && (s.gpio n).owner == 1 then s.modGpio n fun g => { g with out := f n } else s) s
  else s

def execGpSet (value : Word) (s : State) : Host.Outcome State Fault Refusal := .next (gpioDrive value (fun _ => true) s)
def execGpClr (value : Word) (s : State) : Host.Outcome State Fault Refusal := .next (gpioDrive value (fun _ => false) s)

end Sys2Proof.Machine
end

