-- ==== Sys2Proof/Machine/Uc.lean ====
section
/-! DEFINITION. The customer core's blocks: lines, timers, event FIFO, session 15, start, stop, watchdog and swap (R392–R403). -/

namespace Sys2Proof.Machine
open Sys2Proof

/-! ### Interrupt lines (R394) -/

def ucChannels (s : State) : List Nat := (List.range 24).filter (ucChan s)

/-- The customer core's pending lines (Table 17.2). -/
def ucLines (s : State) : BitVec 16 :=
  let t0 := (s.uc.timers[0]?).getD UcTimer.reset
  let t1 := (s.uc.timers[1]?).getD UcTimer.reset
  let dma := (ucChannels s).any fun n => (s.dmaChan n).done || (s.dmaChan n).err
  let uarts := (List.range 6).map fun n => (s.uart n).owner == 1 && (s.uart n).line
  let pins := s.periph.gpio.any fun g => g.evt && g.ie
  let swap := (s.uc.swap.map fun w => w.handed.isNone).getD false
  BitVec.ofNat 16 (boolBits ([t0.pend, t1.pend, !s.uc.evc.isEmpty, !s.uc.rx.isEmpty, dma, s.cipher.evtDone] ++ uarts ++ [pins, t0.beatPend, false, swap]))

/-- The pending lines of a core: those of a vendor core are firmware-internal (R384). -/
def State.linesOf (s : State) (n : Nat) : BitVec 16 := if n = 7 then ucLines s else (s.core n).lines

/-- The lowest pending line that IMASK enables. -/
def State.dueLine (s : State) (n : Nat) : Option Nat := (List.range 16).find? fun i => (s.linesOf n &&& (s.core n).imask).getLsbD i

/-! ### Timers (R395) -/

def State.modTimer (s : State) (n : Nat) (f : UcTimer → UcTimer) : State := s.modUc fun u => { u with timers := modAt u.timers n f }

/-- COUNT reaches 0. -/
def UcTimer.expire (t : UcTimer) : UcTimer := if t.periodic then { t with count := t.load, pend := true } else { t with count := 0, pend := true, en := false }

/-- The tick in which a counting timer reaches 0. -/
def execUcTimerExpiry (timer : Nat) (s : State) : Host.Outcome State Fault Refusal :=
  .next (if s.live ∧ s.on 10 then s.modTimer timer fun t => if t.en && !t.armed && t.count ≤ 1 then t.expire else t else s)

/-- A write of UC_TMRn_CTRL (Table 17.4): EN going to 1 loads COUNT at once, or at the next beat boundary with BEAT = 1. -/
def timerCtrlWrite (n value : Nat) (s : State) : State :=
  s.modTimer n fun t =>
    let en := bitOf value 0
    let beat := bitOf value 2
    let starts := en && !t.en
    { t with beatPend := t.beatPend && !(n == 0 && bitOf value 4), pend := t.pend && !bitOf value 3, beat := beat, periodic := bitOf value 1, en := en
             armed := if starts then beat else t.armed && en, count := if starts && !beat then t.load else t.count }

def execUcTmrCtrlWrite (timer value : Nat) (s : State) : Host.Outcome State Fault Refusal :=
  .next (if s.live ∧ s.on 10 ∧ timer ≤ 1 then timerCtrlWrite timer value s else s)

def timerRead (n off : Nat) (s : State) : Nat :=
  let t := (s.uc.timers[n]?).getD UcTimer.reset
  match off with
  | 0 => boolBits [t.en, t.periodic, t.beat, t.pend, n == 0 && t.beatPend]
  | 4 => t.load
  | 8 => t.count
  | _ => 0

def timerWrite (n off value : Nat) (s : State) : State :=
  match off with
  | 0 => timerCtrlWrite n value s
  | 4 => s.modTimer n fun t => { t with load := max 1 value }
  | _ => s

/-! ### Event capture FIFO and session 15 (R396, R397) -/

/-- EVC_POP. -/
def evcPop (value : Nat) (s : State) : State := if bitOf value 0 then s.modUc fun u => { u with evc := u.evc.drop 1 } else s

def execEvcPop (value : Nat) (s : State) : Host.Outcome State Fault Refusal := .next (if s.live ∧ s.on 10 then evcPop value s else s)

/-- EVC_STATUS and EVC_DATA0–7 as read. -/
def evcRead (off : Nat) (s : State) : Nat :=
  if off = 0 then s.uc.evc.length + (if s.uc.evcOvf then 256 else 0)
  else if 0x20 ≤ off ∧ off < 0x40 then fieldU ((s.uc.evc.head?).getD []) (off - 0x20) 4
  else 0

/-- S15_TXDATA: four bytes into the transmit FIFO of 4 KiB. -/
def s15Write (value : Nat) (s : State) : State :=
  s.modUc fun u => if 4096 < u.tx.length + 4 then { u with txOvf := true } else { u with tx := u.tx ++ u32 value }

def execS15Txdata (value : Nat) (s : State) : Host.Outcome State Fault Refusal := .next (if s.live ∧ s.on 10 then s15Write value s else s)

/-- S15_RXDATA: the word at the head of the receive FIFO, 0 when it is empty. -/
def s15Word (s : State) : Nat := fieldU s.uc.rx 0 4
def s15Pop (s : State) : State := s.modUc fun u => { u with rx := u.rx.drop 4 }

def execS15Rxdata (s : State) : Host.Outcome State Fault Refusal := .next (if s.live ∧ s.on 10 then s15Pop s else s)

/-- S15_STATUS (Table 17.6). -/
def s15Status (s : State) : Nat := (4096 - s.uc.tx.length) / 4 + s.uc.rx.length * 65536 + (if s.uc.txOvf then 2 ^ 31 else 0)

/-- Bytes padded to whole words. -/
def padWords (p : List Byte) : List Byte := p ++ rsv ((4 - p.length % 4) % 4)

/-- The command core places the frames of transport 10 that fit whole into the receive FIFO (R397). -/
def fillS15 : Nat → State → State
  | 0, s => s
  | n + 1, s =>
    match (s.transport 10).out with
    | [] => s
    | x :: xs =>
      let p := padWords x.body.bytes
      if s.uc.rx.length + p.length ≤ 16384 then
        fillS15 n ({ s with transports := modAt s.transports 10 fun t => { t with out := xs, sent := 0 } }.modUc fun u => { u with rx := u.rx ++ p })
      else s

/-- The command core drains the transmit FIFO into the frame delimiter, and fills the receive FIFO (R397). -/
def serveS15 (s : State) : State :=
  if s.transportUp 10 then
    let s := if s.uc.tx.isEmpty then s else
      ({ s with transports := modAt s.transports 10 fun t => { t with rx := s.uc.tx.foldl delimit t.rx } }).modUc fun u => { u with tx := [] }
    fillS15 (s.transport 10).out.length s
  else s

/-! ### Starting and stopping (R367, R399–R401) -/

/-- A core at its start (R367). -/
def startCore (n : Nat) (entry g1 : Word) (s : State) : State :=
  let rsp : Word := ((s.rsWindow n).map fun w => BitVec.ofNat 32 w.2.limit).getD 0
  s.modCore n fun c => { Core.reset with mode := .running, pc := entry, rsp := rsp, lines := c.lines, g := (List.replicate 16 0).set 1 g1 }

/-- The stop actions of R399. -/
def stopActions (s : State) : State :=
  let s := s.modCore 7 fun c => { c with mode := .stopped, stall := none }
  let s := (ucChannels s).foldl (fun s n => stopDma n s) s
  let s := cancelUc s
  s.modUc fun u => { u with timers := u.timers.map fun t => { t with en := false, armed := false } }

/-- UC goes to STOPPED; a swap in progress ends. -/
def stopUc (s : State) : State := endSwap stState ((stopActions s).modUc fun u => { u with state := .stopped })

def State.wdogReload (s : State) : Nat := s.uc.wdog * 26000

def ucCfgCmd : HostCmd :=
  { opcode := 0x0E01, len := .fixed 32, priv := 2
    range := fun q _ => [(0, q.u 0 2 ≤ 10000), (2, q.u 2 2 ≤ 0x7F), (4, 1 ≤ q.u 4 1 && q.u 4 1 ≤ 64)]
    state := fun q s => [s.ucBanks ≤ q.u 4 1]
    effect := fun q s =>
      (s.modUc fun u =>
        { u with wdog := q.u 0 2, svcMask := BitVec.ofNat 16 (q.u 2 2), bankLimit := q.u 4 1
                 wdogLeft := if u.wdog = q.u 0 2 then u.wdogLeft else q.u 0 2 * 26000 }, .ok []) }

def execUcCfg (q : Qcp) (s : State) : Host.Outcome State Fault Refusal := runHost ucCfgCmd q s

def UcState.code : UcState → Nat
  | .stopped => 0
  | .running => 1
  | .frozen => 2
  | .suspending => 3

def ucStatusCmd : HostCmd :=
  { opcode := 0x0E02, len := .fixed 0, priv := 0
    effect := fun _ s =>
      let u := s.uc
      (s, .ok (u8 u.state.code ++ rsv 3 ++ u32 (s.core 7).pc.toNat ++ u32 u.entry.toNat ++ u8 s.ucBanks ++ u8 (ucChannels s).length ++ rsv 2
        ++ u32 u.svcCount ++ u32 ((u.wdogLeft + 25999) / 26000) ++ u32 u.swaps ++ u32 u.freezes ++ u32 u.evcDropped ++ rsv 12)) }

def execUcStatus (q : Qcp) (s : State) : Host.Outcome State Fault Refusal := runHost ucStatusCmd q s

/-- An enabled window of UC with X covers a byte of the range's bank (R402). -/
def codeCovered (s : State) (a : Nat) : Bool :=
  let lo := (a - memBase) / bankBytes * bankBytes + memBase
  (s.windows 7).any fun w => w.enabled && !w.isRs && bitOf w.perm 2 && !bitOf w.perm 3 && decide (w.base < lo + bankBytes ∧ lo < w.limit)

def ucLoadCmd : HostCmd :=
  { opcode := 0x0E10, len := ⟨9, 4080, fun p => some (8 + clampN 1 4072 (fieldU p 4 2))⟩, priv := 2
    range := fun q s => [(0, inMem (q.u 0 4)), (4, 1 ≤ q.u 4 2 && q.u 4 2 ≤ 4072 && oneBankRange s (q.u 0 4) (q.u 4 2))]
    state := fun q s =>
      [ (s.bank (s.mem.locate (q.u 0 4)).1).ownerA == 7, rangeOn s (q.u 0 4) (q.u 4 2), !s.cipherStall (q.u 0 4) (q.u 4 2) true,
        s.uc.state != .running || !codeCovered s (q.u 0 4) ]
    effect := fun q s => (s.memWrite (q.u 0 4) (q.payload.drop 8), .ok []) }

def execUcLoad (q : Qcp) (s : State) : Host.Outcome State Fault Refusal := runHost ucLoadCmd q s

def ucStart (entry : Word) (s : State) : State :=
  ((startCore 7 entry 0 s).modUc fun u => { u with state := .running, entry := entry, wdogLeft := u.wdog * 26000 }).ucEvent 1 none

def ucStartCmd : HostCmd :=
  { opcode := 0x0E11, len := .fixed 8, priv := 2, state := fun _ s => [s.uc.state == .stopped]
    effect := fun q s => (ucStart (BitVec.ofNat 32 (q.u 0 4)) s, .ok []) }

def execUcStart (q : Qcp) (s : State) : Host.Outcome State Fault Refusal := runHost ucStartCmd q s

/-- UC_STOP; a freeze ends only by THAW (R358). DEDUCED (log 64). -/
def ucStopCmd : HostCmd :=
  { opcode := 0x0E12, len := .fixed 4, priv := 2, state := fun _ s => [s.uc.state == .running || s.uc.state == .suspending]
    effect := fun _ s => ((stopUc s).ucEvent 2 none, .ok []) }

def execUcStop (q : Qcp) (s : State) : Host.Outcome State Fault Refusal := runHost ucStopCmd q s

/-- A running UC without SVC 3 for WDOG ms (R400). -/
def execUcWatchdog (s : State) : Host.Outcome State Fault Refusal :=
  .next (if s.live ∧ s.on 10 ∧ s.uc.state = .running ∧ s.uc.wdog ≠ 0 ∧ s.uc.wdogLeft = 0 then (stopUc s).ucEvent 4 none else s)

/-! ### Swapping (R402) -/

/-- DEDUCED (log 64). -/
def ucSwapCmd : HostCmd :=
  { opcode := 0x0E13, len := .fixed 8, priv := 2
    range := fun q _ => [(4, 1 ≤ q.u 4 2 && q.u 4 2 ≤ 1000)]
    state := fun _ s => [s.uc.state == .running]
    effect := fun q s =>
      let w : UcSwap :=
        { entry := BitVec.ofNat 32 (q.u 0 4), graceEnd := s.now + q.u 4 2 * msUnits, start := s.now, origin := q.origin 0x0E13, handed := none, handBeat := 0 }
      (s.modUc fun u => { u with state := .suspending, swap := some w }, ⟨stAccepted, []⟩) }

def execUcSwap (q : Qcp) (s : State) : Host.Outcome State Fault Refusal := runHost ucSwapCmd q s

/-- Step 2 of a swap: the stop actions, then the latched sources of lines 0, 1, 4, 5, 12 and 13 clear, and the core restarts at ENTRY with the hand-over word. -/
def swapProgram (word : Word) (forced : Bool) (s : State) : State :=
  match s.uc.swap with
  | none => s
  | some w =>
    let s := stopActions s
    let s := s.modUc fun u => { u with timers := u.timers.map fun t => { t with pend := false, beatPend := false } }
    let s := (ucChannels s).foldl (fun s n => s.modDma n fun c => { c with done := false, err := false }) s
    let s := cuEvtClear s
    let s := s.modPeriph fun p => { p with gpio := p.gpio.map fun g => { g with evt := false } }
    let s := (startCore 7 w.entry word s).modCore 7 fun c => { c with mode := .stopped }
    s.modUc fun u => { u with entry := w.entry, swap := some { w with handed := some (word, forced), handBeat := s.time.beat } }

/-- GRACE ends without SVC 6. -/
def execSwapForced (s : State) : Host.Outcome State Fault Refusal :=
  .next (match s.uc.swap with
    | some w => if s.live ∧ s.uc.state = .suspending ∧ w.handed = none ∧ w.graceEnd ≤ s.now then swapProgram 0 true s else s
    | none => s)

/-- The new program runs from the next beat boundary (R402, step 3). -/
def swapResume (s : State) : State :=
  match s.uc.swap with
  | some w =>
    match w.handed with
    | some (_, forced) =>
      if w.handBeat < s.time.beat then
        let s := s.modCore 7 fun c => { c with mode := .running }
        let s := s.modUc fun u => { u with state := .running, swap := none, swaps := sat32 (u.swaps + 1), wdogLeft := u.wdog * 26000 }
        (s.ucEvent 5 none).complete w.origin stOk (ub forced ++ rsv 3 ++ u32 (sat32 ((s.now - w.start) / 64000)))
      else s
    | none => s
  | none => s

def execUcSwapResume (s : State) : Host.Outcome State Fault Refusal := .next (if s.live ∧ s.time.tick = 0 then swapResume s else s)

/-! ### Ticks and beats -/

/-- A number of ordering ticks of a timer. -/
def UcTimer.ticks (n : Nat) (t : UcTimer) : UcTimer :=
  let left := max 1 t.count
  if !t.en || t.armed then t
  else if n < left then { t with count := t.count - n }
  else if t.periodic then
    let load := max 1 t.load
    { t with count := load - (n - left) % load, pend := true }
  else { t with count := 0, pend := true, en := false }

/-- Ordering ticks: the timers count and the watchdog runs down while UC is RUNNING (R395, R400). -/
def ucTicks (n : Nat) (s : State) : State :=
  if s.live && s.on 10 then
    s.modUc fun u => { u with timers := u.timers.map (UcTimer.ticks n), wdogLeft := if u.state = .running then u.wdogLeft - n else u.wdogLeft }
  else s

/-- A beat boundary: BEATPEND, BEAT loads, cores in SVC 5 return, and a swap resumes. -/
def ucBoundary (s : State) : State :=
  let s := { s with cores := s.cores.map fun (c : Core) => if c.mode = CoreMode.svcBeat then { c with mode := .running, g := c.g.set 0 0 } else c }
  if s.on 10 then
    swapResume (s.modUc fun u => { u with timers := u.timers.mapIdx fun i (t : UcTimer) =>
      let t := if i = 0 then { t with beatPend := true } else t
      if t.en && t.armed then { t with armed := false, count := t.load } else t })
  else s

end Sys2Proof.Machine
end

