-- ==== Sys2Proof/Machine/Io.lean ====
section
/-! DEFINITION. The I/O map of the customer core (Table 17.1): one read and one write of a register, and what writes through it. -/

namespace Sys2Proof.Machine
open Sys2Proof

/-! ### Registers of single blocks -/

/-- MB_CTRL as read (Table 15.6). -/
def mbCtrlWord (b : Bank) : Nat :=
  b.power.code + 8 * b.state.code + (if b.moving.isSome then 32 else 0)
  + 256 * boolBits [b.shadowed, b.crit, b.interleaved, b.dp]

/-- MB_OWN as read (Table 15.2). -/
def mbOwnWord (b : Bank) : Nat := b.ownerA + 256 * (if b.dp then b.ownerB else 0xFF) + (if b.pend then 2 ^ 31 else 0)

/-- MB_COLL_INFO as read (Table 15.4). -/
def mbCollWord (b : Bank) : Nat :=
  b.collBytes + 256 * b.collMasterA + 65536 * b.collMasterB + 2 ^ 24 * min 127 b.collCount + (if b.collValid then 2 ^ 31 else 0)

def mbRead (off : Nat) (s : State) : Nat :=
  if off < 0x200 then mbCtrlWord (s.bank (off / 4))
  else if off < 0x400 then mbOwnWord (s.bank ((off - 0x200) / 4))
  else if off < 0x420 then
    let b := s.bank (124 + (off - 0x400) / 8)
    if off % 8 = 0 then b.collAddr else mbCollWord b
  else 0

def mbWrite (off value : Nat) (s : State) : State :=
  if off < 0x200 then ctrlPower (off / 4) (value % 4) s
  else if 0x400 ≤ off ∧ off < 0x420 ∧ off % 8 = 4 ∧ bitOf value 31 then collClear 7 (124 + (off - 0x400) / 8) s
  else s

/-- UA_CTRL of the committed settings. -/
def uaCtrlWord (u : Uart) : Nat := 4 * u.tx.committed.frame + (if u.rxen then 2 else 0) + (if u.txen then 1 else 0)

/-- UA_CARD as read (Table 19.6). -/
def uaCardWord (k : UartCard) : Nat :=
  let h := k.ch.committed
  4096 * k.clkdiv + 256 * h.repeats + 128 * boolBits [k.rst] + boolBits [h.card, false, h.autoconv, h.conv, h.t1, k.stophi, k.clken]

def uartRead (n off : Nat) (s : State) : Nat :=
  let u := s.uart n
  if !s.ucUart n then 0
  else match off with
    | 0x00 => uaCtrlWord u
    | 0x04 => u.tx.committed.div
    | 0x0C => u.rxWord.toNat
    | 0x10 => u.statusWord.toNat
    | 0x14 => u.ie.toNat
    | 0x18 => if 4 ≤ n then uaCardWord u.card else 0
    | 0x1C => if 4 ≤ n then u.card.ch.committed.etu else 0
    | 0x20 => if 4 ≤ n then 256 * u.card.wt + u.card.ch.committed.guard else 0
    | _ => 0

/-- Commit transmit and receive framing; an idle shifter takes it at once. -/
def Uart.setFraming (u : Uart) (f : UartFraming) : Uart := { u with tx := u.tx.commit f, rx := u.rx.commit f }

def uaCtrlWrite (n value : Nat) (s : State) : State :=
  s.modUart n fun u =>
    let u := { u.setFraming ⟨bitsOf value 7 2, u.tx.committed.div⟩ with rxen := bitOf value 1, txen := bitOf value 0 }
    if u.txen then u.load else u

def uaCardWrite (n value : Nat) (s : State) : State :=
  s.modUart n fun u => u.modCard fun k =>
    let h : CardChar := { k.ch.committed with
      repeats := bitsOf value 11 8, t1 := bitOf value 4, conv := bitOf value 3, autoconv := bitOf value 2, card := bitOf value 0 }
    { k with clkdiv := clampN 20 390 (bitsOf value 20 12), rst := bitOf value 7, clken := bitOf value 6, stophi := bitOf value 5
             awaitTs := (bitOf value 7 && !k.rst) || k.awaitTs, ch := k.ch.commit h }

def uartWrite (n off value : Nat) (s : State) : State :=
  if !s.ucUart n then s
  else match off with
    | 0x00 => uaCtrlWrite n value s
    | 0x04 => s.modUart n fun u => u.setFraming ⟨u.tx.committed.frame, max 130 (value % 2 ^ 20)⟩
    | 0x08 => uartTxWrite n (BitVec.ofNat 32 value) s
    | 0x10 => s.modUart n fun u => { u with status := u.status &&& ~~~(BitVec.ofNat 32 value) }
    | 0x14 => s.modUart n fun u => { u with ie := BitVec.ofNat 32 value &&& 0x31F03#32 }
    | 0x18 => if 4 ≤ n then uaCardWrite n value s else s
    | 0x1C => if 4 ≤ n then s.modUart n fun u => u.modCard fun k => { k with ch := k.ch.commit { k.ch.committed with etu := max 128 (value % 65536) } } else s
    | 0x20 => if 4 ≤ n then s.modUart n fun u => u.modCard fun k => { k with wt := value / 256, ch := k.ch.commit { k.ch.committed with guard := value % 256 } } else s
    | _ => s

/-- The GPIO registers (Table 19.14). -/
def gpioRead_ (off : Nat) (s : State) : Nat :=
  if !s.periphOn then 0
  else match off with
    | 0x00 => gpioBits s (·.level)
    | 0x04 => gpioBits s (·.out)
    | 0x10 => gpioBits s (·.evt)
    | 0x14 => gpioBits s (·.ie)
    | 0x18 => gpioBits s fun g => g.owner == 1
    | _ => 0

def gpioWrite_ (off value : Nat) (s : State) : State :=
  if !s.periphOn then s
  else match off with
    | 0x04 => gpioDrive 0xFF (fun n => bitOf value n) s
    | 0x08 => gpioDrive (BitVec.ofNat 32 value) (fun _ => true) s
    | 0x0C => gpioDrive (BitVec.ofNat 32 value) (fun _ => false) s
    | 0x10 => s.modPeriph fun p => { p with gpio := p.gpio.mapIdx fun i (g : GpioPin) => { g with evt := g.evt && !bitOf value i } }
    | 0x14 => s.modPeriph fun p => { p with gpio := p.gpio.mapIdx fun i (g : GpioPin) => { g with ie := bitOf value i } }
    | _ => s

/-! ### The map -/

/-- The address lies in a block of Table 17.1. DEDUCED (log 65). -/
def ioBlock (a : Nat) : Bool := decide (0x02010000 ≤ a ∧ a < 0x02070000)

/-- A word of the I/O space as UC reads it. DEDUCED (log 65). -/
def ioWord (a : Nat) (s : State) : Nat :=
  let off := a % 65536
  match a / 65536 with
  | 0x0201 => mbRead off s
  | 0x0202 => if ucChan s (off / 32) then dmaRegRead (off / 32) (off % 32) s else 0
  | 0x0203 =>
    if !s.on 10 then 0
    else if off < 0x20 then timerRead (off / 16) (off % 16) s
    else if 0x100 ≤ off ∧ off < 0x140 then evcRead (off - 0x100) s
    else if off = 0x200 then s15Status s
    else if off = 0x208 then s15Word s
    else 0
  | 0x0204 => uartRead (off / 64) (off % 64) s
  | 0x0205 => gpioRead_ off s
  | 0x0206 => if !s.cipherOn then 0 else if off < 0x20 then cuLockRead (off / 4) s else if off = 0x40 then s.cipher.evtStatus * 256 + (if s.cipher.evtDone then 1 else 0) else 0
  | _ => 0

/-- The effect of reading a word: UA_RX and S15_RXDATA give up what they hold. DESIGN CHOICE (log 62). -/
def ioReadEffect (a : Nat) (s : State) : State :=
  let off := a % 65536
  match a / 65536 with
  | 0x0203 => if s.on 10 ∧ off = 0x208 then s15Pop s else s
  | 0x0204 => if off % 64 = 0x0C ∧ off / 64 ≤ 5 then uartRxRead (off / 64) s else s
  | _ => s

/-- Read a word of the I/O space as UC. DEDUCED (log 65). -/
def ioRead (a : Nat) (s : State) : State × Nat := (ioReadEffect a s, ioWord a s)

/-- Write a word of the I/O space as UC. DEDUCED (log 65). -/
def ioWrite (a value : Nat) (s : State) : State :=
  let off := a % 65536
  match a / 65536 with
  | 0x0201 => mbWrite off value s
  | 0x0202 => if ucChan s (off / 32) then dmaRegWrite (off / 32) (off % 32) value s else s
  | 0x0203 =>
    if !s.on 10 then s
    else if off < 0x20 then timerWrite (off / 16) (off % 16) value s
    else if off = 0x100 then (if bitOf value 8 then s.modUc fun u => { u with evcOvf := false } else s)
    else if off = 0x104 then evcPop value s
    else if off = 0x200 then (if bitOf value 31 then s.modUc fun u => { u with txOvf := false } else s)
    else if off = 0x204 then s15Write value s
    else s
  | 0x0204 => if off / 64 ≤ 5 then uartWrite (off / 64) (off % 64) value s else s
  | 0x0205 => gpioWrite_ off value s
  | 0x0206 => if !s.cipherOn then s else if off < 0x20 then cuLockWrite (off / 4) value s else if off = 0x40 ∧ bitOf value 0 then cuEvtClear s else s
  | _ => s

/-- A register write by UC, under the access code of the register (R4, R5). DEDUCED (log 65). -/
def execRegisterWrite (addr value : Word) (s : State) : Host.Outcome State Fault Refusal :=
  .next (if s.live ∧ ioBlock addr.toNat ∧ addr.toNat % 4 = 0 then ioWrite addr.toNat value.toNat s else s)

/-- A cipher operation ends (R409): an output in I/O space goes out word by word. -/
def execCipherOpComplete (unit : Nat) (how : CipherEnd) (s : State) : Host.Outcome State Fault Refusal :=
  .next (if s.cipherOn then completeOp ioWrite unit how s else s)

/-! ### DMA bursts (R359–R361) -/

/-- A write of another master through the other port of a dual-port bank in the same clock (Table 15.3): word address, master, and its bytes. -/
def applyClash (x : Clash) (master a n : Nat) (s : State) : State :=
  let w := x.addr / 8 * 8
  let b := s.mem.locate w
  let k := s.bank b.1
  if !inMem w || !k.dp || decide (a + n ≤ w) || decide (w + 8 ≤ a) || !((k.ownerA == master && k.ownerB == x.master) || (k.ownerB == master && k.ownerA == x.master)) then s
  else
    let mineB := k.ownerB == master
    let lane (i : Nat) : Bool := decide (a ≤ w + i) && decide (w + i < a + n)
    let theirs (i : Nat) : Option Byte := (x.bytes[i]?).join
    let both := (List.range 8).filter fun i => lane i && (theirs i).isSome
    let s := (List.range 8).foldl (fun s i =>
      match theirs i with
      | none => s
      | some v => if lane i && mineB == k.winB then s else { s with mem := s.mem.setByte (w + i) v }) s
    if both.isEmpty then s
    else
      let bytes := (both.map fun i => 2 ^ i).sum
      let ma := if mineB then x.master else master
      let mb := if mineB then master else x.master
      let s := s.modBank b.1 fun k =>
        if k.collValid then { k with collCount := min 127 (k.collCount + 1) }
        else { k with collValid := true, collAddr := w, collCount := 0, collMasterA := ma, collMasterB := mb, collBytes := bytes }
      if k.notify then s.notify 0x8230 (s.dtBytes ++ u32 w ++ u8 b.1 ++ u8 ma ++ u8 mb ++ u8 bytes) else s

/-- Store bytes as a master, with the access of the other port in the same clock. -/
def storeAs (clash : Option Clash) (master a : Nat) (bs : List Byte) (s : State) : State :=
  let s := s.memWrite a bs
  match clash with
  | some x => applyClash x master a bs.length s
  | none => s

/-- Read the bytes of a burst: words of the I/O space one after the other, at a fixed or a rising address. -/
def dmaFetch (fixed : Bool) (a : Nat) : Nat → State → State × List Byte
  | 0, s => (s, [])
  | k + 1, s =>
    let (s, v) := ioRead a s
    let (s, bs) := dmaFetch fixed (if fixed then a else a + 4) k s
    (s, u32 v ++ bs)

/-- Write the words of a burst to the I/O space. -/
def dmaPut (fixed : Bool) : Nat → List Byte → Nat → State → State
  | _, _, 0, s => s
  | a, bs, k + 1, s => dmaPut fixed (if fixed then a else a + 4) (bs.drop 4) k (ioWrite a (fieldU bs 0 4) s)

/-- An I/O burst is of whole words, in a block of the map. -/
def ioBurstOk (a n : Nat) : Bool := !inIo a || (a % 4 == 0 && n % 4 == 0 && ioBlock a)

/-- The descriptor has been moved: STATUS, DONE, and the next descriptor or the end of the chain. -/
def dmaDone (n : Nat) (sameTick : Bool) (s : State) : State :=
  let c := s.dmaChan n
  match c.run with
  | none => s
  | some d =>
    let s := descStatus n (if c.skipped = 0 then 0 else 2) s
    let s := s.modDma n fun c => { c with doneCount := (c.doneCount + 1) % 65536, done := c.done || bitOf d.ctrl 2, run := none, waitBeat := none }
    if bitOf d.ctrl 1 then loadDesc n sameTick (s.modDma n fun c => { c with cur := d.next }) else s.modDma n fun c => { c with state := .idle }

/-- Move or check one burst of a channel: the source and the destination are checked before any byte moves (R356). -/
def dmaBurst (n : Nat) (sameTick : Bool) (clash : Option Clash) (s : State) : State :=
  let c := s.dmaChan n
  match c.run with
  | none => loadDesc n sameTick s
  | some d =>
    let k := c.burst
    let src := c.source
    let dst := c.dest
    let fs := bitOf d.ctrl 3
    let fd := bitOf d.ctrl 4
    let spanS := if fs then min k 4 else k
    let spanD := if fd then min k 4 else k
    let vs := if ioBurstOk src k then judgeDma s n src spanS .load else (.bad .window, src)
    let vd := if ioBurstOk dst k then judgeDma s n dst spanD .store else (.bad .window, dst)
    match vs, vd with
    | (.bad v, x), (.bad w, y) => if y < x then freezeDma n w y true sameTick s else freezeDma n v x false sameTick s
    | (.bad v, x), _ => freezeDma n v x false sameTick s
    | _, (.bad w, y) => freezeDma n w y true sameTick s
    | (.stall, _), _ => s
    | _, (.stall, _) => s
    | (.ok, _), (.ok, _) =>
      let (s, bad) := if inIo src then (s, none) else s.eccRead 0x12 src spanS
      match bad with
      | some x => freezeDma n .ecc x false sameTick s
      | none =>
        let (s, bs) :=
          if inIo src then dmaFetch fs src (k / 4) s
          else if fs then (s, (List.replicate (k / 4 + 1) (s.memRead src spanS)).flatten.take k)
          else (s, s.memRead src k)
        let s :=
          if inIo dst then dmaPut fd dst bs (k / 4) s
          else if fd then storeAs clash (dmaMaster n c) dst (bs.drop (k - spanD)) s
          else storeAs clash (dmaMaster n c) dst bs s
        let s := s.modDma n fun c => { c with moved := c.moved + k }
        if c.moved + k = d.length then dmaDone n sameTick s else s

/-- The channel that takes the next burst: the highest class with a ready channel, in turn within the class (R359). DEDUCED (log 52). -/
def nextDma (s : State) : Option Nat :=
  let ready := (List.range 24).filter fun n =>
    let c := s.dmaChan n
    decide (c.state = .running) && !c.held s && !(c.run.isSome && rangesHit s.unverified c.source c.burst)
  let best := (ready.map fun n => (s.dmaChan n).cls).foldl min 3
  let same := ready.filter fun n => (s.dmaChan n).cls == best
  (same.find? fun n => decide (s.mem.lastDma < n)).orElse fun _ => same.head?

def execDmaBurst (sameTick : Bool) (clash : Option Clash) (s : State) : Host.Outcome State Fault Refusal :=
  .next (
    if s.live then
      match nextDma s with
      | some n => dmaBurst n sameTick clash { s with mem := { s.mem with lastDma := n } }
      | none => s
    else s)

end Sys2Proof.Machine
end

