-- ==== Sys2Proof/Machine/NavEpoch.lean ====
section
/-! DEFINITION. The navigation epoch: measurements, solution mode, fault detection, protection levels, records, time and the reference station (R178–R207, R217–R223, R234–R236). -/

namespace Sys2Proof.Machine
open Sys2Proof

/-! ### Measurements (R182–R191) -/

/-- SNAP of a channel in the slot of a beat (Table 5.8): carrier cycles with their fraction, and code phase in chips. -/
def snapOf (s : State) (n beat : Nat) : Option (Rat × Rat) :=
  if !s.fabric.placed then none
  else
    let a := dumpSlotAddr s (n / 64) beat + 64 + 16 * (n % 64)
    let p := zeroBad s a (s.memRead a 16)
    if fieldU (s.memRead (dumpSlotAddr s (n / 64) beat) 8) 0 8 ≠ beat then none
    else some (((fieldU p 4 4 : Nat) : Rat) + ((fieldU p 0 4 : Nat) : Rat) / 4294967296, ((fieldU p 8 8 : Nat) : Rat) / 4294967296)

/-- The words of a channel in a beat: state and f_bb, c_app (R183). -/
def wordsIn (t : Track) (beat : Nat) : Option BeatWords := t.words.find? fun w => w.beat == beat

/-- Front-end delay less clock skew, in ns (R183). -/
def frontDelay (i : InstallInput) (g : Sig) (skew : Nat) : Rat :=
  let mid : Rat := ((i.rfLow + i.rfHigh : Nat) : Rat) / 2000
  let gd : Rat := (i.groupDelay : Rat) + (i.delaySlope : Rat) / 100 * (g.fc / 1000000 - mid)
  (gd - skew) / 64

/-- SKEW recorded for the epoch's beat. -/
def skewOf (s : State) (input : Nat) : Nat := (((s.input input).stat).map (·.skewBefore)).getD 0

/-- Phases of a channel referred to its antenna at t_e (R183): code phase in chips, carrier in cycles, f_bb in Hz, Doppler in Hz. -/
structure Referred where
  phi : Rat
  theta : Rat
  cycles : Rat
  doppler : Rat
  deriving DecidableEq, Repr

def referred (s : State) (n beat : Nat) (g : Sig) (w : BeatWords) (snap : Rat × Rat) : Referred :=
  let sb := (s.chan n).act.subband
  let fsb := fSb (s.streamCfg sb).rate
  let input := s.streamSub sb / 4
  let delta := match s.installInput input with
    | some i => frontDelay i g (skewOf s input)
    | none => 0
  let fbb : Rat := ((w.carr * fsb : Int) : Rat) / (2 ^ 48 : Nat)
  let capp : Rat := ((w.code * fsb : Nat) : Rat) / (2 ^ 48 : Nat)
  let zero := zeroDoppler s g sb
  let _ := beat
  { phi := snap.2 + capp * delta / 1000000000, theta := snap.1 + fbb * delta / 1000000000, cycles := snap.1, doppler := fbb - zero }

/-- Uncertainty of time in ns and of position in m, from the clock and the last record, else from the priors (R86, R184, R230). -/
def navTimeUnc (s : State) : Option Rat :=
  if s.clock.valid then s.clock.unc s.now
  else match s.domain.prior with
    | some (_, _, u) => some u
    | none => let p := s.grinder.plan.inForce; if bitOf p.flags 0 then some p.timeUnc else none

def navPosUnc (s : State) : Option Rat :=
  let p := s.grinder.plan.inForce
  let prior : Option Rat := if bitOf p.flags 1 then some (p.posUnc : Rat) else none
  match s.nav.pvt with
  | some r => if r.mode = 0 then prior else some (((r.posSig.foldl max 0 : Nat) : Rat) / 1000)
  | none => prior

/-- CODE_VALID (R184). -/
def codeValid (s : State) (g : Sig) (t : Track) (known : Bool) : Bool :=
  (known && (t.bitSync || t.secSync))
  || (match navTimeUnc s, navPosUnc s with
      | some u, some p => decide (u + p * 1000000000 / 299792458 < (g.period : Rat) * 1000000 / 4)
      | _, _ => false)

/-- Base σ of code in m (Table 8.7). DEDUCED (log 37). -/
def codeSigma0 (chipRate : Nat) : Rat :=
  if 10230000 ≤ chipRate then 15 / 100 else if 5115000 ≤ chipRate then 30 / 100 else if 2046000 ≤ chipRate then 40 / 100
  else if 1023000 ≤ chipRate then 60 / 100 else 120 / 100

/-- Code σ of R191 in m; below the horizon or without an elevation the sine is that of 0.1°. -/
def codeSigma (chipRate cn0 : Nat) (elev : Option Rat) (severe interf coast input : Bool) : Rat :=
  let e := elev.getD (1 / 10)
  let sine : Rat := if 30 ≤ e then 1 else Config.fn .sin ((if e < 1 / 10 then 1 / 10 else e) / 360)
  let v := 1 + Config.fn .pow10 ((45 - ((cn0 : Nat) : Rat) / 100) / 10)
  let k : Rat := (if severe then 4 else 1) * (if interf then 16 else 1) * (if coast then 4 else 1) * (if input then 4 else 1)
  codeSigma0 chipRate / sine * Config.fn .sqrt (v * k)

/-- The multipath correction in force: LOS_DELAY of a valid record no older than 2 × MP_WINDOW (R159). DEDUCED (log 37). -/
def mpCorrection (s : State) (n : Nat) : Option MpRec :=
  if !s.nav.mpApply.inForce then none
  else (s.mpChan n).record.filter fun r => r.status % 2 == 1 && decide (s.time.beat ≤ r.beat + 2 * s.nav.mpCfg.inForce.window)

/-- A satellite has no usable ephemeris (R188). -/
def noEphemeris (s : State) (key : Nat) : Bool :=
  match Tab.get none s.nav.sets key with
  | some d => !dataValid s d || (key / 64 == 1 && s.nav.osnma.cfg.inForce.require && (d.loaded || (s.osnmaSat (key % 64)).status != 2))
  | none => true

/-- EXCLUDED (Table 8.6). -/
def excludedSat (s : State) (key : Nat) : Bool :=
  s.nav.excluded.any (fun e => e.sat == key) || noEphemeris s key || s.spoofed key || !bitOf s.nav.cfg.inForce.systems (key / 64)

/-- The data set in use of a satellite is AUTH. -/
def satAuth (s : State) (key : Nat) : Bool :=
  key / 64 == 1 && (s.osnmaSat (key % 64)).status == 2 && ((Tab.get none s.nav.sets key).map fun d => !d.loaded).getD false

/-- One measurement of epoch k and what the device keeps of the channel (R182–R191). DESIGN CHOICE (log 36). DEDUCED (log 37). -/
def measure (s : State) (beat : Nat) (rx : Rat) (o : NavObs) : State × Option MeasRec :=
  let n := o.channel
  let c := s.chan n
  let t := s.track n
  let k := s.navChan n
  match wordsIn t beat, wordsIn t (beat - 1), s.sig c.act.signal c.act.sat, snapOf s n beat with
  | some w, some _, some g, some snap =>
    let st := ((wordsIn t (beat + 1)).map (·.state)).getD w.state
    if st = 0 ∨ st = 5 then (s, none)
    else
      let key := c.satKey
      let r := referred s n beat g w snap
      let mp := mpCorrection s n
      let los : Int := (mp.map (·.los)).getD 0
      let phi := r.phi - (los : Rat) / 1024
      let tTx := o.start + phi / g.chipRate * 1000000000
      let code := codeValid s g t o.known
      let prof := s.chanProfile n
      let phase := (st == 2 || st == 3) && decide ((prof.pldThr : Int) ≤ t.pld) && decide (0 < t.lockTime)
      let pr := 299792458 * (rx - tTx) / 1000000000
      -- the accumulated phase, with the wraps of the 32-bit cycle count
      let turns := if absRat (r.cycles - k.snap) < 2147483648 then k.turns else if r.cycles < k.snap then k.turns + 1 else k.turns - 1
      let turns := if k.measured then turns else 0
      let raw := -(r.theta + (turns : Rat) * 4294967296 - zeroDoppler s g c.act.subband * ((beat : Nat) : Rat) / 1000)
      let lambda : Rat := 299792458 / g.fc
      let offset := if st = 1 then none else match k.offset with
        | some v => some v
        | none => if phase && code then some ((roundRat (pr / lambda - raw - k.half) : Int) : Rat) else none
      let carrier := raw + offset.getD 0 + k.half
      let slip := (k.measured && k.slip != t.slipCount) || k.halfSlip
      let input := s.streamSub c.act.subband / 4
      let interf := decide (2 ≤ (s.interf input).level)
      let severe := (mp.map fun m => bitOf m.status 3).getD false
      let elevLow := (o.elev.map fun (e : Rat) => decide (e < ((s.nav.cfg.inForce.elevMask : Nat) : Rat))).getD false
      let masked := elevLow || decide (t.cn0 < 100 * s.nav.cfg.inForce.cn0Mask)
      let q := bit8 code 0 + bit8 phase 1 + bit8 t.halfAmbig 2 + bit8 slip 3 + bit8 (st == 4) 4 + bit8 (st == 1) 5 + bit8 k.input 6 + bit8 interf 7
        + bit8 mp.isSome 8 + bit8 severe 9 + bit8 (satAuth s key) 10 + bit8 (s.osnmaFailed key) 11 + bit8 k.aoaFail 12 + bit8 (excludedSat s key) 13 + bit8 (st == 3) 14
        + bit8 masked 15
      let (s, prBits) := if code then (s, f64OfRat pr) else let (s, v) := s.openVal 81; (s, BitVec.ofNat 64 v)
      let rec_ : MeasRec :=
        { channel := n, signal := c.act.signal, sat := c.act.sat, subband := s.streamSub c.act.subband, antenna := ((s.installInput input).map (·.antenna)).getD 0
          quality := q, pseudorange := prBits, carrier := f64OfRat carrier, doppler := clampI (-2147483648) 2147483647 (roundRat (r.doppler * 1000)), cn0 := t.cn0
          slips := t.slipCount, state := st, lockTime := t.lockTime, mpCorr := los
          sigma := min 65535 (roundRat (100 * codeSigma g.chipRate t.cn0 o.elev severe interf (st == 4) k.input)).toNat }
      let s := s.setNavChan n
        { k with slip := t.slipCount, measured := true, input := false, offset := offset, halfSlip := false, snap := floorRat r.cycles, turns := turns, elev := o.elev }
      (s, some rec_)
  | _, _, _, _ => (s, none)

/-- Measurements in channel order. -/
def measureAll (beat : Nat) (rx : Rat) : List NavObs → State → State × List MeasRec
  | [], s => (s, [])
  | o :: os, s =>
    let (s, r) := measure s beat rx o
    let (s, rs) := measureAll beat rx os s
    (s, r.toList ++ rs)

/-- RX_TIME at t_e in ns (R184): of the clock model, or set from the largest t_tx and then advanced. -/
def rxTimeAt (s : State) (beat : Nat) (obs : List NavObs) : Option Nat :=
  let te := dtAt beat 0
  if s.clock.valid then some (s.clock.gpsNs te)
  else match s.nav.rxTime with
    | some t => some (t + measBeats s.nav.cfg.inForce.rate * 1000000)
    | none =>
      let txs := obs.filterMap fun o =>
        match s.sig (s.chan o.channel).act.signal (s.chan o.channel).act.sat, snapOf s o.channel beat with
        | some g, some snap => if codeValid s g (s.track o.channel) o.known then some (o.start + snap.2 / g.chipRate * 1000000000) else none
        | _, _ => none
      match txs with
      | [] => none
      | x :: xs => some ((roundRat ((xs.foldl (fun a b => if a < b then b else a) x) / 1000000 + 75)).toNat * 1000000)

/-- Send the MEAS_EPOCH notices (R189). -/
def sendMeas (s : State) (m : MeasEpoch) : State :=
  if s.nav.cfg.inForce.measNotify then (List.range m.parts).foldl (fun s k => s.notify 0x8710 (m.part (k + 1))) s else s

/-- Dumps that closed with SHORT or INPUT mark their channels until the next measurement (Table 8.6). -/
def navBoundary (s : State) : State :=
  s.fabric.slot.foldl (fun s d =>
    if d.short || d.input then let k := s.navChan d.channel; s.setNavChan d.channel { k with input := true } else s) s

/-! ### Angle of arrival (R163, R164) -/

/-- π to 15 digits. -/
def piRat : Rat := 3141592653589793 / 1000000000000000

/-- Carrier difference of two channels, corrected for their inputs, in cycles (R163). -/
def aoaDelta (s : State) (beat : Nat) (o : AoaObs) : Option Rat :=
  let f (n : Nat) : Option Rat := match wordsIn (s.track n) beat, s.sig (s.chan n).act.signal (s.chan n).act.sat, snapOf s n beat with
    | some w, some g, some snap => some (referred s n beat g w snap).theta
    | _, _, _ => none
  match f o.chanA, f o.chanB with
  | some a, some b => some (a - b)
  | _, _ => none

/-- Wrap into [−0.5, +0.5) cycle. -/
def wrapCycle (x : Rat) : Rat := x - floorRat (x + 1 / 2)

/-- Mean of unit phasors of values in cycles: real and imaginary part. -/
def meanPhasor (xs : List Rat) : Rat × Rat :=
  let n : Rat := xs.length
  if xs.isEmpty then (0, 0) else ((xs.map (Config.fn .cos)).sum / n, (xs.map (Config.fn .sin)).sum / n)

def phasorMag (p : Rat × Rat) : Rat := Config.fn .sqrt (p.1 * p.1 + p.2 * p.2)

/-- Three epochs in a row change a flag. -/
def threeInRow (flag want : Bool) (run : Nat) : Bool × Nat := if flag = want then (flag, 0) else if 3 ≤ run + 1 then (want, 0) else (flag, run + 1)

/-- One antenna pair at an epoch. -/
def testPair (beat : Nat) (all : List AoaObs) (s : State) (i : Nat) : State :=
  match s.nav.pairs.inForce[i]? with
  | none => s
  | some pc =>
    let base := Config.fn .sqrt ((baselineSq s.nav.ants.inForce pc.a pc.b : Nat) : Rat) / 1000
    let tol : Rat := ((s.nav.spoof.cfg.inForce.aoaTol : Nat) : Rat) / 256
    let seen := (all.filter fun o => o.pair == i && (s.chan o.chanA).tracking && (s.chan o.chanB).tracking).filterMap fun o => (aoaDelta s beat o).map fun d => (o, d)
    let ok (o : AoaObs) : Bool := match s.sig (s.chan o.chanA).act.signal (s.chan o.chanA).act.sat with
      | some g => decide (base * (o.sigma * piRat / 180) / (299792458 / g.fc) ≤ tol / 3)
      | none => false
    let tested := seen.filter fun x => ok x.1
    let p := (s.nav.spoof.pairs[i]?).getD ⟨false, 0, []⟩
    let key (o : AoaObs) : Nat := (s.chan o.chanA).satKey
    -- the test of each satellite
    let (s, n, passed) := if tested.length < 4 then (s, 0, p.passed) else
      let diffs := (tested.filter fun x => p.passed.contains (key x.1)).map fun x => x.2 - x.1.predicted
      let diffs := if diffs.isEmpty then tested.map fun x => x.2 - x.1.predicted else diffs
      let m := meanPhasor diffs
      let beta := Config.atan2 m.2 m.1
      let bad (x : AoaObs × Rat) : Bool := decide (tol < absRat (wrapCycle (x.2 - x.1.predicted - beta)))
      let s := tested.foldl (fun s x =>
        [x.1.chanA, x.1.chanB].foldl (fun s ch =>
          let k := s.navChan ch
          let (f, r) := threeInRow k.aoaFail (bad x) k.aoaRun
          s.setNavChan ch { k with aoaFail := f, aoaRun := r, aoaPass := if bad x then 0 else k.aoaPass + 1 }) s) s
      (s, tested.length, (tested.filter fun x => !bad x).map fun x => key x.1)
    -- COLLAPSE
    let fit := decide (4 ≤ seen.length) && seen.all fun x => decide (x.1.sigma ≤ 10)
    let collapse := fit && decide (95 / 100 ≤ phasorMag (meanPhasor (seen.map (·.2)))) && decide (phasorMag (meanPhasor (seen.map fun x => x.1.predicted)) ≤ 70 / 100)
    let (f, r) := threeInRow p.collapse collapse p.run
    let pairs := (List.range s.nav.pairs.inForce.length).map fun j => if j = i then ⟨f, r, passed⟩ else (s.nav.spoof.pairs[j]?).getD ⟨false, 0, []⟩
    s.modNav fun v => { v with spoof := { v.spoof with
      pairs := pairs, tested := v.spoof.tested + 2 * n, pairsTested := v.spoof.pairsTested + if n = 0 then 0 else 1 } }

/-- Every pair, and the counts that the score uses. -/
def testPairs (beat : Nat) (all : List AoaObs) (s : State) : State :=
  let s := s.modNav fun v => { v with spoof := { v.spoof with tested := 0, failing := 0, pairsTested := 0, pairs := v.spoof.pairs.take v.pairs.inForce.length } }
  let s := (List.range s.nav.pairs.inForce.length).foldl (testPair beat all) s
  let failing := (distinct (all.flatMap fun o => [o.chanA, o.chanB])).countP fun n => (s.navChan n).aoaFail
  s.modNav fun v => { v with spoof := { v.spoof with failing := min failing v.spoof.tested } }

/-! ### Sources of corrections at an epoch (R217, R220, R221) -/

/-- A change kept up for a number of epochs. -/
def sinceCount (hold : Bool) (n : Nat) : Nat := if hold then n + 1 else 0

def stationId (t : Station) : Nat × Nat × Nat := (t.source, t.node, t.id)

/-- The distance of a station in km. -/
def distKm (pos : List Int) (t : Station) : Rat := match t.arp with
  | some a => Config.fn .sqrt ((distSq a pos : Nat) : Rat) / 10000000
  | none => 1000000

/-- A station that may be used: a complete fresh epoch, within range, 5 common satellites, not alerted. -/
def stationOk (s : State) (te : Nat) (pos : List Int) (sats : List Nat) (range : Nat) (t : Station) : Bool :=
  sourceOn s 0 && t.arp.isSome && decide (distKm pos t ≤ range) && !(t.source == 4 && alerted s t.node)
  && (match t.obs with
      | some o => decide (te ≤ o.time + ((s.corr.cfg.inForce.ages[0]?).getD 0) * 1000000000) && decide (5 ≤ sats.countP fun k => o.sats.contains k)
      | none => false)

/-- The station of the rule of R217: kept until it fails, or until another is nearer by more than SWITCH_GAIN for 60 epochs. -/
def chooseStation (s : State) (te : Nat) (pos : List Int) (sats : List Nat) (range : Nat) (cur : Option (Nat × Nat × Nat)) (run : Nat) : Option (Nat × Nat × Nat) × Nat :=
  let ok := s.corr.stations.filter (stationOk s te pos sats range)
  let near := ok.foldl (fun (b : Option Station) t => match b with | none => some t | some x => some (if distKm pos t < distKm pos x then t else x)) none
  match near with
  | none => (none, 0)
  | some t =>
    match ok.find? fun x => cur == some (stationId x) with
    | none => (some (stationId t), 0)
    | some c =>
      let better := decide (distKm pos t + s.corr.cfg.inForce.switchGain < distKm pos c)
      if better ∧ 60 ≤ run + 1 then (some (stationId t), 0) else (cur, sinceCount better run)

/-- Satellites with valid orbit and clock of a source (1 RTCM SSR, 2 HAS). -/
def orbitSats (s : State) (te source : Nat) (sats : List Nat) : List Nat :=
  if !sourceOn s (if source = 1 then 1 else 2) || (source == 2 && s.corr.hasState != 2) then []
  else sats.filter fun k =>
    (s.corr.corrs.any fun c => c.source == source && c.kind == 0 && c.sat == k && corrUsable s te c)
    && (s.corr.corrs.any fun c => c.source == source && c.kind == 1 && c.sat == k && corrUsable s te c)

/-- The orbit-and-clock source: kept for 3 failing epochs, or until one of higher priority has held for 60 (R220). -/
def chooseOrbit (s : State) (te : Nat) (sats : List Nat) : Nat × Nat × Nat :=
  let c := s.corr
  let order := if c.cfg.inForce.orbPrio = 0 then [1, 2] else [2, 1]
  let valid (x : Nat) : Bool := decide (5 ≤ (orbitSats s te x sats).length)
  let best := (order.find? valid).getD 0
  if c.orbSource = 0 then (best, 0, 0)
  else
    let fail := sinceCount (!valid c.orbSource) c.orbFail
    let higher := order.head? == some (3 - c.orbSource) && valid (3 - c.orbSource)
    let better := sinceCount higher c.orbBetter
    if 3 ≤ fail then (best, 0, 0) else if 60 ≤ better then (3 - c.orbSource, 0, 0) else (c.orbSource, fail, better)

/-- The SBAS satellite (R221). -/
def chooseSbas (s : State) : Nat :=
  let c := s.corr
  let fit (sat : Nat) : Bool := c.sbas.any fun b => b.sat == sat && b.current s.now
  if !sourceOn s 3 then 0
  else if c.cfg.inForce.sbasSat ≠ 0 then c.cfg.inForce.sbasSat
  else if c.sbasNow ≠ 0 ∧ fit c.sbasNow then c.sbasNow
  else
    let up := s.fabric.chans.filter fun x => x.2.tracking && sysOf x.2.act.signal == 6 && fit x.2.act.sat
    let best := up.foldl (fun (b : Option (Nat × Chan)) x => match b with
      | none => some x
      | some y => some (if ((s.navChan y.1).elev.getD (-90)) < ((s.navChan x.1).elev.getD (-90)) then x else y)) none
    (best.map fun x => x.2.act.sat).getD 0

/-- Choose every source, with the events of R223. DEDUCED (log 39). -/
def updateSources (te : Nat) (pos : List Int) (sats : List Nat) (s : State) : State :=
  let c := s.corr
  let (rtk, rr) := chooseStation s te pos sats 40 c.rtk c.rtkBetter
  let (dg, dr) := chooseStation s te pos sats c.cfg.inForce.range c.dgnss c.dgnssBetter
  let (orb, of_, ob) := chooseOrbit s te sats
  let sb := chooseSbas s
  let s := s.modCorr fun v => { v with rtk := rtk, rtkBetter := rr, dgnss := dg, dgnssBetter := dr, orbSource := orb, orbFail := of_, orbBetter := ob, sbasNow := sb }
  let s := if rtk = c.rtk then s else match rtk with
    | some (src, node, id) => s.corrEvent 1 src (if src = 4 then node else id) 0
    | none => s.corrEvent 2 ((c.rtk.map (·.1)).getD 0) ((c.rtk.map fun x => if x.1 = 4 then x.2.1 else x.2.2).getD 0) 0
  let s := if orb = c.orbSource then s else s.corrEvent 3 orb 0 c.orbSource
  if sb = c.sbasNow then s else s.corrEvent 8 3 sb c.sbasNow

/-! ### Solution mode (R193, R194) -/

/-- The clock groups of Table 8.9: GPS with QZSS and SBAS. DEDUCED (log 37). -/
def clockGroup (key : Nat) : Nat := match key / 64 with | 4 | 6 => 0 | k => k

/-- Satellites with code that the filter uses (R192). -/
def codeSats (rs : List MeasRec) : List Nat :=
  distinct ((rs.filter fun r => bitOf r.quality 0 && !bitOf r.quality 5 && !bitOf r.quality 13 && !bitOf r.quality 15).map fun r => satKey r.signal r.sat)

/-- 4 satellites plus one per further system. -/
def enoughSats (sats : List Nat) : Bool := !sats.isEmpty && decide (3 + (distinct (sats.map clockGroup)).length ≤ sats.length)

/-- The nearest eligible ATMO reference (R233). -/
def atmoOf (s : State) (te : Nat) (pos : List Int) : Option Atmo :=
  let m (v : Int) : Int := roundDiv v 10000
  let ok := s.corr.atmo.filter fun a =>
    sourceOn s 4 && !alerted s a.node && decide (te ≤ a.time + ((s.corr.cfg.inForce.ages[5]?).getD 0) * 1000000000)
    && decide (distSq a.arp (pos.map m) ≤ (1000 * a.radius) ^ 2)
  ok.foldl (fun b a => match b with
    | none => some a
    | some x => some (if distSq a.arp (pos.map m) < distSq x.arp (pos.map m) then a else x)) none

/-- Satellites with atmospheric corrections of SSR or QDP. -/
def atmoSats (s : State) (te : Nat) (pos : List Int) (sats : List Nat) : List Nat :=
  let sysKey (e : Nat × Nat × Int × Nat) : Nat := 64 * (([0, 1, 2, 3, 4, 5][e.1]?).getD 63) + e.2.1
  let q := ((atmoOf s te pos).map fun a => a.entries.map sysKey).getD []
  sats.filter fun k => q.contains k || (sourceOn s 1 && s.corr.corrs.any fun c => c.source == 1 && c.kind == 4 && c.sat == k && corrUsable s te c)

def stationSats (s : State) (id : Option (Nat × Nat × Nat)) : List Nat :=
  ((s.corr.stations.find? fun t => id == some (stationId t)).bind fun t => t.obs.map (·.sats)).getD []

/-- The conditions of Table 8.8 without the fixing of ambiguities. -/
def modeOk (s : State) (te : Nat) (pos : List Int) (sats : List Nat) : Nat → Bool
  | 2 => enoughSats sats
  | 3 => enoughSats sats && s.corr.sbasNow != 0 && (s.corr.sbas.any fun b => b.sat == s.corr.sbasNow && b.current s.now)
      && sats.all fun k => s.corr.corrs.any fun c => c.source == 3 && c.sat == k && decide (te ≤ c.until_)
  | 4 => enoughSats sats && s.corr.dgnss.isSome && sats.all fun k => (stationSats s s.corr.dgnss).contains k
  | 5 => enoughSats sats && s.corr.orbSource != 0 && decide (5 ≤ (orbitSats s te s.corr.orbSource sats).length)
  | 6 | 7 => enoughSats sats && s.corr.rtk.isSome && decide (5 ≤ sats.countP fun k => (stationSats s s.corr.rtk).contains k)
  | 8 | 9 => enoughSats sats && s.corr.orbSource != 0 && decide (5 ≤ (orbitSats s te s.corr.orbSource sats).length) && decide (5 ≤ (atmoSats s te pos sats).length)
  | _ => false

/-- Fixed ambiguities at this epoch (R194): at least 5, and the ratio passes, or it has not failed 3 times in a row while they were fixed. -/
def fixedOk (s : State) (mode : Nat) (family : Bool) (f : NavFix) : Bool :=
  let pass := decide (((s.nav.cfg.inForce.arRatio : Nat) : Rat) / 256 ≤ f.ratio)
  decide (5 ≤ f.fixed) && (pass || (s.nav.mode == mode && family && decide (s.nav.ratioFail + 1 < 3)))

/-- The highest mode not above MODE_MAX whose conditions hold and that has a solution. -/
def selectMode (s : State) (te : Nat) (pos : List Int) (sats : List Nat) (same : Bool) (fixes : List (Nat × NavFix)) : Option (Nat × NavFix) :=
  ([9, 8, 7, 6, 5, 4, 3, 2].filter fun m => decide (m ≤ s.nav.cfg.inForce.modeMax)).findSome? fun m =>
    match fixes.find? fun f => f.1 == m with
    | some (_, f) =>
      if modeOk s te pos sats m && (if m = 7 ∨ m = 9 then fixedOk s m same f else true) then some (m, f) else none
    | none => none

/-! ### Fault detection and protection levels (R197–R199) -/

def qOf (vs : List Innovation) : Rat := (vs.map (·.value)).sum

/-- Exclude one satellite after another while the test fails: the satellites excluded, and whether it passes. -/
def fde (exp observed : Nat) : Nat → List Innovation → List Nat → List Nat × Bool
  | k, vs, out =>
    let pass := decide (qOf vs ≤ Config.chi2 (vs.length - observed) exp)
    if pass then (out, true)
    else match k with
      | 0 => (out, false)
      | k + 1 =>
        let sats := distinct (vs.map (·.sat))
        let without (x : Nat) : List Innovation := vs.filter fun v => v.sat != x
        match sats with
        | [] => (out, false)
        | x :: xs =>
          let best := xs.foldl (fun b y => if qOf (without y) < qOf (without b) then y else b) x
          fde exp observed k (without best) (out ++ [best])

def maxRat (a b : Rat) : Rat := if a < b then b else a

/-- HPL and VPL in mm, and whether every subset exists (R198). -/
def levels (c : NavCfg) (f : NavFix) : Rat × Rat × Bool :=
  let kff : Rat := (c.kff : Rat) / 256
  let kmd : Rat := (c.kmd : Rat) / 256
  let subs := f.subs.getD []
  (subs.foldl (fun a x => maxRat a (x.dH + kmd * x.sigmaH)) (kff * f.sigmaH), subs.foldl (fun a x => maxRat a (x.dV + kmd * x.sigmaV)) (kff * f.sigmaV), f.subs.isSome)

def sat16 (r : Rat) : Nat := min 65535 (roundRat r).toNat

/-- Excluded satellites count their epochs, and come back after 30 with 10 good residuals; new ones join (R197). -/
def updateExcluded (res : List (Nat × Rat)) (new : List Nat) (s : State) : State :=
  let es := s.nav.excluded.map fun e =>
    let good := match res.find? fun r => r.1 == e.sat with | some r => decide (absRat r.2 < 3) | none => false
    { e with out := e.out + 1, good := sinceCount good e.good }
  let back := es.filter fun e => decide (30 ≤ e.out) && decide (10 ≤ e.good)
  let s := s.modNav fun v => { v with excluded := (es.filter fun e => !back.contains e) ++ new.map fun k => { sat := k, out := 0, good := 0 } }
  let s := new.foldl (fun s k => s.navEvent 8 (k % 64) none) s
  back.foldl (fun s e => s.navEvent 9 (e.sat % 64) none) s

/-! ### Records (R206, R207) -/

/-- TIME and TSCALE of a record: which scale a record carries no rule says. -/
def recTime (dt : Nat) (s : State) : State × Nat × Nat :=
  let (s, v) := s.openVal 82
  let sc := v % 6
  match s.clock.scaleTime sc dt with
  | some t => (s, (t / nsUnit).toNat, sc)
  | none => (s, s.clock.gpsNs dt, 0)

/-- CORR_AGE: the largest age among the corrections used, in 0.1 s (R223). -/
def corrAge (s : State) (te : Nat) (mode : Nat) (sats : List Nat) : Nat :=
  let station (id : Option (Nat × Nat × Nat)) : List Nat := ((s.corr.stations.find? fun t => id == some (stationId t)).bind fun t => t.obs.map (·.time)).toList
  let held (src : Nat) : List Nat := (s.corr.corrs.filter fun c => c.source == src && sats.contains c.sat && corrUsable s te c).map (·.time)
  let times := match mode with
    | 3 => held 3
    | 4 => station s.corr.dgnss
    | 5 | 8 | 9 => held s.corr.orbSource
    | 6 | 7 => station s.corr.rtk
    | _ => []
  match times with
  | [] => 0xFFFF
  | t :: ts => min 65534 ((te - ts.foldl min t) / 100000000)

/-- DATUM (R196, R220). DESIGN CHOICE (log 36). -/
def datumOf (s : State) (mode : Nat) : Nat :=
  match mode with
  | 4 => if Config.dgnssDatum then 3 else 0
  | 6 | 7 => 3
  | 5 | 8 | 9 => if s.corr.orbSource = 1 then 1 else 2
  | _ => 0

/-- INTEGRITY (Table 8.14). -/
def integrityByte (s : State) (plValid : Bool) (hpl vpl : Nat) (fdeFail : Bool) (used : List Nat) (interf : Bool) : Nat :=
  let c := s.nav.cfg.inForce
  let gal := used.filter fun k => k / 64 == 1
  bit8 plValid 0 + bit8 (decide (c.hal < hpl)) 1 + bit8 (decide (c.val < vpl)) 2 + bit8 (!s.nav.excluded.isEmpty) 3 + bit8 fdeFail 4
    + bit8 (bitOf s.nav.spoof.actions 2) 5 + bit8 (!gal.isEmpty && gal.all (satAuth s)) 6 + bit8 interf 7

/-- INTEGRITY_ALARM at the first epoch with a cause, and when it clears after 10 epochs without one (R199). -/
def integrityAlarm (bad : Bool) (integ mode hpl vpl : Nat) (s : State) : State :=
  let n := s.nav
  let clear := if bad then 0 else n.alarmClear + 1
  let alarm := bad || (n.alarm && decide (clear < 10))
  let s := s.modNav fun v => { v with alarm := alarm, alarmClear := clear }
  if alarm = n.alarm then s else s.notify 0x8740 (s.beatBytes ++ u8 integ ++ u8 mode ++ u16 hpl ++ u16 vpl ++ rsv 2)

/-! ### Heading (R201) -/

/-- HEADING_VALID after an epoch. -/
def headingStep (s : State) (h : Option HeadFix) : State :=
  match s.nav.pairs.inForce.find? (·.heading) with
  | none => s.modNav fun v => { v with headingValid := false, headingLost := 0 }
  | some p =>
    let len := Config.fn .sqrt ((baselineSq s.nav.ants.inForce p.a p.b : Nat) : Rat)
    let tol := maxRat (len / 100) 5
    match h with
    | none => s.modNav fun v => { v with headingLost := v.headingLost + 1, headingValid := v.headingValid && decide (v.headingLost + 1 < 3) }
    | some x =>
      let lost := if x.common < 4 then s.nav.headingLost + 1 else 0
      let fix := decide (3 ≤ x.ratio) && decide (5 ≤ x.sats) && decide (absRat (x.length - len) ≤ tol)
      s.modNav fun v => { v with headingLost := lost, headingValid := (v.headingValid || fix) && decide (lost < 3) }

/-! ### The reference station (R234–R236) -/

def State.modRef (s : State) (f : RefStn → RefStn) : State := s.modCorr fun c => { c with ref := f c.ref }

/-- Split frames into groups of at most `n` frames and `size` bytes. -/
def groupFrames (n size : Nat) : List (List Byte) → List (List Byte) → List (List (List Byte))
  | [], cur => if cur.isEmpty then [] else [cur]
  | f :: fs, cur =>
    if cur.length < n ∧ (cur.map List.length).sum + f.length ≤ size then groupFrames n size fs (cur ++ [f])
    else if cur.isEmpty then groupFrames n size fs [f] else cur :: groupFrames n size fs [f]

/-- Frames go out as RTCM_OUT notices and QDP RTCM, on the paths of OUTPUT (R235). -/
def refSend (frames : List (List Byte)) (s : State) : State :=
  let out := s.corr.ref.epoch.inForce.2.2.2
  let s := if bitOf out 0 then
      (groupFrames 64 4068 frames []).foldl (fun s g => s.notify 0x8840 (s.beatBytes ++ u8 g.length ++ rsv 3 ++ g.flatten)) s
    else s
  if bitOf out 1 then
    (groupFrames 16 1372 frames []).foldl (fun s g => qdpSend 3 0xFFFF (fun _ => u16 s.corr.ref.stop.station ++ u8 g.length ++ rsv 1 ++ g.flatten) none s) s
  else s

/-- The station's state at an epoch: survey, run, and the MOVED check (R234, R236). DESIGN CHOICE (log 41). -/
def refEpoch (x : NavInput) (s : State) : State :=
  let s := s.modRef fun r => { r with epoch := r.epoch.latch }
  let r := s.corr.ref
  let en := r.epoch.inForce.1
  let s :=
    if !en then s.modRef fun r => { r with state := 0, spp := [] }
    else if r.state = 0 then
      match r.stop.posMode, r.saved with
      | 0, _ => s.modRef fun r => { r with state := 2, arp := r.stop.arp, last1005 := none, last1230 := none }
      | _, some a => s.modRef fun r => { r with state := 2, arp := a, last1005 := none, last1230 := none }
      | _, none => s.modRef fun r => { r with state := 1, since := s.now, weight := 0, sums := [0, 0, 0] }
    else s
  let s := match x.spp with
    | some p => s.modRef fun r => { r with spp := (r.spp.filter fun y => !s.passedMs y.1 60000) ++ [(s.now, p)] }
    | none => s
  let r := s.corr.ref
  if r.state = 2 ∧ !r.spp.isEmpty ∧ (r.spp.head?.map fun y => s.passedMs y.1 59000).getD false then
    let n : Int := r.spp.length
    let mean := (List.range 3).map fun i => (r.spp.map fun y => (y.2[i]?).getD 0).sum / n
    if 50000 ^ 2 < distSq mean r.arp then sendAlert (s.modRef fun r => { r with state := 3 }) else s
  else s

/-- A PVT record feeds the survey (R234). -/
def surveyRecord (r : NavRec) (s : State) : State :=
  if s.corr.ref.state ≠ 1 ∨ r.mode < 2 then s
  else
    let var : Rat := ((r.posSig.map fun (x : Nat) => x * x).sum : Nat)
    let w : Rat := if var ≤ 0 then 1 else 1 / var
    let s := s.modRef fun v => { v with weight := v.weight + w, sums := List.zipWith (fun a (p : Int) => a + w * p) v.sums r.pos }
    let v := s.corr.ref
    if s.passedMs v.since (1000 * v.stop.surveyTime) ∧ v.sigma ≤ v.stop.surveySig then
      let arp := v.sums.map fun a => roundRat (a / v.weight)
      s.modRef fun v => { v with state := 2, arp := arp, saved := some arp, last1005 := none, last1230 := none }
    else s

/-- Output of a running station at an epoch (R235). DESIGN CHOICE (log 41). -/
def refOutput (beat : Nat) (x : NavInput) (s : State) : State :=
  let r := s.corr.ref
  if r.state ≠ 2 ∨ s.nav.spoof.state = 2 ∨ s.nav.alarm then s
  else
    let due (t : Option Nat) : Bool := (t.map fun t => s.passedMs t 10000).getD true
    let obs := beat % obsBeats r.epoch.inForce.2.1 == 0
    let s := if obs then refSend x.ref.msm s else s
    let s := if due r.last1005 then refSend [x.ref.arp] (s.modRef fun r => { r with last1005 := some s.now }) else s
    let glo := s.fabric.chans.any fun c => c.2.tracking && sysOf c.2.act.signal == 3
    let s := if glo && due r.last1230 then refSend [x.ref.bias] (s.modRef fun r => { r with last1230 := some s.now }) else s
    let eph := (x.ref.eph.filter fun e => r.changed.contains e.1).map (·.2)
    let s := if eph.isEmpty then s else refSend eph (s.modRef fun r => { r with changed := [] })
    if obs && bitOf r.epoch.inForce.2.2.2 2 then qdpSend 4 0xFFFF (fun _ => x.ref.atmo) none s else s

/-! ### The epoch (R178–R181) -/

/-- The Epoch-coded settings take effect (R38, R179). -/
def latchEpoch (s : State) : State :=
  let s := s.modNav fun v =>
    { v with cfg := v.cfg.latch, ants := v.ants.latch, pairs := v.pairs.latch, fusion := v.fusion.latch, mpApply := v.mpApply.latch
             osnma := { v.osnma with cfg := v.osnma.cfg.latch } }
  let s := s.modCorr fun c => { c with cfg := c.cfg.latch }
  sealEpoch { s with grinder := { s.grinder with plan := s.grinder.plan.latch } }

/-- NAV_RESET at the first epoch after its commit (R209). -/
def navReset (kind : Nat) (s : State) : State :=
  let s := s.modNav fun v =>
    { v with resetDue := none, mode := 0, states := 0, svUsed := 0, excluded := [], ratioFail := 0, plValid := false, fdeFail := false, headingValid := false
             headingLost := 0, lastGnss := none, inputs := [], sets := if 1 ≤ kind then [] else v.sets, almanac := if 2 ≤ kind then [] else v.almanac
             rxTime := if 2 ≤ kind then none else v.rxTime, pvt := if 2 ≤ kind then none else v.pvt, fused := if 2 ≤ kind then none else v.fused
             lastFix := if 2 ≤ kind then none else v.lastFix }
  if 2 ≤ kind then
    let s := s.modDomain fun d => { d with prior := none }
    { s with grinder := { s.grinder with plan := .at AcqPlan.reset }
             nv := { s.nv with images := s.nv.images.map fun (o : Option SavedImage) => o.map fun i => { i with fix := none } } }
  else s

/-- Ephemerides and almanacs go to MRAM when they change, at most once per 60 s (R188). -/
def saveNav (s : State) : State :=
  if s.nav.saveDue && (s.nav.savedAt.map fun t => s.passedMs t 60000).getD true then
    { s.modNav (fun v => { v with savedAt := some s.now, saveDue := false }) with nv := { s.nv with almanac := s.nav.almanac, sets := s.nav.sets } }
  else s

/-- The record of an epoch from the mode and solution chosen. -/
def pvtRecord (beat te : Nat) (mode : Nat) (f : NavFix) (tracked : Nat) (head : Option HeadFix) (att : Bool) (plOk fdeFail : Bool) (hpl vpl integ : Nat) (s : State) : State × NavRec :=
  let dt := dtAt beat 0
  let (s, time, sc) := recTime dt s
  let hv := s.nav.headingValid
  let flags := bit8 (decide (1 ≤ mode)) 0 + bit8 (hv || att) 2 + bit8 (hv || att) 3 + bit8 (mode == 7 || mode == 9) 4 + bit8 s.clock.valid 5 + bit8 (decide (2 ≤ mode)) 6
  let _ := plOk
  let _ := fdeFail
  (s, { dt := BitVec.ofNat 64 dt, epoch := s.nv.epoch, gen := s.clock.genAt dt, mode := mode, flags := flags, time := time, pos := f.pos, vel := f.vel
        posSig := f.posSig.map sat16, velSig := sat16 f.velSig, hpl := hpl, vpl := vpl, clkBias := clampI (-2147483648) 2147483647 (roundRat (f.clkBias * 100))
        clkDrift := clampI (-2147483648) 2147483647 (roundRat (f.clkDrift * 1000000000000)), heading := (head.map (·.heading % 36000)).getD 0
        pitch := clampI (-9000) 9000 ((head.map (·.pitch)).getD 0), headSig := (head.map fun h => min 65535 h.sigma).getD 0, svUsed := f.used.length, svTracked := tracked
        integrity := integ, datum := datumOf s mode, corrAge := corrAge s te mode f.used, pdop := sat16 (f.pdop * 100), tscale := sc })

/-- What a record of MODE 0 holds no rule says: every number of it is free. DESIGN CHOICE (log 36). -/
def noFix (stamp : Nat) : NavFix :=
  let i (n : Nat) : Int := ((Config.openWord (83 + 100 * n) stamp).toNat : Int)
  let r (n : Nat) : Rat := Config.openRat (83 + 100 * n) stamp
  { pos := [i 0, i 1, i 2], vel := [i 3, i 4, i 5], posSig := [r 0, r 1, r 2], velSig := r 3, sigmaH := r 4, sigmaV := r 5, subs := none, clkBias := r 6
    clkDrift := r 7, clkSigma := r 8, pdop := r 9, used := [], states := 0, observed := 0, innovations := [], residuals := [], ratio := 0, fixed := 0, timeE := 0, timeY := 0 }

/-- DR (Table 8.8): the fusion state is valid and within DR_PL_MAX of the last GNSS update. DEDUCED (log 37). -/
def drOk (s : State) : Bool :=
  s.nav.fusion.inForce.enable != 0 && (s.nav.lastGnss.map fun t => !s.passedMs t (1000 * s.nav.fusion.inForce.drPlMax)).getD false

/-- The filter update, tests, records and predictions of an epoch that is not skipped. -/
def updateEpoch (beat : Nat) (x : NavInput) (rs : List MeasRec) (s : State) : State :=
  let te := (s.nav.rxTime.getD (s.clock.gpsNs (dtAt beat 0)))
  let c := s.nav.cfg.inForce
  let sats := codeSats rs
  let pos := (x.spp.orElse fun _ => s.nav.pvt.map (·.pos)).getD [0, 0, 0]
  let oldRtk := s.corr.rtk
  let oldOrb := s.corr.orbSource
  let s := updateSources te pos sats s
  let same := decide (oldRtk = s.corr.rtk) && decide (oldOrb = s.corr.orbSource)
  let was := s.nav.mode
  let dr := x.fixes.find? fun f => f.1 == 1
  let (s, stamp) := s.fresh
  let (mode, f) := match selectMode s te pos sats same x.fixes, dr with
    | some (m, f), _ => (m, f)
    | none, some (_, f) => if drOk s then (1, f) else (0, noFix stamp)
    | none, none => (0, noFix stamp)
  let gnss := decide (2 ≤ mode)
  let pass := decide (((c.arRatio : Nat) : Rat) / 256 ≤ f.ratio)
  let wasFixed := was == 7 || was == 9
  let isFixed := mode == 7 || mode == 9
  let s := s.modNav fun v =>
    { v with mode := mode, svUsed := f.used.length, states := min 256 f.states, lastGnss := if gnss then some (dtAt beat 0) else v.lastGnss
             ratioFail := if isFixed && !pass then v.ratioFail + 1 else 0 }
  let s := headingStep s x.heading
  -- NAV_EVENT notices of the epoch
  let s := if mode = was then s else s.navEvent 2 0 (some mode)
  let s := if isFixed && !wasFixed then s.navEvent 3 0 (some f.fixed) else s
  let s := if wasFixed && !isFixed then s.navEvent 4 0 none else s
  let (out, ok) := if gnss then fde c.faExp f.observed c.fdeMax f.innovations [] else ([], true)
  let s := updateExcluded f.residuals out s
  let (hplMm, vplMm, subsOk) := if gnss then levels c f else ((c.kff : Rat) / 256 * f.sigmaH, (c.kff : Rat) / 256 * f.sigmaV, mode == 1)
  let plOk := (gnss && subsOk && ok) || (mode == 1 && drOk s)
  let hpl := sat16 (hplMm / 10)
  let vpl := sat16 (vplMm / 10)
  let interf := rs.any fun r => bitOf r.quality 7 && f.used.contains (satKey r.signal r.sat)
  let integ := integrityByte s plOk hpl vpl (!ok) f.used interf
  let cleared := s.nav.plValid && !plOk
  let s := s.modNav fun v => { v with plValid := plOk, fdeFail := !ok }
  let s := integrityAlarm (decide (c.hal < hpl) || decide (c.val < vpl) || !ok || cleared || (s.nav.alarm && !plOk)) integ mode hpl vpl s
  let tracked := (distinct (rs.map fun r => satKey r.signal r.sat)).length
  -- reported time (R247, R248)
  let fixSrc : Option SourceFix := if gnss && decide (f.clkSigma ≤ s.clock.cfg.committed.validSig) && !s.timeHold then some { e := f.timeE, y := f.timeY, sigma := f.clkSigma } else none
  let s := s.modClock fun k => { k with gnss := fixSrc }
  let s := s.evalTime (dtAt beat 0) fixSrc (ptpFix s 0 (dtAt beat 0)) (ptpFix s 1 (dtAt beat 0))
  let (s, r) := pvtRecord beat te mode f tracked x.heading x.attitude plOk (!ok) hpl vpl integ s
  let r := if s.corr.ref.state = 2 then { r with pos := s.corr.ref.arp } else r
  let s := s.modNav fun v => { v with pvt := some r, lastFix := if r.mode = 0 then v.lastFix else some r, produced := v.produced + 1, spoof := { v.spoof with jumpZ := if gnss then x.jumpZ else none } }
  let s := if c.pvtDecim ≠ 0 ∧ s.nav.produced % c.pvtDecim = 0 then s.notify 0x8720 r.bytes else s
  let s := autoSeal 0 r s
  -- predictions (R143) and exclusions that channels in SKY obey
  let s := { s with tracking := { s.tracking with
    preds := x.preds.foldl (fun t (p : Nat × Prediction) => Tab.set none t p.1 (some p.2)) s.tracking.preds
    excluded := (s.fabric.chans.filter fun ch => !ch.2.idle && excludedSat s ch.2.satKey).map (·.1) } }
  let s := refEpoch x s
  refOutput beat x (surveyRecord r s)

/-- The active core writes its checkpoint to the standby core (R181). -/
def checkpoint (s : State) : State := { s with boot := { s.boot with navSwap := s.boot.navSwap.map fun w => { w with ready := true } } }

/-- Epoch k at the boundary that opens beat k + 2 (R179). -/
def navEpoch (x : NavInput) (s : State) : State :=
  let b := s.time.beat
  if !s.navRuns || s.time.tick != 0 || decide (b < 2) || (b - 2) % measBeats s.nav.cfg.inForce.rate != 0 then s
  else
    let s := latchEpoch s
    let k := b - 2
    if k % measBeats s.nav.cfg.inForce.rate ≠ 0 then s
    else
      let s := match s.nav.resetDue with | some kind => navReset kind s | none => s
      let rx := rxTimeAt s k x.obs
      let (s, rs) := measureAll k (((rx.getD 0 : Nat)) : Rat) x.obs s
      let s := s.modNav fun v => { v with rxTime := rx }
      let s := testPairs k x.aoa s
      let s := refreshFlags true s
      let dt := dtAt k 0
      let m : MeasEpoch :=
        { beat := k, epoch := s.nv.epoch, gen := s.clock.genAt dt, flags := bit8 s.clock.valid 0 + bit8 s.nav.skip 1, unc := s.clock.uncField dt, rxTime := rx.getD 0, recs := rs }
      let s := sendMeas (s.modNav fun v => { v with meas := some m }) m
      let s := updateOsnma s.nav.osnma.lastKey s
      let s := if s.nav.skip then s.modNav fun v => { v with skip := false } else updateEpoch k x rs s
      checkpoint (saveNav s)

def execNavEpoch (x : NavInput) (s : State) : Host.Outcome State Fault Refusal := .next (navEpoch x s)

/-- The deadline of an epoch whose computation has not finished (R180). -/
def execNavDeadline (s : State) : Host.Outcome State Fault Refusal :=
  .next (
    if s.live && s.on 9 then
      (s.modNav fun v => { v with skip := true, overruns := sat32 (v.overruns + 1) }).navEvent 1 0 none
    else s)

/-- A fused epoch at the boundary FUSE_WAIT beats after it (R204). -/
def execFusedEpoch (x : FusedFix) (s : State) : Host.Outcome State Fault Refusal :=
  .next (
    let c := s.nav.cfg.inForce
    let u := s.nav.fusion.inForce
    let b := s.time.beat
    let m := b - u.fuseWait
    let fb := fuseBeats c.fuse
    if !s.navRuns || fb == 0 || u.enable == 0 || s.time.tick != 0 || decide (b < u.fuseWait) || m % fb != 0 then s
    else
      let dt := dtAt m 0
      let (s, time, sc) := recTime dt s
      let hpl := sat16 ((c.kff : Rat) / 256 * x.sigmaH / 10)
      let vpl := sat16 ((c.kff : Rat) / 256 * x.sigmaV / 10)
      let att := bitOf u.enable 0 && !s.nav.imu.lost
      let hv := s.nav.headingValid || att
      let r : NavRec :=
        { dt := BitVec.ofNat 64 dt, epoch := s.nv.epoch, gen := s.clock.genAt dt, mode := x.mode
          flags := bit8 (decide (1 ≤ x.mode)) 0 + 2 + bit8 hv 2 + bit8 hv 3 + bit8 (x.mode == 7 || x.mode == 9) 4 + bit8 s.clock.valid 5
          time := time, pos := x.pos, vel := x.vel, posSig := x.posSig.map sat16, velSig := sat16 x.velSig, hpl := hpl, vpl := vpl
          clkBias := clampI (-2147483648) 2147483647 (roundRat (x.clkBias * 100)), clkDrift := clampI (-2147483648) 2147483647 (roundRat (x.clkDrift * 1000000000000))
          heading := x.heading % 36000, pitch := clampI (-9000) 9000 x.pitch, headSig := min 65535 x.headSig, svUsed := s.nav.svUsed
          svTracked := ((s.nav.meas.map fun e => (distinct (e.recs.map fun q => satKey q.signal q.sat)).length).getD 0)
          integrity := integrityByte s (s.nav.plValid && (x.mode != 1 || drOk s)) hpl vpl s.nav.fdeFail [] false, datum := datumOf s x.mode
          corrAge := ((s.nav.pvt.map (·.corrAge)).getD 0xFFFF), pdop := ((s.nav.pvt.map (·.pdop)).getD 65535), tscale := sc }
      autoSeal 1 r ((s.modNav fun v => { v with fused := some r, lastFix := if r.mode = 0 then v.lastFix else some r }).notify 0x8730 r.bytes))

end Sys2Proof.Machine
end

