-- ==== Sys2Proof/Machine/Replay.lean ====
section
/-! DEFINITION. Reprocessing of a Carafe window (R297–R300): CARAFE_REPLAY, its channels and REPLAY_DONE. -/

namespace Sys2Proof.Machine
open Sys2Proof

/-- A device ledger entry of a replay (R297, step 1): the plan of a signal and satellite under the fields that the rule fixes. -/
def replayEntry (w first : Nat) (groups : BitVec 32) (next : Nat) (plan : List Byte) : Entry :=
  { entryOf next plan with
    state := .pending, priority := 2, source := 0x10 + w, startBeat := first, target := 0xFFFF, groupMask := groups }

/-- Write one entry of a replay. -/
def placeEntry (w first : Nat) (groups : BitVec 32) (n : Nat) (plan : List Byte) (s : State) : State :=
  s.setEntry n { replayEntry w first groups (s.time.beat + 1) plan with doneBeat := s.time.beat % 65536 }

/-- Write the entries of a replay into FREE device entries, lowest first; the entry numbers written. DESIGN CHOICE (log 48). -/
def placeEntries (w first : Nat) (groups : BitVec 32) (plans : List (List Byte)) (s : State) : State × List Nat :=
  let ns := ((List.range 8192).filter fun n => decide ((s.entry n).state = .free)).take plans.length
  ((ns.zip plans).foldl (fun s x => placeEntry w first groups x.1 x.2 s) s, ns)

/-- DESIGN CHOICE (log 48). -/
def carafeReplay (plans : List (List Byte)) (q : Qcp) (s : State) : State × Reply :=
  let w := q.u 0 1
  let first := (s.window w).first
  let groups := BitVec.ofNat 32 (q.u 4 4)
  let (s, ns) := placeEntries w first groups plans s
  let r : Replay :=
    { window := w, sealIt := q.u 1 1 == 1, groups := groups, offset := ((s.time.beat + q.u 2 2 : Nat) : Int) - first, entries := ns }
  ((s.modWindow w fun v => { v with state := .replaying }).modCarafe fun c => { c with replay := some r }, .ok [])

def carafeReplayCmd (plans : List (List Byte)) : HostCmd :=
  { opcode := 0x0B20, len := .fixed 8, priv := 1
    range := fun q _ => [(0, q.u 0 1 ≤ 7), (1, q.u 1 1 ≤ 1), (2, 50 ≤ q.u 2 2 && q.u 2 2 ≤ 1000), (4, q.u 4 4 != 0)]
    state := fun q s => [s.carafe.replay.isNone, decide ((s.window (q.u 0 1)).state = .frozen)]
    effect := carafeReplay plans }

def execCarafeReplay (q : Qcp) (plans : List (List Byte)) (s : State) : Host.Outcome State Fault Refusal := runHost (carafeReplayCmd plans) q s

/-- The source beats of the window have all been processed (R297, step 5). -/
def replayOver (r : Replay) (s : State) : Bool := decide (((s.window r.window).last : Int) < (s.time.beat : Int) - r.offset)

/-- Stop every channel that runs on a window. -/
def stopWindow (w : Nat) (s : State) : State :=
  s.fabric.chans.foldl (fun s c =>
    if c.2.act.subband / 4 == 8 + w || ((c.2.claim.map fun k => k.desc.subband / 4 == 8 + w).getD false) then stopChan s c.1 else s) s

/-- At the boundary after the last source beat every window channel is forced IDLE (R297, step 5). -/
def replayBoundary (s : State) : State :=
  match s.carafe.replay with
  | some r => if replayOver r s then stopWindow r.window s else s
  | none => s

/-- A stored record propagated by its velocity to a DT (R298): ECEF, 0.1 mm. -/
def propagated (r : NavRec) (dt : Nat) : List Int :=
  List.zipWith (fun p v => p + roundDiv (v * ((dt : Int) - r.dt.toNat) * 10) (64 * 1000000000)) r.pos r.vel

def dot (a b : List Rat) : Rat := (List.zipWith (· * ·) a b).sum

/-- The horizontal distance in 0.1 mm: what lies across the normal of the WGS 84 ellipsoid at the second position. DESIGN CHOICE (log 48). -/
def horizDist (a b : List Int) : Rat :=
  let d := List.zipWith (fun x y => ((x - y : Int) : Rat)) a b
  let n : List Rat := List.zipWith (fun (x : Int) (k : Rat) => (x : Rat) * k) b [1, 1, 100673949674 / 100000000000]
  let nn := dot n n
  let up2 := if nn = 0 then 0 else dot d n * dot d n / nn
  Config.fn .sqrt (dot d d - up2)

/-- The square of σ_H: east and north σ, mm. -/
def sigmaH2 (r : NavRec) : Nat := ((r.posSig[0]?).getD 0) ^ 2 + ((r.posSig[1]?).getD 0) ^ 2

/-- DIST ≤ 3 × sqrt(σ_H,live² + σ_H,replay²), in 0.1 mm (R299). -/
def agrees (dist : Rat) (live new : NavRec) : Bool := decide (dist * dist ≤ 900 * ((sigmaH2 live + sigmaH2 new : Nat) : Rat))

/-- The re-solved record at the target epoch: one MODE 2 solution with fault detection and protection levels (R298). DESIGN CHOICE (log 48). -/
def resolvedRecord (beat : Nat) (f : NavFix) (tracked : Nat) (s : State) : State × NavRec :=
  let c := s.nav.cfg.inForce
  let (_, ok) := fde c.faExp f.observed c.fdeMax f.innovations []
  let (hpl, vpl, subs) := levels c f
  let hpl := sat16 (hpl / 10)
  let vpl := sat16 (vpl / 10)
  let plOk := subs && ok
  pvtRecord beat (s.clock.gpsNs (dtAt beat 0)) 2 f tracked none false plOk (!ok) hpl vpl (integrityByte s plOk hpl vpl (!ok) f.used false) s

/-- The 24 bytes ahead of the record of REPLAY_DONE (R301). -/
def replayHead (s : State) (w status used : Nat) (agree : Bool) (dist ctr : Nat) : List Byte :=
  s.beatBytes ++ u8 w ++ u8 status ++ u8 used ++ ub agree ++ u32 dist ++ u64 ctr

/-- The window is FROZEN again and no replay runs. -/
def endReplay (w : Nat) (s : State) : State :=
  (s.modWindow w fun v => { v with state := .frozen }).modCarafe fun c => { c with replay := none }

/-- The end of a replay without a fix: the record's bytes are free. DESIGN CHOICE (log 48). -/
def replayNone (r : Replay) (status : Nat) (s : State) : State :=
  let (s, bs) := s.openBytes 96
  (endReplay r.window s).notify 0x8B20 (replayHead s r.window status 0 false 0 0 ++ bs)

/-- A navigation swap or a freeze of the standby core aborts the replay (R300). -/
def abortReplay (s : State) : State :=
  match s.carafe.replay with
  | none => s
  | some r =>
    let s := r.entries.foldl (fun s n =>
      if (s.entry n).source ≠ 0x10 + r.window then s
      else if (s.entry n).state = .active then s.setEntry n { s.entry n with cancel := true } else failWaiting n 8#8 s) s
    replayNone r 2 (stopWindow r.window s)

/-- REPLAY_DONE: the re-solved fix is compared with the stored record, and sealed on request (R299). DESIGN CHOICE (log 48). -/
def replayDone (fix : Option NavFix) (tracked : Nat) (s : State) : State :=
  match s.carafe.replay with
  | none => s
  | some r =>
    if !s.live || !replayOver r s then s
    else
      let s := stopWindow r.window s
      let k := (s.window r.window).trigBeat + 1
      match fix with
      | none => replayNone r 1 s
      | some f =>
        if !enoughSats f.used then replayNone r 1 s
        else
          let (s, rec_) := resolvedRecord k f tracked s
          let (s, dist, agree) := match (s.window r.window).live with
            | some v => let d := horizDist rec_.pos (propagated v (dtAt k 0)); (s, (roundRat (d / 100)).toNat, agrees d v rec_)
            | none => let (s, x) := s.openVal 53; let (s, y) := s.openVal 53; (s, x % 2 ^ 32, decide (y % 2 = 1))
          let (s, ctr) := if r.sealIt then resolvedSeal rec_ s else (s, 0)
          (endReplay r.window s).notify 0x8B20 (replayHead s r.window 0 f.used.length agree (min 0xFFFFFFFF dist) ctr ++ rec_.bytes)

def execReplayDone (fix : Option NavFix) (tracked : Nat) (s : State) : Host.Outcome State Fault Refusal := .next (replayDone fix tracked s)

end Sys2Proof.Machine
end

