-- ==== Sys2Proof/Machine/Power.lean ====
section
/-! DEFINITION. Power domains, device power states and their commands (R450–R455, R469, R470, R507). -/

namespace Sys2Proof.Machine
open Sys2Proof

/-! ### Domain requirements (Table 20.1) -/

/-- The domains that a domain requires on. -/
def domainNeeds (n : Nat) : List Nat :=
  match n with
  | 3 | 4 | 5 | 6 | 7 | 8 | 9 | 12 => [2, 13, 15]
  | 10 => [2, 15]
  | 11 | 13 | 15 => [2]
  | 14 => [2, 13]
  | _ => []

/-- Every domain of a set has what it requires. -/
def setMeetsNeeds (d : BitVec 16) : Bool := (List.range 16).all fun n => !d.getLsbD n || (domainNeeds n).all fun m => d.getLsbD m

/-- A channel is not IDLE, or a claim waits for it. -/
def anyChannel (s : State) : Bool := s.fabric.chans.any fun c => !c.2.idle || c.2.claim.isSome

/-- The condition of Table 20.1 under which a domain may not go off; the lane domains are checked against R116. -/
def domainBusy (n : Nat) (s : State) : Bool :=
  match n with
  | 3 => (List.range 4).any fun i => decide ((s.input i).state ≠ .off)
  | 4 => (List.range 4).any fun i => decide ((s.input (4 + i)).state ≠ .off)
  | 7 => anyActive s
  | 8 => anyChannel s
  | 9 => anyChannel s || s.corr.ref.state == 1 || s.corr.ref.state == 2 || s.carafe.replay.isSome
  | 10 => s.uc.state != .stopped
  | 11 => (s.cipher.units.any fun u => !u.requests.isEmpty) || !s.sealing.jobs.isEmpty
  | 12 => s.eth.any fun p => p.cfg.enable
  | 14 =>
    ((List.range 6).any fun i => (s.transport (2 + i)).enable || (s.uart i).card.active) || s.nav.fusion.inForce.enable != 0
      || s.periph.cans.any fun c => c.cfg.enable
  | 15 => s.mem.banks.any fun b => b.ownerA != 0xFF || b.ownerB != 0xFF
  | _ => false

/-- Domains on in the first set and off in the second. -/
def goingOff (a b : BitVec 16) : List Nat := (List.range 16).filter fun n => a.getLsbD n && !b.getLsbD n

/-- The lane limit that remains covers the admitted total (R116). DEDUCED (log 30). -/
def lanesFit (d : BitVec 16) (s : State) : Bool := decide (s.admitted ≤ limitFor (d.getLsbD 5) (d.getLsbD 6))

/-! ### A domain goes off and comes on (R451) -/

/-- An input's blocks from reset: its settings stay, its alignment is lost (R47). DEDUCED (log 84). -/
def SampleInput.restart (i : SampleInput) : SampleInput := { SampleInput.reset with cfg := i.cfg }

/-- The running state of the navigation cores is lost; what commands wrote stays. DEDUCED (log 84). -/
def NavSys.restart (v : NavSys) : NavSys :=
  { NavSys.reset with
    mpCfg := v.mpCfg, mpApply := v.mpApply, cfg := v.cfg, ants := v.ants, pairs := v.pairs, fusion := v.fusion, active := v.active
    spoof := { Spoof.reset with cfg := v.spoof.cfg }, osnma := { Osnma.reset with cfg := v.osnma.cfg } }

def CorrSys.restart (c : CorrSys) : CorrSys :=
  { CorrSys.reset with
    cfg := c.cfg, domain := { Domain.reset with cfg := c.domain.cfg, seq := c.domain.seq }
    ref := { RefStn.reset with stop := c.ref.stop, epoch := c.ref.epoch, saved := c.ref.saved } }

/-- DEDUCED (log 84). -/
def EthPort.restart (p : EthPort) : EthPort :=
  { EthPort.reset with cfg := p.cfg, lat := p.lat, ptp := { Ptp.reset with enable := p.ptp.enable, stop := p.ptp.stop, cfg := p.ptp.cfg } }

def Uart.restart (u : Uart) : Uart :=
  { Uart.reset with
    owner := u.owner, tx := u.tx, rx := u.rx
    card := { UartCard.reset with enable := u.card.enable, clkdiv := u.card.clkdiv, protocol := u.card.protocol, cfgConv := u.card.cfgConv, pps := u.card.pps } }

/-- DEDUCED (log 84). -/
def Periph.restart (p : Periph) : Periph :=
  { Periph.reset with
    uarts := p.uarts.map Uart.restart, imuCfg := p.imuCfg, cans := p.cans.map fun c => { CanPort.reset with cfg := c.cfg }
    canMap := p.canMap.map fun e => { e with value := none }, wtCfg := p.wtCfg
    gpio := p.gpio.map fun g => { GpioPin.reset with owner := g.owner, dir := g.dir, pull := g.pull, edge := g.edge, notify := g.notify, minWidth := g.minWidth } }

/-- A bank as PD15 leaves it: off, contents lost, settings kept. -/
def Bank.lose (b : Bank) : Bank :=
  { b with state := .off, moving := none, held := none, drainA := none, drainB := none, shadowed := false, stamp := 0 }

/-- Every bank but the listed ones loses its owner and its contents; the listed ones keep both in retention (R453). -/
def retainBanks (keep : List Nat) (s : State) : State :=
  { s with mem := { s.mem with
      cells := s.mem.cells.filter fun c => keep.contains (c.1 / bankBytes), upsets := s.mem.upsets.filter fun u => keep.contains (u.1 * 8 / bankBytes)
      banks := s.mem.banks.mapIdx fun n (b : Bank) =>
        if keep.contains n then { b with state := .retention, moving := none, held := none, drainA := none, drainB := none }
        else { b.lose with ownerA := 0xFF, ownerB := 0xFF, use := .none } } }

/-- The banks return to the power states that MB_CFG set. -/
def restoreBanks (s : State) : State :=
  { s with mem := { s.mem with
      cells := s.mem.cells.filter fun c => decide ((s.bank (c.1 / bankBytes)).power ≠ .off)
      banks := s.mem.banks.map fun (b : Bank) => { b with state := b.power } } }

def stopCores (ns : List Nat) (s : State) : State := ns.foldl (fun s n => s.modCore n fun _ => Core.reset) s

/-- A vendor core starts its firmware: no rule gives its entry address. DESIGN CHOICE (log 62). -/
def startVendor (n : Nat) (s : State) : State :=
  let (s, pc) := s.openVal 98
  startCore n (BitVec.ofNat 32 pc) 0 s

def State.modBoot (s : State) (f : BootInfo → BootInfo) : State := { s with boot := f s.boot }

def State.bindGroups (s : State) (m : List (Nat × Nat)) : State :=
  { s with fabric := { s.fabric with binding := s.fabric.binding.mapIdx fun g c => ((m.find? fun x => x.1 == g).map (·.2)).getD c } }

/-- The groups of a loop core's own binding (R13). -/
def homeGroups (core : Nat) : List (Nat × Nat) := ((List.range 32).filter fun g => g / 8 == core).map fun g => (g, core)

/-- RESULT of LOOP_SWAP (R482). -/
def loopResult (status : Nat) (w : LoopSwap) (back : Nat) : List Byte :=
  u8 status ++ u8 w.core ++ rsv 2 ++ u32 ((w.outBeat.getD back) % 2 ^ 32) ++ u32 (back % 2 ^ 32) ++ u32 w.missed.length

/-- RESULT of NAV_SWAP (R482). -/
def navResult (status : Nat) (s : State) : List Byte := u8 status ++ u8 s.nav.active ++ rsv 2 ++ u32 (s.time.beat % 2 ^ 32)

/-- Power-off of PD8 ends the loop swaps: ABORTED, with the binding of before (R479, R482). -/
def endLoopSwaps (s : State) : State :=
  let ws := s.boot.loopSwaps
  let s := s.modBoot fun b => { b with loopSwaps := [] }
  ws.foldl (fun s w =>
    let s := s.bindGroups (homeGroups w.core)
    match w.origin with
    | some o => s.complete o stOk (loopResult 1 w s.time.beat)
    | none => s) s

/-- Power-off of PD9, or an abort of a navigation core, ends the swap: ABORTED. -/
def endNavSwap (s : State) : State :=
  match s.boot.navSwap with
  | some w =>
    let s := s.modBoot fun b => { b with navSwap := none }
    match w.origin with
    | some o => s.complete o stOk (navResult 1 s)
    | none => s
  | none => s

/-- Domain n goes off: its blocks lose their state; the configuration that commands wrote stays in PD2. DEDUCED (log 20, 51, 84). -/
def domainOff (s : State) (n : Nat) : State :=
  let s := s.setDomains (s.power.domains &&& ~~~(1#16 <<< n))
  match n with
  | 3 => (List.range 4).foldl (fun s i => s.modInput i SampleInput.restart) s
  | 4 => (List.range 4).foldl (fun s i => s.modInput (4 + i) SampleInput.restart) s
  | 5 | 6 => if s.on 5 || s.on 6 then s else { s with fabric := { s.fabric with codes := [], chans := [], slot := [] } }
  | 7 =>
    { s with grinder := { Grinder.reset with
        workFirst := s.grinder.workFirst, workBanks := s.grinder.workBanks, placed := s.grinder.placed, reserve := s.grinder.reserve, age := s.grinder.age
        plan := s.grinder.plan } }
  | 8 =>
    let s := endLoopSwaps s
    let s : State := { s with tracking := { s.tracking with
      tracks := s.tracking.tracks.map fun (t : Nat × Track) => (t.1, { Track.reset with profile := t.2.profile }), preds := [], flagged := [], excluded := [] } }
    stopCores [1, 2, 3, 4] (s.modNav fun v => { v with mp := [] })
  | 9 =>
    let s := endNavSwap s
    let s := (s.modNav NavSys.restart).modCorr CorrSys.restart
    stopCores [5, 6] (s.modClock fun c => { c with gnss := none })
  | 10 =>
    let s := s.modUc fun u => { UcBlock.reset with wdog := u.wdog, svcMask := u.svcMask, bankLimit := u.bankLimit }
    stopCores [7] (s.dropTransport 10)
  | 11 => (cipherOff s).modSeal fun v => { v with jobs := [] }
  | 12 => (({ s with eth := s.eth.map EthPort.restart }).dropTransport 8).dropTransport 9
  | 13 => { s with time := { s.time with running := false } }
  | 14 => ((List.range 6).foldl (fun s i => s.dropTransport (2 + i)) s).modPeriph Periph.restart
  | 15 =>
    { s with mem := { s.mem with
        cells := [], upsets := [], banks := s.mem.banks.map Bank.lose, march := none
        dma := s.mem.dma.mapIdx fun i (c : DmaChan) => { DmaChan.reset i with master := c.master, classMax := c.classMax } } }
  | _ => s

/-- Domain n comes on: its blocks start from reset with the configuration reapplied. DEDUCED (log 20, 84). -/
def domainOn (s : State) (n : Nat) : State :=
  let s := s.setDomains (s.power.domains ||| (1#16 <<< n))
  match n with
  | 8 => [1, 2, 3, 4].foldl (fun s i => startVendor i s) s
  | 9 => [5, 6].foldl (fun s i => startVendor i s) s
  | 11 => if s.sealing.cfg.enable then deriveSeal s.sealing.cfg s else s
  | 13 => { s with time := { s.time with running := true } }
  | 15 => restoreBanks s
  | _ => s

/-- The order in which domains come on: PD2, PD13, PD15, then the rest in ascending number. -/
def powerOrder : List Nat := [2, 13, 15, 3, 4, 5, 6, 7, 8, 9, 10, 11, 12, 14]

/-- Switch to a set of domains: on in order, then off in the reverse order (R451). -/
def applyDomains (d : BitVec 16) (s : State) : State :=
  let s := (powerOrder.filter fun n => d.getLsbD n && !s.on n).foldl domainOn s
  (powerOrder.reverse.filter fun n => !d.getLsbD n && s.on n).foldl domainOff s

/-! ### Transitions (R453, R454) -/

def PowerState.code : PowerState → Nat
  | .run => 0
  | .watch => 1
  | .parked => 2

def StartCause.code : StartCause → Nat
  | .powerOn => 0
  | .resetN => 1
  | .rule => 2
  | .command => 3
  | .watchdog => 4
  | .refinLoss => 5

/-- REF is captured at every entry to WATCH or PARKED and at every wake (R463). -/
def captureRef (s : State) : State := { s with perc := { s.perc with ref := s.perc.acc } }

/-- Enter a power state: the registers of PD0, the trip log and POWER_EVENT (R467, R470). -/
def enterState (st : PowerState) (cause : StartCause) (rule : Nat) (s : State) : State :=
  let p : Power := s.power
  let s : State := { s with power := { p with
    state := st, prev := p.state, rule := rule, transitions := sat32 (p.transitions + 1), lastDt := s.time.dt
    wakeCause := if p.state = PowerState.run then p.wakeCause else cause
    wake := if st = PowerState.run ∧ p.wakeUntilRun then false else p.wake, wakeUntilRun := if st = PowerState.run then false else p.wakeUntilRun } }
  let s := if st = p.state then s else s.logTrip 2 (some st.code) none
  s.notify 0x8110 (s.beatBytes ++ u8 st.code ++ u8 p.state.code ++ u8 cause.code ++ u8 rule ++ u16 s.power.domains.toNat ++ rsv 2)

/-- The set of WATCH. -/
def watchSet : BitVec 16 := 0xA005
/-- The set of RUN with every domain on; PD1 is powered only while the MRAM is accessed. -/
def fullSet : BitVec 16 := 0xFFFD

/-- Cipher operations end with ST_STATE and are scrubbed (R406, R453). -/
def endCipher (s : State) : State :=
  let s := abortWhere (fun _ => true) stState s
  (List.range 8).foldl (fun s n =>
    let s := endMarked n s
    match (s.unit n).running with
    | some r => failOp n r stState 0 s
    | none => s) s

/-- Every channel becomes IDLE. -/
def endChannels (s : State) : State :=
  let live := (s.fabric.chans.filter fun c => !c.2.idle).map (·.1)
  let s : State := { s with fabric := { s.fabric with
    chans := s.fabric.chans.map fun (c : Nat × Chan) => (c.1, { Chan.reset with prev := { c.2.prev with desc := c.2.act }, seq := c.2.seq }), slot := [] } }
  let s := live.foldl (fun s n => s.setTrack n { Track.reset with profile := (s.track n).profile, reason := 0x02, stateBeat := s.time.beat }) s
  chanStateNotices live s

/-- The descent of FORCE = 1 (R453). -/
def descent (s : State) : State :=
  let s := if s.uc.state = .stopped then s else (stopUc s).ucEvent 2 none
  let s := endChannels s
  let s := s.grinder.entries.foldl (fun s e =>
    if (s.entry e.1).state = .active then moveEntry e.1 .failed 8#8 s else failWaiting e.1 8#8 s) s
  let s := { s with grinder := { s.grinder with pipes := [none, none, none, none] } }
  let s := loseCarafe (abortReplay s)
  let s : State := { s with subbands := s.subbands.map fun (b : Subband) => { b with cfg := .at { b.cfg.committed with enable := false }, ring := none } }
  let s := (List.range 8).foldl (fun s i => (s.moveInput i .off).modInput i SampleInput.restart) s
  let s : State := { s with eth := s.eth.map fun (p : EthPort) => { p.restart with cfg := { p.cfg with enable := false } } }
  let s := s.modPeriph fun p => { p with cans := p.cans.map fun (c : CanPort) => { CanPort.reset with cfg := { c.cfg with enable := false } } }
  let s := s.modNav fun v => { v with fusion := .at { v.fusion.committed with enable := 0 } }
  let s := endCipher s
  s.modCorr fun c => { c with ref := { RefStn.reset with stop := c.ref.stop, epoch := .at (false, c.ref.epoch.committed.2), saved := c.ref.saved } }

/-- RUN to WATCH (R454, R455). DEDUCED (log 74). -/
def enterWatch (ret : List Nat) (s : State) : State :=
  let s := loseCarafe s
  let s := { s with power := { s.power with runSet := s.power.domains, retBanks := ret } }
  let s := applyDomains watchSet s
  let s := retainBanks (ret.filter fun b => b ≠ 0xFF) s
  enterState .watch .command 0xFF (captureRef s)

/-- WATCH to RUN (R454). DEDUCED (log 74). -/
def enterRun (d : BitVec 16) (cause : StartCause) (rule : Nat) (s : State) : State :=
  let s := restoreBanks (captureRef s)
  let s := applyDomains d s
  enterState .run cause rule { s with power := { s.power with runSet := d } }

/-! ### The Decant (R459–R461, R472) -/

/-- The newest valid image and its slot. -/
def Nonvol.newest (v : Nonvol) : Option (Nat × SavedImage) :=
  (v.images.zipIdx.filterMap fun (x : Option SavedImage × Nat) => x.1.map fun i => (x.2, i)).foldl
    (fun (m : Option (Nat × SavedImage)) x => match m with
      | none => some x
      | some y => if y.2.saveSeq < x.2.saveSeq then some x else some y) none

/-- The image of a state: what the staging area holds. -/
def imageOf (cause : Nat) (s : State) : SavedImage :=
  { saveSeq := ((s.nv.newest.map fun n => n.2.saveSeq).getD 0) + 1, cause := cause, epoch := s.nv.epoch, dt := s.time.dt, y := s.clock.y, aging := s.clock.aging
    sigmaY := s.clock.sigmaY, rtc := s.perc.rtc, time := if s.clock.valid then some (s.clock.gpsNs s.now) else none
    fix := s.nav.lastFix
    sealLast := s.sealing.last, sealAny := s.sealing.any, sessions := s.sessions.map fun e => (e.last, e.executed, e.history)
    unverified := s.unverified, freezes := s.mem.freezeLog, faults := s.faultLog, seals := s.sealing.log.drop (s.sealing.log.length - 64), trip := s.tripLog }

/-- A Decant writes the slot that does not hold the newest valid image; one that is cut off leaves it INVALID. -/
def decant (cause : Nat) (e : SaveEnd) (s : State) : State :=
  let slot := match s.nv.newest with | some n => 1 - n.1 | none => 0
  if e.done then
    { s with
      nv := { s.nv with images := s.nv.images.set slot (some (imageOf cause s)), cut := false, tripTail := [] }
      holdup := { s.holdup with lastSaveValid := true, lastSave := min 65535 e.micros, endMv := min 65535 e.endMv, saves := sat32 (s.holdup.saves + 1) } }
  else
    { s with
      nv := { s.nv with images := s.nv.images.set slot none, cut := true }
      holdup := { s.holdup with lastSaveValid := false, lastSave := min 65535 e.micros, endMv := min 65535 e.endMv } }

/-- A programming of RK1 that is cut off leaves some of its bits blown, and no marker (R502). DEDUCED (log 81). -/
def cutProvision (s : State) : State :=
  if s.tap.prov = 1 then
    let (s, a) := s.openVal 97
    let (s, b) := s.openVal 97
    let (s, c) := s.openVal 97
    let (s, d) := s.openVal 97
    let some_ : BitVec 256 := BitVec.ofNat 256 (a + b * 2 ^ 64 + c * 2 ^ 128 + d * 2 ^ 192)
    { s with nv := { s.nv with rk1 := s.nv.rk1 ||| (s.tap.key &&& some_), rk1Open := true } }
  else s

/-- What is left when every domain but PD0 and PD1 is off or in reset: MRAM and OTP, and the registers, Percolator and holdup controller of PD0. -/
def lost (s : State) : State :=
  let s := cutProvision s
  { State.reset with
    pending := s.pending, nv := s.nv, perc := s.perc, holdup := { s.holdup with state := 0, measuring := false }, freeCtr := s.freeCtr
    power := { s.power with domains := 0x0001, resetDue := none }
    boot := { BootInfo.reset with slot := s.boot.slot, trial := s.boot.trial }
    transports := s.transports.mapIdx fun n (t : Transport) => { Transport.reset n with enable := t.enable, ceiling := t.ceiling, qcpPort := t.qcpPort }
    sealing := { Seal.reset with cfg := .mk s.sealing.cfg.enable s.sealing.cfg.slot s.sealing.cfg.root (.at s.sealing.cfg.source.committed) (.at s.sealing.cfg.decim.committed) s.sealing.cfg.keyGen }
    corr := { CorrSys.reset with ref := { RefStn.reset with saved := s.corr.ref.saved } } }

/-- The device goes down into a phase. -/
def goDown (ph : Phase) (s : State) : State :=
  let s := lost s
  { s with power := { s.power with phase := ph } }

/-- A Decant that the device did not command ends in PARKED too (step 5 of Table 20.4): a transition of Table 20.3, of which a trip entry is made. DEDUCED (log 78). -/
def fallDown (ph : Phase) (cause : Nat) (save : SaveEnd) (s : State) : State :=
  let d := goDown ph (decant cause save s)
  let d := { d with power := { d.power with
    state := .parked, prev := s.power.state, rule := 0xFF, transitions := sat32 (s.power.transitions + 1), lastDt := s.time.dt } }
  d.logTrip 2 (some PowerState.parked.code) none

/-- RUN or WATCH to PARKED: the reply has been flushed; a planned Decant, then PD0 alone. DEDUCED (log 74). -/
def park (save : SaveEnd) (s : State) : State :=
  let s := enterState .parked .command 0xFF (captureRef s)
  let s := goDown .parked (decant 2 save s)
  { s with power := { s.power with parking := false } }

/-! ### Commands (R469, R470) -/

/-- DOMAINS of a POWER_STATE to RUN. -/
def runDomains (q : Qcp) (s : State) : BitVec 16 :=
  if q.u 2 2 = 0 then s.power.runSet else (BitVec.ofNat 16 (q.u 2 2) &&& 0xFFF8) ||| 0x0005

/-- The set that a POWER_STATE leads to. -/
def targetSet (q : Qcp) (s : State) : BitVec 16 := if q.u 0 1 = 0 then runDomains q s else if q.u 0 1 = 1 then watchSet else 0x0001

/-- A change of domains where the lanes that remain are short answers ST_BUDGET; no rule gives its REQUESTED (R116). DEDUCED (log 74). -/
def orBudget (d : BitVec 16) (f : State → State × Reply) (s : State) : State × Reply :=
  if ((goingOff s.power.domains d).any fun n => n == 5 || n == 6) && !lanesFit d s then
    let (s, r) := s.openVal 99
    (s, .budget s.admitted (limitFor (d.getLsbD 5) (d.getLsbD 6)) r)
  else f s

def retOf (q : Qcp) : List Nat := (List.range 4).map fun i => q.u (4 + i) 1

/-- DEDUCED (log 74). -/
def powerState (q : Qcp) (s : State) : State × Reply :=
  let force := q.u 1 1 = 1
  let d := targetSet q s
  if q.u 0 1 = 0 then
    orBudget d (fun s =>
      if s.power.state = .watch then (enterRun d .command 0xFF s, .ok [])
      else (enterState .run .command 0xFF (let s := applyDomains d s; { s with power := { s.power with runSet := d } }), .ok [])) s
  else
    let go (s : State) : State × Reply :=
      let s := if force ∧ s.power.state = .run then descent s else s
      if q.u 0 1 = 1 then (enterWatch (retOf q) s, .ok [])
      else
        let s := loseCarafe s
        ({ s with power := { s.power with parking := true } }, .ok [])
    if force then go s else orBudget d go s

def powerStateCmd : HostCmd :=
  { opcode := 0x0101, len := .fixed 8, priv := 2
    range := fun q s =>
      ([ (0, q.u 0 1 ≤ 2), (1, q.u 1 1 ≤ 1), (2, q.u 0 1 != 0 || setMeetsNeeds (runDomains q s)) ] : List (Int × Bool))
      ++ (List.range 4).map fun i => (((4 + i : Nat) : Int), upToOrFF 127 (q.u (4 + i) 1))
    state := fun q s =>
      let crit := (List.range 128).filter fun n => (s.bank n).crit
      [ !(s.power.state == .watch && q.u 0 1 == 1),
        (q.u 0 1 != 0 && q.u 1 1 == 1) || (goingOff s.power.domains (targetSet q s)).all fun n => !domainBusy n s,
        q.u 0 1 != 1 || crit.all fun n => (retOf q).contains n, q.u 0 1 != 2 || crit.isEmpty ]
    effect := powerState }

/-- POWER_STATE; one that leads to PARKED goes down once its reply is flushed. -/
def execPowerState (q : Qcp) (save : SaveEnd) (s : State) : Host.Outcome State Fault Refusal :=
  match runHost powerStateCmd q s with
  | .next s => .next (if s.power.parking then park save s else s)
  | o => o

/-- POWER_STATUS (R470). DEDUCED (log 83). -/
def powerStatusBytes (s : State) : List Byte :=
  let p := s.power
  u8 p.state.code ++ u8 p.prev.code ++ u8 p.wakeCause.code ++ u8 p.rule ++ u16 p.domains.toNat ++ u16 p.runSet.toNat ++ (p.retBanks.map u8).flatten
  ++ u16 p.vbat ++ i16 p.temp ++ u16 p.vhold ++ rsv 2 ++ leBytes 8 p.lastDt.toNat ++ leBytes 4 s.nv.epoch.toNat ++ u32 p.transitions ++ u32 p.sags ++ rsv 8

def powerStatusCmd : HostCmd := { opcode := 0x0102, len := .fixed 0, priv := 0, effect := fun _ s => (s, .ok (powerStatusBytes s)) }

def execPowerStatus (q : Qcp) (s : State) : Host.Outcome State Fault Refusal := runHost powerStatusCmd q s

/-- The set after a DOMAIN_SET: only bits 3 to 15 change. -/
def domainsAfter (q : Qcp) (s : State) : BitVec 16 :=
  let mask := BitVec.ofNat 16 (q.u 0 2) &&& 0xFFF8
  (s.power.domains &&& ~~~mask) ||| (BitVec.ofNat 16 (q.u 2 2) &&& mask)

/-- DEDUCED (log 74). -/
def domainSetCmd : HostCmd :=
  { opcode := 0x0110, len := .fixed 4, priv := 2
    range := fun q s => [(0, q.u 0 2 % 8 = 0), (2, setMeetsNeeds (domainsAfter q s))]
    state := fun q s => [s.power.state == .run, (goingOff s.power.domains (domainsAfter q s)).all fun n => !domainBusy n s]
    effect := fun q s =>
      let d := domainsAfter q s
      orBudget d (fun s => (enterState .run .command 0xFF (let s := applyDomains d s; { s with power := { s.power with runSet := d } }), .ok [])) s }

def execDomainSet (q : Qcp) (s : State) : Host.Outcome State Fault Refusal := runHost domainSetCmd q s

end Sys2Proof.Machine
end

