-- ==== Sys2Proof/Machine/Perc.lean ====
section
/-! DEFINITION. The Percolator, WAKE and the holdup controller (R456, R458, R463–R470). -/

namespace Sys2Proof.Machine
open Sys2Proof

def State.modPerc (s : State) (f : Perc → Perc) : State := { s with perc := f s.perc }
def State.modPower (s : State) (f : Power → Power) : State := { s with power := f s.power }
def State.modHoldup (s : State) (f : Holdup → Holdup) : State := { s with holdup := f s.holdup }

/-! ### Commands (R469) -/

def percCfgOf (q : Qcp) : PercCfg :=
  { enable := q.u 0 1 == 1, accAddr := q.u 1 1, accReg := q.u 2 1, accDiv := q.u 3 1, accFmt := q.u 4 1, wakeWidth := q.u 6 1, accLsb := q.u 8 2
    wakeTimeout := q.u 10 2 }

def percCfgCmd : HostCmd :=
  { opcode := 0x0120, len := .fixed 16, priv := 2
    range := fun q _ =>
      [ (0, q.u 0 1 ≤ 1), (1, 8 ≤ q.u 1 1 && q.u 1 1 ≤ 0x77), (3, 1 ≤ q.u 3 1 && q.u 3 1 ≤ 64), (4, q.u 4 1 ≤ 1), (5, q.u 5 1 ≤ 15), (8, 1 ≤ q.u 8 2),
        (10, 100 ≤ q.u 10 2 && q.u 10 2 ≤ 10000) ]
    effect := fun q s =>
      let c := percCfgOf q
      let s := s.modPerc fun p => { p with cfg := c, counters := p.counters.mapIdx fun i v => if bitOf (q.u 5 1) i then 0 else v }
      ({ s with nv := { s.nv with percCfg := c } }, .ok []) }

def execPercCfg (q : Qcp) (s : State) : Host.Outcome State Fault Refusal := runHost percCfgCmd q s

/-- A rule from its 8 bytes (Table 20.7). -/
def ruleOf (p : List Byte) : PercRule :=
  let u (i : Nat) : Nat := fieldU p i 1
  { enable := bitOf (u 0) 7, filter := bitsOf (u 0) 6 4, src := u 0 % 16, shift := u 1 / 16, cmp := u 1 % 8, thresh := fieldI p 2 2, count := u 4
    action := BitVec.ofNat 8 (u 5), target := u 6 % 4, counter := bitsOf (u 6) 3 2, states := BitVec.ofNat 8 (u 7) }

def PercRule.bytes (r : PercRule) : List Byte :=
  u8 ((if r.enable then 128 else 0) + 16 * r.filter + r.src) ++ u8 (16 * r.shift + r.cmp) ++ i16 r.thresh ++ u8 r.count ++ u8 r.action.toNat
  ++ u8 (4 * r.counter + r.target) ++ u8 r.states.toNat

/-- The range checks of one rule at an offset of the payload. -/
def ruleRange (p : List Byte) (off : Nat) : List (Int × Bool) :=
  let u (i : Nat) : Nat := fieldU p (off + i) 1
  let at_ (i : Nat) (ok : Bool) : Int × Bool := (((off + i : Nat) : Int), ok)
  [ at_ 0 (bitsOf (u 0) 6 4 ≤ 4), at_ 1 (16 ≤ u 1 && u 1 % 16 ≤ 3), at_ 4 (1 ≤ u 4), at_ 5 (u 5 < 64), at_ 6 (u 6 < 16 && u 6 % 4 ≤ 1), at_ 7 (u 7 < 8) ]

def ruleSpan (q : Qcp) : List (Int × Bool) := [(0, q.u 0 1 ≤ 31), (1, 1 ≤ q.u 1 1 && q.u 1 1 ≤ 32 && q.u 0 1 + q.u 1 1 ≤ 32)]

/-- Put rules from a number on. -/
def putAt {α : Type} (xs : List α) (first : Nat) (ys : List α) : List α := xs.mapIdx fun i x => if first ≤ i then (ys[i - first]?).getD x else x

def percRuleWriteCmd : HostCmd :=
  { opcode := 0x0121, len := ⟨12, 260, fun p => some (4 + 8 * clampN 1 32 (fieldU p 1 1))⟩, priv := 2
    range := fun q _ => ruleSpan q ++ ((List.range (q.u 1 1)).map fun i => ruleRange q.payload (4 + 8 * i)).flatten
    effect := fun q s =>
      let rs := (List.range (q.u 1 1)).map fun i => ruleOf (fieldB q.payload (4 + 8 * i) 8)
      let s := s.modPerc fun p => { p with rules := putAt p.rules (q.u 0 1) rs, runs := putAt p.runs (q.u 0 1) (rs.map fun _ => RuleRun.reset) }
      ({ s with nv := { s.nv with percRules := putAt s.nv.percRules (q.u 0 1) rs } }, .ok []) }

def execPercRuleWrite (q : Qcp) (s : State) : Host.Outcome State Fault Refusal := runHost percRuleWriteCmd q s

def percRuleReadCmd : HostCmd :=
  { opcode := 0x0122, len := .fixed 4, priv := 0, range := fun q _ => ruleSpan q
    effect := fun q s => (s, .ok ((((s.perc.rules.drop (q.u 0 1)).take (q.u 1 1)).map PercRule.bytes).flatten)) }

def execPercRuleRead (q : Qcp) (s : State) : Host.Outcome State Fault Refusal := runHost percRuleReadCmd q s

/-- DEDUCED (log 83). -/
def percStatusBytes (s : State) : List Byte :=
  let p := s.perc
  u8 (if p.halted then 2 else if p.cfg.enable then 1 else 0) ++ u8 p.lastRule ++ rsv 2 ++ (p.filtered.map fun v => i16 (clampI (-32768) 32767 v)).flatten
  ++ (p.counters.map u32).flatten ++ u32 p.ticks ++ u32 p.fired ++ u32 p.accFail

/-- PERC_STATUS: FIRED counts from the last read (R470). -/
def percStatusCmd : HostCmd :=
  { opcode := 0x0123, len := .fixed 0, priv := 0, effect := fun _ s => (s.modPerc fun p => { p with fired := 0 }, .ok (percStatusBytes s)) }

def execPercStatus (q : Qcp) (s : State) : Host.Outcome State Fault Refusal := runHost percStatusCmd q s

/-! ### Sources and filters (R463, R464) -/

/-- One accelerometer axis in mg from its two data bytes. -/
def accValue (c : PercCfg) (bs : List Byte) (axis : Nat) : Int :=
  let b := fieldB bs (2 * axis) 2
  roundDiv (fieldI (if c.accFmt = 1 then b.reverse else b) 0 2 * c.accLsb) 1000

/-- The accelerometer is read every ACC_DIV ticks; a failed read holds the values and is counted. DEDUCED (log 75). -/
def readAcc (acc : Option (List Byte)) (s : State) : State :=
  let p := s.perc
  if p.accTick + 1 < p.cfg.accDiv then s.modPerc fun p => { p with accTick := p.accTick + 1 }
  else match acc with
    | some bs => s.modPerc fun p => { p with accTick := 0, acc := (List.range 3).map (accValue p.cfg bs) }
    | none => (s.modPerc fun p => { p with accTick := 0, accFail := sat32 (p.accFail + 1) }).logTrip 6 none none

/-- The sixteen sources of a tick (Table 20.6). -/
def percSources (x : PercIn) (s : State) : List Int :=
  let p := s.perc
  let dev : Nat := ((List.zipWith (fun (a b : Int) => (a - b).natAbs) p.acc p.ref).foldl max 0)
  ((List.range 4).map fun i => ((min 255 ((x.edges[i]?).getD 0) : Nat) : Int)) ++ (List.range 3).map (fun i => (p.acc[i]?).getD 0)
  ++ [(dev : Int), if x.tamper then 1 else 0, (x.vbat : Int), x.temp, if x.ev0 then 1 else 0] ++ p.counters.map fun c => ((min c 32767 : Nat) : Int)

/-- The floor of the mean of the 4th and 5th of the last 8 inputs in order; before 8 inputs the first stands for the missing ones. DEDUCED (log 75). -/
def medianOf (h : List Int) : Int :=
  let full := h ++ List.replicate (8 - h.length) ((h.getLast?).getD 0)
  let sorted := full.mergeSort (fun a b => decide (a ≤ b))
  ((sorted[3]?).getD 0 + (sorted[4]?).getD 0) / 2

/-- One input through a rule's filter: the running state and the output in 2⁻¹⁶ source units. DEDUCED (log 75). -/
def filterStep (r : PercRule) (k : RuleRun) (x : Int) : RuleRun × Int :=
  let first := k.hist.isEmpty
  let hist := (x :: k.hist).take 8
  let held := if first then 1 else if k.hist.head? = some x then k.held + 1 else 1
  let deb := if first ∨ r.shift + 1 ≤ held then x else k.deb
  let input := if r.filter = 4 then medianOf hist else x
  let iir := if first then input * 65536 else k.iir + (input * 65536 - k.iir) / 2 ^ r.shift
  let k := { k with hist := hist, held := held, deb := deb, iir := iir }
  (k, match r.filter with
    | 0 => x * 65536
    | 1 => deb * 65536
    | 2 => medianOf hist * 65536
    | _ => iir)

/-! ### Rules (R466, R467) -/

/-- Rules are active in a state by their STATES bits. -/
def PercRule.activeIn (r : PercRule) (st : PowerState) : Bool := r.states.getLsbD st.code

def PercRule.holds (r : PercRule) (y : Int) : Bool :=
  let t := r.thresh * 65536
  match r.cmp with
  | 0 => decide (t < y)
  | 1 => decide (y < t)
  | 2 => decide (y = t)
  | _ => decide (y ≠ t)

/-- The bits of ACTION. -/
def PercRule.does (r : PercRule) (bit : Nat) : Bool := r.action.getLsbD bit

/-- The actions of a rule that fires, but for WAKE, which the end of the tick decides. -/
def fireRule (n : Nat) (r : PercRule) (y : Int) (sameTick : Bool) (s : State) : State :=
  let v := y / 65536
  let s := s.modPerc fun p => { p with fired := sat32 (p.fired + 1), lastRule := n }
  let s := if r.does 1 then s.modPower fun p => { p with wake := true, wakeUntilRun := decide (s.perc.cfg.wakeWidth = 0) } else s
  let s := if r.does 2 then s.logTrip 1 (some n) (some v) else s
  let s := if r.does 3 then s.modPerc fun p => { p with counters := modAt p.counters r.counter fun c => sat32 (c + 1) } else s
  let s := if r.does 4 && s.live && s.power.state == .run then s.carafeTrigger 3 s.now else s
  if s.live then
    s.notifyF 0x8120 sameTick (s.beatBytes ++ u8 n ++ u8 r.action.toNat ++ u8 r.src ++ rsv 1 ++ i16 (clampI (-32768) 32767 v) ++ rsv 2)
  else s

/-- Evaluate one rule; the pair carries the WAKE asked for so far, as rule and target. DEDUCED (log 75). -/
def evalRule (src : List Int) (sameTick : Bool) (x : State × Option (Nat × Nat)) (n : Nat) : State × Option (Nat × Nat) :=
  let (s, w) := x
  match s.perc.rules[n]?, s.perc.runs[n]? with
  | some r, some k =>
    if !(r.enable && r.activeIn s.power.state) then (s, w)
    else
      let (k, y) := filterStep r k ((src[r.src]?).getD 0)
      let cnt := if r.holds y then min (k.cnt + 1) 255 else 0
      let armed := if r.holds y then k.armed else true
      let fires := decide (r.count ≤ cnt) && armed
      let s := s.modPerc fun p =>
        { p with runs := modAt p.runs n fun _ => { k with cnt := cnt, armed := armed && !fires }, filtered := modAt p.filtered r.src fun _ => y / 65536 }
      if fires then
        let s := fireRule n r y sameTick s
        let s := if r.does 5 then s.modPerc fun p => { p with rules := modAt p.rules n fun r => { r with enable := false } } else s
        (s, if r.does 0 then (match w with
              | none => some (n, r.target)
              | some (m, t) => if r.target < t then some (n, r.target) else some (m, t)) else w)
      else (s, w)
  | _, _ => (s, w)

/-- WAKE at the end of a tick: in PARKED it starts the supply wait, in WATCH the transition to RUN (R456, R467). -/
def wakeUp (n target : Nat) (s : State) : State :=
  let st : PowerState := if target = 0 then .run else .watch
  if s.power.phase = .parked then
    (captureRef s).modPower fun p => { p with phase := .supplyWait .rule st, rule := n, wake := true, wakeUntilRun := true }
  else if s.live && s.power.state == .watch && target == 0 then enterRun s.power.runSet .rule n s
  else s

/-- One Percolator tick: 32 periods of the always-on clock. DEDUCED (log 75). -/
def percTick (x : PercIn) (s : State) : State :=
  let s := s.modPerc fun p => { p with rtc := p.rtc + 32 }
  let s := s.modPower fun p => { p with vbat := x.vbat, temp := x.temp, tempMin := min p.tempMin x.temp, tempMax := max p.tempMax x.temp }
  if !s.perc.cfg.enable || s.perc.halted then s
  else
    let s := readAcc x.acc (s.modPerc fun p => { p with ticks := sat32 (p.ticks + 1) })
    let src := percSources x s
    let s := s.modPerc fun p => { p with filtered := src }
    let (s, w) := (List.range 32).foldl (evalRule src x.sameTick) (s, none)
    match w with
    | some (n, t) => wakeUp n t s
    | none => s

def execPercTick (p : PercIn) (s : State) : Host.Outcome State Fault Refusal := .next (percTick p s)

/-- VBAT_AON below 1.9 V stops the Percolator (R468). -/
def execPercHalt (s : State) : Host.Outcome State Fault Refusal := .next (s.modPerc fun p => { p with halted := true })

/-- VBAT_AON returns: rules and configuration come from the MRAM, counters are 0. -/
def execPercRestart (s : State) : Host.Outcome State Fault Refusal :=
  .next (if s.perc.halted then
      s.modPerc fun p =>
        { p with halted := false, cfg := s.nv.percCfg, rules := s.nv.percRules, runs := List.replicate 32 RuleRun.reset, counters := [0, 0, 0, 0]
                 accTick := 0, filtered := List.replicate 16 0 }
    else s)

/-- WAKE_WIDTH ms after ASSERT_WAKE (R467). -/
def execWakeWidthExpiry (s : State) : Host.Outcome State Fault Refusal :=
  .next (if s.power.wakeUntilRun then s else s.modPower fun p => { p with wake := false })

/-- The WAKE output: the Percolator's, or the WAKE action of the spoofing monitor (R163, R467). DEDUCED (log 35). -/
def State.wakePin (s : State) : Bool := s.power.wake || (s.live && bitOf s.nav.spoof.actions 5)

/-! ### Holdup (R458, R470) -/

/-- DEDUCED (log 76). -/
def holdupStatusBytes (s : State) : List Byte :=
  let h := s.holdup
  u8 h.state ++ u8 (boolBits [h.lastSaveValid, h.lowCap]) ++ u16 s.power.vhold ++ u16 h.cap ++ u16 h.lastSave ++ u16 h.endMv ++ rsv 2 ++ u32 h.saves

def holdupStatusCmd : HostCmd := { opcode := 0x0130, len := .fixed 0, priv := 0, effect := fun _ s => (s, .ok (holdupStatusBytes s)) }

def execHoldupStatus (q : Qcp) (s : State) : Host.Outcome State Fault Refusal := runHost holdupStatusCmd q s

/-- HOLDUP_EVENT; where no rule gives VALUE it is a free value. DEDUCED (log 76). -/
def State.holdupEvent (s : State) (kind : Nat) (value : Option Nat) : State :=
  let (s, v) := match value with | some v => (s, v) | none => s.openVal 97
  s.notify 0x8130 (s.beatBytes ++ u8 kind ++ rsv 3 ++ u32 (v % 2 ^ 32))

/-- VHOLD reaches 3.1 V: READY, and after a measuring start-up the measurement begins. DEDUCED (log 76). -/
def execHoldupReady (vhold : Nat) (s : State) : Host.Outcome State Fault Refusal :=
  .next (if s.live ∧ s.holdup.state ≠ 1 ∧ 3100 ≤ vhold then
      ((s.modPower fun p => { p with vhold := min 65535 vhold }).modHoldup fun h => { h with state := 1, measuring := h.measures }).holdupEvent 1 none
    else s)

/-- The 10 ms at 1.000 mA end: C = 10 µC ÷ ΔV, ΔV in µV; below 176 µF is LOW_CAP. DEDUCED (log 76). -/
def execHoldupMeasurementEnd (dropUv : Nat) (s : State) : Host.Outcome State Fault Refusal :=
  .next (if s.live ∧ s.holdup.measuring then
      let c : Nat := if dropUv = 0 then 65535 else min 65535 (roundDiv 10000000 dropUv).toNat
      let low := decide (10000000 < 176 * dropUv)
      let s := s.modHoldup fun h => { h with measuring := false, measures := false, cap := c, lowCap := low }
      if low then s.holdupEvent 2 none else s
    else s)

/-- READY not reached within 200 ms. -/
def execChargeTimeout (s : State) : Host.Outcome State Fault Refusal :=
  .next (if s.live ∧ s.holdup.state = 0 then (s.modHoldup fun h => { h with state := 2 }).holdupEvent 5 none else s)

end Sys2Proof.Machine
end

