-- ==== Sys2Proof/Machine/Startup.lean ====
section
/-! DEFINITION. Sags, resets and the start-up; the diagnostic commands (R456, R457, R461, R462, R472–R478, R482). -/

namespace Sys2Proof.Machine
open Sys2Proof

/-! ### Going down (R30, R456, R457, R472, R499) -/

/-- A sag starts the Decant; while PD2 is off it has no effect, and before the restore it writes no image (R457, R462). -/
def execSupplySag (save : SaveEnd) (s : State) : Host.Outcome State Fault Refusal :=
  .next (match s.power.phase with
    | .on =>
      let s := s.logFault 4
      let s := s.logTrip 4 none none
      let s := s.modPower fun p => { p with sags := sat32 (p.sags + 1) }
      fallDown (.supplyWait .powerOn .run) 1 save s
    | .booting _ _ => s.modPower fun p => { p with phase := .supplyWait .powerOn .run, sags := sat32 (p.sags + 1) }
    | _ => s)

/-- The supplies hold for 10 ms: the boot follows (R456, step 2). -/
def execSupplyReturn (s : State) : Host.Outcome State Fault Refusal :=
  .next (match s.power.phase with
    | .supplyWait c t => s.modPower fun p => { p with phase := .booting c t }
    | _ => s)

/-- The supply wait of a wake exceeds WAKE_TIMEOUT (R456). -/
def execWakeTimeout (s : State) : Host.Outcome State Fault Refusal :=
  .next (match s.power.phase with
    | .supplyWait .powerOn _ => s
    | .supplyWait _ _ => (s.modPower fun p => { p with phase := .parked, wake := false, wakeUntilRun := false }).logTrip 3 (some s.power.rule) none
    | _ => s)

/-- RESET_N: a planned Decant and a boot; from PARKED it is a wake (R454, R456, R472). -/
def execResetN (save : SaveEnd) (s : State) : Host.Outcome State Fault Refusal :=
  .next (match s.power.phase with
    | .on => fallDown (.booting .resetN .run) 2 save s
    | .booting _ _ => s.modPower fun p => { p with phase := .booting .resetN .run }
    | .parked => (captureRef s).modPower fun p => { p with phase := .supplyWait .resetN .run, rule := 0xFF, wake := true, wakeUntilRun := true }
    | _ => s)

/-- REFIN is lost: it is recorded, the Decant runs, and every domain but PD0 and PD1 is held in reset (R30). -/
def execRefinLoss (save : SaveEnd) (s : State) : Host.Outcome State Fault Refusal :=
  .next (match s.power.phase with
    | .on => fallDown .refinHold 3 save (s.logFault 3)
    | .booting _ _ => s.modPower fun p => { p with phase := .refinHold }
    | _ => s)

def execRefinReturn (s : State) : Host.Outcome State Fault Refusal :=
  .next (if s.power.phase = .refinHold then s.modPower fun p => { p with phase := .booting .refinLoss .run, rule := 0xFF } else s)

/-- The device-level watchdog resets the device; a reset that is due waits for its instant (R356, R472, R482). DEDUCED (log 53). -/
def execWatchdogReset (save : SaveEnd) (s : State) : Host.Outcome State Fault Refusal :=
  .next (
    if !s.live then s
    else match s.power.resetDue with
      | some (dt, byCommand) =>
        if s.time.dt - dt < 0x8000000000000000 then
          fallDown (.booting .watchdog .run) 2 save (if byCommand then s else s.logFault 2)
        else s
      | none => fallDown (.booting .watchdog .run) 2 save (s.logFault 2))

/-! ### Images (R476) -/

def ImageRead.comp (i : ImageRead) (n : Nat) : Nat × Nat × Nat :=
  (fieldU i.header (12 + 12 * n) 4, fieldU i.header (16 + 12 * n) 4, fieldU i.header (20 + 12 * n) 4)

def ImageRead.level (i : ImageRead) : Nat := fieldU i.header 6 1
def ImageRead.versions (i : ImageRead) : List Nat := (List.range 3).map fun n => (i.comp n).2.2

/-- MAGIC, FORMAT and the ranges of the header (Table 21.4). -/
def ImageRead.headerOk (i : ImageRead) : Bool :=
  let len := fieldU i.header 8 4
  i.header.length == 160 && fieldB i.header 0 4 == [0x51, 0x54, 0x46, 0x57] && fieldU i.header 4 2 == 1 && decide (i.level ≤ 63)
  && decide (160 ≤ len ∧ len ≤ 4194304) && (List.range 3).all fun n => let c := i.comp n; decide (c.1 % 64 = 0 ∧ 160 ≤ c.1 ∧ c.1 + c.2.1 ≤ len)

/-- 0 VALID, 1 HEADER, 2 DIGEST, 3 SIGNATURE, 4 ROLLBACK. -/
def ImageRead.status (rollback : Nat) (i : ImageRead) : Nat :=
  if !i.readable || !i.headerOk then 1 else if !i.digest then 2 else if !i.signed then 3 else if i.level < rollback then 4 else 0

def imageAt (images : List ImageRead) (slot : Nat) : ImageRead :=
  (images[slot]?).getD { readable := false, header := [], digest := false, signed := false }

/-- FW_EVENT (R482); fields that no rule gives are free. DESIGN CHOICE (log 77). -/
def State.fwEvent (s : State) (kind : Nat) (core slot value : Option Nat) : State :=
  let (s, c) := match core with | some v => (s, v) | none => s.openVal 93
  let (s, l) := match slot with | some v => (s, v) | none => s.openVal 93
  let (s, v) := match value with | some v => (s, v) | none => s.openVal 93
  s.notify 0x8F10 (s.beatBytes ++ u8 kind ++ u8 (c % 256) ++ u8 (l % 256) ++ rsv 1 ++ u32 (v % 2 ^ 32))

/-! ### What is restored (R461, R474, R475) -/

/-- 0 image, 1 stale, 2 none. -/
def restoreCode (v : Nonvol) : Nat := match v.newest with
  | none => 2
  | some _ => if v.cut then 1 else 0

/-- Session history: from the image, or unknown where the last Decant did not complete (R318, R461). -/
def restoreSessions (s : State) : State :=
  match s.nv.newest with
  | some (_, i) =>
    if s.nv.cut then { s with sessions := s.sessions.map fun (e : Session) => { e with history := 2 } }
    else { s with sessions := s.sessions.zipWith (fun (e : Session) x => { e with last := x.1, executed := x.2.1, history := x.2.2 }) i.sessions }
  | none => if s.nv.cut then { s with sessions := s.sessions.map fun (e : Session) => { e with history := 2 } } else s

/-- The seal counter: the saved value, or CEIL with SEAL_SKIP (R423). DEDUCED (log 68). -/
def restoreSeal (s : State) : State :=
  let stale (s : State) : State :=
    if s.nv.ceil = 0 then s else (s.modSeal fun v => { v with last := s.nv.ceil - 1, any := true }).keyEvent s.sealing.cfg.slot 6 none
  match s.nv.newest with
  | some (_, i) =>
    let s := s.modSeal fun v => { v with log := i.seals }
    if s.nv.cut then stale s else s.modSeal fun v => { v with last := i.sealLast, any := i.sealAny }
  | none => stale s

/-- Time and position priors from the RTC correlation and the saved fix (R475). DEDUCED (log 78). -/
def restorePriors (i : SavedImage) (s : State) : State :=
  let elapsed : Nat := (s.perc.rtc - i.rtc) * 1000000000 / 32768
  let moved := s.tripLog.any fun (r : TripRec) => (r.kind == 1 || r.kind == 2) && decide (i.rtc < r.rtc)
  let p : AcqPlan := AcqPlan.reset
  let p := match i.time with
    | some t => { p with flags := 1, timeUnc := min 4000000000 (2000000 + elapsed * 50 / 1000000), dtRef := 0, timePrior := t + elapsed }
    | none => p
  let p := match i.fix with
    | some r =>
      let h2 : Nat := (((r.posSig.take 2).map fun (v : Nat) => v * v).sum)
      { p with flags := p.flags + 2, pos := r.pos.map fun v => roundDiv v 10000
               posUnc := if moved then 100000 else max 10 ((3 * nearRoot h2 + 999) / 1000) }
    | none => p
  { s with grinder := { s.grinder with plan := .at p } }

/-- Logs, clock model and records. DEDUCED (log 51). -/
def restoreLogs (s : State) : State :=
  match s.nv.newest with
  | some (_, i) =>
    let trip := i.trip ++ s.nv.tripTail
    let s : State := { s with
      faultLog := i.faults, tripLog := trip.drop (trip.length - 2048), mem := { s.mem with freezeLog := i.freezes } }
    let s := s.modClock fun c => { c with y := i.y, yh := i.y, aging := i.aging, sigmaY := i.sigmaY }
    if s.nv.cut then s else restorePriors i (s.modNav fun v => { v with lastFix := i.fix })
  | none => { s with tripLog := s.nv.tripTail }

/-- The windows in which the vendor cores' firmware runs: managed memory, and the I/O space. DESIGN CHOICE (log 62). -/
def vendorWindows : List Window :=
  [{ base := memBase, limit := memBase + 128 * bankBytes, perm := 7, flags := 1 }, { base := 0x02000000, limit := 0x03000000, perm := 11, flags := 1 }]
  ++ List.replicate 30 Window.reset

/-- MRAM records: UART settings, bank repairs, almanacs and ephemerides, an interrupted march test, and an incomplete RK1. DEDUCED (log 78). -/
def restoreRecords (s : State) : State :=
  let s := s.modPeriph fun p => { p with uarts := p.uarts.mapIdx fun i (u : Uart) => match s.nv.uarts[i]? with
    | some (f, d) => { u with tx := .at ⟨f, d⟩, rx := .at ⟨f, d⟩ }
    | none => u }
  let s : State := { s with mem := { s.mem with
    banks := s.mem.banks.mapIdx fun n (b : Bank) => match s.nv.repairs.find? fun r => r.1 == n with
      | some (_, rows, cols) => { b with rows := rows, cols := cols }
      | none => b
    windows := s.mem.windows.mapIdx fun n w => if n < 7 then vendorWindows else w } }
  let s := s.modNav fun v => { v with almanac := s.nv.almanac, sets := s.nv.sets }
  let s : State := { s with tap := { s.tap with prov := if s.nv.rk1Open && !s.nv.rk1Done then 6 else 0 } }
  match s.nv.marchOpen with
  | some _ => { (s.logFault 7) with nv := { s.nv with marchOpen := none } }
  | none => s

/-! ### The boot sequence (R473, R477) -/

/-- The selector returns to the slot before the trial (R477). DEDUCED (log 78). -/
def BootSel.fallBack (b : BootSel) : BootSel := if b.trial then { b with active := b.previous, trial := false } else b

/-- A watchdog reset of a trial before its commit returns the selector. DEDUCED (log 78). -/
def bootSelector (cause : StartCause) (s : State) : State :=
  if cause = .watchdog ∧ s.boot.trial ∧ s.nv.bootSel.trial then { s with nv := { s.nv with bootSel := s.nv.bootSel.fallBack } } else s

/-- Each failing slot goes to the fault log. -/
def logImages (images : List ImageRead) (tried : List Nat) (s : State) : State :=
  tried.foldl (fun s n =>
    let st := (imageAt images n).status s.nv.rollback
    if st = 0 then s else s.logFault 6) s

/-- What a start-up cause measures (Table 21.1). -/
def measuring (c : StartCause) : Bool := c == .powerOn || c == .rule

/-- Step 7: the remaining domains, the cores, the notices, and the power state. DEDUCED (log 14). -/
def enterService (cause : StartCause) (target : PowerState) (s : State) : State :=
  let s := startVendor 0 s
  let s := applyDomains (if s.boot.recovery then watchSet ||| 0x4000 else if target = .watch then watchSet else fullSet) s
  let s := s.modPower fun p => { p with
    phase := .on, runSet := if target = .run ∧ !s.boot.recovery then fullSet else p.runSet, tempMin := p.temp, tempMax := p.temp }
  let s := if s.nv.cut then s.holdupEvent 4 none else if s.nv.newest.isSome then s.holdupEvent 3 none else s
  let s := enterState (if s.boot.recovery then .run else target) cause s.power.rule s
  (s.modPower fun p => { p with wakeCause := cause }).modHoldup fun h => { h with measures := measuring cause }

/-- The boot ROM and the firmware it loads. DESIGN CHOICE (log 3). -/
def bootDevice (images : List ImageRead) (cause : StartCause) (target : PowerState) (s : State) : State :=
  let s := { s with nv := { s.nv with epoch := nextEpoch s.nv.epoch }, time := TimeBase.reset }
  let s := bootSelector cause s
  let sel := s.nv.bootSel.active
  let valid (n : Nat) : Bool := (imageAt images n).status s.nv.rollback == 0
  let slot : Option Nat := if valid sel then some sel else if valid (1 - sel) then some (1 - sel) else none
  let fell := slot.isSome && slot != some sel
  let code := restoreCode s.nv
  let s := restoreRecords (restoreSeal (restoreLogs (restoreSessions s)))
  let s := logImages images (if valid sel then [] else [sel, 1 - sel]) s
  let trial := s.nv.bootSel.trial && slot == some sel
  let (s, micros) := s.openVal 94
  let img := imageAt images (slot.getD 0)
  let s : State := { s with
    nv := { s.nv with bootSel := if fell then s.nv.bootSel.fallBack else s.nv.bootSel }
    boot := { BootInfo.reset with
      slot := slot.getD 0xFF, trial := trial, fallback := fell, cause := cause, restore := code, recovery := slot.isNone, bootTime := micros % 2 ^ 32
      fwCc := if slot.isSome then (img.comp 0).2.2 else 0, fwLoop := if slot.isSome then (img.comp 1).2.2 else 0
      fwNav := if slot.isSome then (img.comp 2).2.2 else 0, level := if slot.isSome then img.level else 0
      versions := (imageAt images 0).versions ++ (imageAt images 1).versions, runAt := 0 } }
  let s := enterService cause target s
  let s := s.fwEvent 1 none slot none
  if fell then s.fwEvent 2 none slot none else s

/-- DESIGN CHOICE (log 3). -/
def execBoot (images : List ImageRead) (s : State) : Host.Outcome State Fault Refusal :=
  .next (match s.power.phase with
    | .booting c t => bootDevice images c t s
    | _ => s)

/-- No commit within 600 s of RUN on a trial slot (R477). DEDUCED (log 79). -/
def execTrialTimeout (s : State) : Host.Outcome State Fault Refusal :=
  .next (if s.live ∧ s.boot.trial ∧ s.passedMs s.boot.runAt 600000 then
      ({ s with nv := { s.nv with bootSel := s.nv.bootSel.fallBack }, boot := { s.boot with trial := false } }).fwEvent 2 none (some s.boot.slot) none
    else s)

/-! ### Diagnostics (R482, R484) -/

/-- DIAG_EVENT; where no rule gives VALUE it is a free value. DESIGN CHOICE (log 77). -/
def State.diagEvent (s : State) (kind : Nat) (value : Option Nat) : State :=
  let (s, v) := match value with | some v => (s, v) | none => s.openVal 93
  s.notify 0x9010 (s.beatBytes ++ u8 kind ++ rsv 3 ++ u32 (v % 2 ^ 32))

/-- The junction temperature in 0.1 °C rises above 115 °C. -/
def execTempHigh (temp : Int) (s : State) : Host.Outcome State Fault Refusal :=
  .next (
    let s := s.modPower fun p => { p with temp := temp, tempMin := min p.tempMin temp, tempMax := max p.tempMax temp }
    if s.live ∧ 1150 < temp then s.diagEvent 1 none else s)

/-- DEDUCED (log 78). -/
def bootStatusBytes (s : State) : List Byte :=
  let b := s.boot
  u8 b.slot ++ ub b.trial ++ ub b.fallback ++ u8 s.nv.rollback ++ u8 b.cause.code ++ u8 b.restore ++ ub s.installed ++ ub b.recovery
  ++ (b.versions.map u32).flatten ++ u32 b.bootTime ++ u16 ((s.nv.repairs.map fun r => r.2.1.length + r.2.2.length).sum) ++ rsv 10

def bootStatusCmd : HostCmd := { opcode := 0x0F01, len := .fixed 0, priv := 0, effect := fun _ s => (s, .ok (bootStatusBytes s)) }

def execBootStatus (q : Qcp) (s : State) : Host.Outcome State Fault Refusal := runHost bootStatusCmd q s

/-- The reset follows 10 ms after the reply. -/
def deviceResetCmd : HostCmd :=
  { opcode := 0x0F30, len := .fixed 4, priv := 2, range := fun q _ => [(0, q.u 0 1 = 0)]
    effect := fun _ s => (s.modPower fun p => { p with resetDue := some (s.time.dt + BitVec.ofNat 64 (10 * msUnits), true) }, .ok []) }

def execDeviceReset (q : Qcp) (s : State) : Host.Outcome State Fault Refusal := runHost deviceResetCmd q s

def FaultRec.bytes (r : FaultRec) : List Byte := leBytes 8 r.dt.toNat ++ u8 r.kind ++ u8 r.source ++ rsv 2 ++ u32 (r.value % 2 ^ 32)
def TripRec.bytes (r : TripRec) : List Byte := u64 r.rtc ++ u8 r.kind ++ u8 r.code ++ rsv 2 ++ i32 r.value

def faultLogCmd : HostCmd :=
  { opcode := 0x1002, len := .fixed 4, priv := 0
    range := fun q _ => [(0, q.u 0 1 ≤ 1), (1, 1 ≤ q.u 1 1 && q.u 1 1 ≤ 128), (2, if q.u 0 1 = 1 then q.u 2 2 ≤ 2047 else q.u 2 2 ≤ 127)]
    effect := fun q s =>
      (s, .ok (if q.u 0 1 = 1 then u32 s.tripLog.length ++ logSlice TripRec.bytes 16 s.tripLog (q.u 2 2) (q.u 1 1)
        else u32 s.faultLog.length ++ logSlice FaultRec.bytes 16 s.faultLog (q.u 2 2) (q.u 1 1))) }

def execFaultLog (q : Qcp) (s : State) : Host.Outcome State Fault Refusal := runHost faultLogCmd q s

def tempReadCmd : HostCmd :=
  { opcode := 0x1010, len := .fixed 0, priv := 0
    effect := fun _ s => (s, .ok (i16 s.power.temp ++ i16 s.power.tempMin ++ i16 s.power.tempMax ++ rsv 2)) }

def execTempRead (q : Qcp) (s : State) : Host.Outcome State Fault Refusal := runHost tempReadCmd q s

/-- The 32-bit counters of a group's status replies, in their order. DESIGN CHOICE (log 77). -/
def groupCounters (g : Nat) (s : State) : List Nat :=
  match g with
  | 0x00 => s.sessions.map (·.lostTotal)
  | 0x01 => [s.power.transitions, s.power.sags] ++ s.perc.counters ++ [s.perc.ticks, s.perc.fired, s.perc.accFail, s.holdup.saves]
  | 0x02 => [s.mem.progress, s.mem.fails]
  | 0x04 => [s.grinder.completions, s.grinder.overwrites]
  | 0x05 => [s.fabric.clamps]
  | 0x06 => [s.nav.osnma.ok, s.nav.osnma.fail]
  | 0x07 => [s.nav.overruns, s.nav.late]
  | 0x08 => [s.corr.framesOk, s.corr.crcFail, s.corr.rangeFail, s.corr.hasMsg, s.corr.stale, s.domain.macFail, s.domain.replay]
  | 0x09 => [s.clock.steps]
  | 0x0A => (s.eth.map fun p => [p.rxOk, p.txOk, p.rxFcs, p.rxDrop, p.tsLost, p.ptp.syncOk, p.ptp.discarded, p.ptp.outliers]).flatten
  | 0x0C => s.cipher.units.map (·.ops)
  | 0x0D => (s.periph.cans.map fun c => [c.rxOk, c.err]).flatten ++ s.periph.wheels.map (·.count)
  | 0x0E => [s.uc.svcCount, s.uc.swaps, s.uc.freezes, s.uc.evcDropped]
  | 0x10 => [s.overruns.overwritten]
  | _ => []

def countersCmd : HostCmd :=
  { opcode := 0x1011, len := .fixed 4, priv := 0, range := fun q _ => [(0, q.u 0 1 ≤ 0x10)]
    effect := fun q s => let cs := groupCounters (q.u 0 1) s; (s, .ok (u16 cs.length ++ rsv 2 ++ (cs.map u32).flatten)) }

def execCounters (q : Qcp) (s : State) : Host.Outcome State Fault Refusal := runHost countersCmd q s

/-- DEDUCED (log 79). -/
def selftestCmd : HostCmd :=
  { opcode := 0x1020, len := .fixed 4, priv := 2, range := fun q _ => [(0, q.u 0 1 < 64)]
    effect := fun q s =>
      ({ s with boot := { s.boot with selftests := s.boot.selftests ++ [(q.u 0 1, q.origin 0x1020, s.now)] } }, ⟨stAccepted, []⟩) }

def execSelftest (q : Qcp) (s : State) : Host.Outcome State Fault Refusal := runHost selftestCmd q s

/-- The oldest self-test ends: which of its tests failed, and the six codes. -/
def execSelftestComplete (failed : Nat) (codes : List Nat) (s : State) : Host.Outcome State Fault Refusal :=
  .next (if !s.live then s else match s.boot.selftests with
    | [] => s
    | (tests, o, at_) :: rest =>
      let bad := tests &&& failed
      let s : State := { s with boot := { s.boot with selftests := rest } }
      let s := s.complete o stOk (u8 (tests - bad) ++ u8 bad ++ rsv 2 ++ u32 (sat32 ((s.now - at_) / 64000)) ++ ((List.range 6).map fun i => u32 (((codes[i]?).getD 0) % 2 ^ 32)).flatten)
      if bad = 0 then s else s.diagEvent 2 none)

end Sys2Proof.Machine
end

