-- ==== Sys2Proof/Machine/Firmware.lean ====
section
/-! DEFINITION. Firmware images and swaps in service, THAW, and the debug port (R358, R476, R477, R479, R480, R500–R502). -/

namespace Sys2Proof.Machine
open Sys2Proof

/-! ### Slots and the boot selector (R476, R477) -/

/-- An FW_VERIFY of the slot since its last FW_WRITE reported VALID. -/
def State.slotVerified (s : State) (slot : Nat) : Bool := (s.nv.verified[slot]?).getD false

/-- FW_WRITE of DATA to a slot; `done`: the flash device answered in time. DEDUCED (log 79). -/
def fwWriteCmd (done : Bool) : HostCmd :=
  { opcode := 0x0F10, len := ⟨9, 4080, fun _ => none⟩, priv := 2
    range := fun q _ => [(0, q.u 0 1 ≤ 1), (4, q.u 4 4 < 4194304)]
    state := fun q s => [q.u 0 1 != s.boot.slot]
    effect := fun q s =>
      let s : State := { s with nv := { s.nv with verified := modAt s.nv.verified (q.u 0 1) fun _ => false } }
      let s := s.modBoot fun b => { b with verifying := b.verifying.map fun v => if v.1 = q.u 0 1 then (v.1, v.2.1, true) else v }
      (s, if done then .ok [] else ⟨stTimeout, []⟩) }

def execFwWrite (q : Qcp) (done : Bool) (s : State) : Host.Outcome State Fault Refusal := runHost (fwWriteCmd done) q s

def fwVerifyCmd : HostCmd :=
  { opcode := 0x0F11, len := .fixed 8, priv := 2, range := fun q _ => [(0, q.u 0 1 ≤ 1)]
    effect := fun q s => (s.modBoot fun b => { b with verifying := b.verifying ++ [(q.u 0 1, q.origin 0x0F11, false)] }, ⟨stAccepted, []⟩) }

def execFwVerify (q : Qcp) (s : State) : Host.Outcome State Fault Refusal := runHost fwVerifyCmd q s

/-- The oldest verification ends with what the flash read back. -/
def verifyDone (i : ImageRead) (s : State) : State :=
  match s.boot.verifying with
  | [] => s
  | (slot, o, stale) :: rest =>
    let s := s.modBoot fun b => { b with verifying := rest }
    if !i.readable then s.complete o stTimeout []
    else
      let st := i.status s.nv.rollback
      let s : State := { s with nv := { s.nv with verified := modAt s.nv.verified slot fun _ => st == 0 && !stale } }
      let s := s.modBoot fun b => { b with versions := b.versions.take (3 * slot) ++ i.versions ++ b.versions.drop (3 * slot + 3) }
      s.complete o stOk (u8 st ++ rsv 3 ++ (i.versions.map u32).flatten)

def execFwVerifyComplete (image : ImageRead) (s : State) : Host.Outcome State Fault Refusal := .next (if s.live then verifyDone image s else s)

/-- The selector takes a trial slot; what it returns to is the slot that is not on trial. DEDUCED (log 79). -/
def BootSel.try_ (b : BootSel) (slot : Nat) : BootSel := { active := slot, trial := true, previous := if b.trial then b.previous else b.active }

/-- DEDUCED (log 79). -/
def fwActivateCmd : HostCmd :=
  { opcode := 0x0F12, len := .fixed 8, priv := 2
    range := fun q _ => [(0, q.u 0 1 ≤ 1), (1, q.u 1 1 ≤ 1)]
    state := fun q s => [s.slotVerified (q.u 0 1), q.u 1 1 = 0 || (s.boot.trial && q.u 0 1 == s.boot.slot)]
    effect := fun q s =>
      if q.u 1 1 = 0 then ({ s with nv := { s.nv with bootSel := s.nv.bootSel.try_ (q.u 0 1) } }, .ok [])
      else
        let s : State := { s with nv := { s.nv with bootSel := { s.nv.bootSel with trial := false }, rollback := max s.nv.rollback s.boot.level } }
        ((s.modBoot fun b => { b with trial := false }).fwEvent 3 none (some (q.u 0 1)) none, .ok []) }

def execFwActivate (q : Qcp) (s : State) : Host.Outcome State Fault Refusal := runHost fwActivateCmd q s

/-! ### Replacing loop firmware (R13, R479) -/

/-- The groups bound to a loop core, in ascending order. -/
def groupsOf (s : State) (core : Nat) : List Nat := (List.range 32).filter fun g => (s.fabric.binding[g]?).getD 0 == core

/-- Non-IDLE channels of a group. -/
def groupLoad (s : State) (g : Nat) : Nat := s.fabric.chans.countP fun c => c.1 / 64 == g && !c.2.idle

/-- The other loop cores, in ascending order, that serve channels; where no other does, none. DEDUCED (log 80). -/
def receivers (s : State) (core : Nat) : List Nat := (List.range 4).filter fun c => c != core && coreRunning s (c + 1)

/-- Where each group of a core goes: cyclically to the receiving cores. DEDUCED (log 80). -/
def migration (s : State) (core : Nat) : List (Nat × Nat) :=
  let to_ := receivers s core
  ((groupsOf s core).zipIdx).filterMap fun g => (to_[g.2 % max 1 to_.length]?).map fun c => (g.1, c)

/-- No receiving core would serve more than 768 non-IDLE channels (Table 6.14). -/
def migrationFits (s : State) (core : Nat) : Bool :=
  let m := migration s core
  (receivers s core).all fun c =>
    decide (((groupsOf s c ++ (m.filter fun x => x.2 == c).map (·.1)).map (groupLoad s)).sum ≤ 768)

/-- DEDUCED (log 80). -/
def loopSwapCmd (image : ImageRead) : HostCmd :=
  { opcode := 0x0F20, len := .fixed 8, priv := 2
    range := fun q _ => [(0, q.u 0 1 ≤ 3), (1, q.u 1 1 ≤ 1)]
    state := fun q s =>
      [ s.boot.loopSwaps.isEmpty, (List.range 4).all fun c => (s.core (c + 1)).mode != .frozen, image.status s.nv.rollback == 0,
        migrationFits s (q.u 0 1) ]
    effect := fun q s =>
      let w : LoopSwap :=
        { core := q.u 0 1, slot := q.u 1 1, origin := some (q.origin 0x0F20), outBeat := none, missed := [], groups := []
          version := (image.comp 1).2.2 }
      (s.modBoot fun b => { b with loopSwaps := b.loopSwaps ++ [w] }, ⟨stAccepted, []⟩) }

def execLoopSwap (q : Qcp) (image : ImageRead) (s : State) : Host.Outcome State Fault Refusal := runHost (loopSwapCmd image) q s

/-- Migrate out at a boundary: the groups are rebound, and the core stops (R479, step 2). -/
def migrateOut (w : LoopSwap) (s : State) : State :=
  let m := migration s w.core
  let s := (s.bindGroups m).modCore (w.core + 1) fun c => { c with mode := .stopped }
  let s := s.modBoot fun b => { b with loopSwaps := b.loopSwaps.map fun x =>
    if x.core = w.core then { x with outBeat := some s.time.beat, groups := m.map (·.1) } else x }
  s.fwEvent 4 (some (w.core + 1)) (some w.slot) none

/-- The swaps that wait for a boundary. -/
def loopSwapBoundary (s : State) : State :=
  (s.boot.loopSwaps.filter fun w => w.outBeat.isNone).foldl (fun s w => migrateOut w s) s

/-- Channels of the moved groups that missed the latch of this boundary. -/
def loopSwapMissed (s : State) : State :=
  if s.boot.loopSwaps.isEmpty then s
  else
    let late := (s.fabric.chans.filter fun c => c.2.coasted).map (·.1)
    s.modBoot fun b => { b with loopSwaps := b.loopSwaps.map fun w =>
      { w with missed := w.missed ++ late.filter fun n => w.groups.contains (n / 64) && !w.missed.contains n } }

/-- Return: the groups of the core's own binding come back at the first boundary after its restart (R479, step 4). DEDUCED (log 80). -/
def loopReturn (w : LoopSwap) (s : State) : State :=
  let s := startVendor (w.core + 1) (s.bindGroups (homeGroups w.core))
  let s := s.modBoot fun b => { b with loopSwaps := b.loopSwaps.filter fun x => x.core != w.core, fwLoop := w.version }
  let s := s.fwEvent 5 (some (w.core + 1)) (some w.slot) none
  match w.origin with
  | some o => s.complete o stOk (loopResult 0 w s.time.beat)
  | none => s.fwEvent 7 (some (w.core + 1)) (some w.slot) none

def execLoopSwapComplete (core : Nat) (s : State) : Host.Outcome State Fault Refusal :=
  .next (match s.boot.loopSwaps.find? fun w => w.core == core with
    | some w =>
      if s.live && s.on 8 && s.time.tick == 0 && (match w.outBeat with | some b => decide (b < s.time.beat) | none => false) then loopReturn w s else s
    | none => s)

/-! ### Replacing navigation firmware (R480) -/

/-- DEDUCED (log 80). -/
def navSwapCmd (image : ImageRead) : HostCmd :=
  { opcode := 0x0F21, len := .fixed 4, priv := 2
    range := fun q _ => [(0, q.u 0 1 ≤ 1 || q.u 0 1 == 0xFF)]
    state := fun q s =>
      [ s.boot.navSwap.isNone, (s.core 5).mode != .frozen && (s.core 6).mode != .frozen,
        q.u 0 1 == 0xFF || image.status s.nv.rollback == 0 ]
    effect := fun q s =>
      let slot := q.u 0 1
      let s := abortReplay s
      let s := if slot = 0xFF then s else startVendor (6 - s.nav.active) s
      (s.modBoot fun b => { b with
        navSwap := some { slot := slot, origin := some (q.origin 0x0F21), version := (image.comp 2).2.2, ready := false } }, ⟨stAccepted, []⟩) }

def execNavSwap (q : Qcp) (image : ImageRead) (s : State) : Host.Outcome State Fault Refusal := runHost (navSwapCmd image) q s

/-- The standby core holds a checkpoint: it becomes active, and the former active core is loaded with the same component. DEDUCED (log 80). -/
def navSwapDone (w : NavSwap) (s : State) : State :=
  let s := s.modBoot fun b => { b with navSwap := none, fwNav := if w.slot = 0xFF then b.fwNav else w.version }
  match w.origin with
  | none => s.fwEvent 7 (some (6 - s.nav.active)) (some w.slot) none
  | some o =>
    let former := 5 + s.nav.active
    let s := s.modNav fun v => { v with active := 1 - v.active }
    let s := if w.slot = 0xFF then s else startVendor former s
    (s.fwEvent 6 (some (5 + s.nav.active)) (some w.slot) none).complete o stOk (navResult 0 s)

def execNavSwapComplete (s : State) : Host.Outcome State Fault Refusal :=
  .next (match s.boot.navSwap with
    | some w => if s.live && s.on 9 && w.ready then navSwapDone w s else s
    | none => s)

/-! ### THAW (R358) -/

/-- The record of a freeze that has not ended takes STATE and THAW_DT. -/
def thawRecord (master sub st : Nat) (s : State) : State :=
  { s with mem := { s.mem with freezeLog := s.mem.freezeLog.map fun r =>
      if r.master = master ∧ r.sub = sub ∧ r.state = 0 ∧ r.epoch = s.nv.epoch then { r with state := st, thawDt := s.time.dt } else r } }

/-- A frozen core runs again; a skip moves pc past the instruction. -/
def resumeCore (n : Nat) (skip : Bool) (s : State) : State :=
  let s := s.modCore n fun c => { c with mode := .running, pc := if skip then c.skipTo else c.pc }
  if n = 7 then s.modUc fun u => { u with state := .running } else s

/-- Abort (Table 15.13): UC stops as by UC_STOP; a loop or navigation core restarts (R479, R480). DEDUCED (log 80). -/
def abortCore (n : Nat) (s : State) : State :=
  let v (c : Nat) : Nat := (s.boot.versions[3 * s.boot.slot + c]?).getD 0
  if n = 7 then (stopUc s).ucEvent 2 none
  else if n ≤ 4 then
    let w : LoopSwap := { core := n - 1, slot := s.boot.slot, origin := none, outBeat := none, missed := [], groups := [], version := v 1 }
    (s.modCore n fun c => { c with mode := .stopped }).modBoot fun b => { b with loopSwaps := b.loopSwaps ++ [w] }
  else
    let s := if n = 5 + s.nav.active then s.modNav fun x => { x with active := 1 - x.active } else s
    let s := startVendor n (abortReplay (endNavSwap s))
    s.modBoot fun b => { b with navSwap := some { slot := b.slot, origin := none, version := v 2, ready := false } }

/-- The options on a DMA channel (Table 15.13). DEDUCED (log 52). -/
def thawDma (n opt : Nat) (s : State) : State :=
  let c := s.dmaChan n
  let go (s : State) : State := s.modDma n fun c => { c with state := if c.stopReq then .stopped else .running, stopReq := false }
  match opt, c.run with
  | 0, _ | 1, none => go s
  | 1, some d =>
    let k := c.burst
    let s := go (s.modDma n fun c => { c with moved := c.moved + k, skipped := c.skipped + 1 })
    if c.moved + k = d.length then dmaDone n false s else s
  | _, r => (if r.isSome then descStatus n 1 s else s).modDma n fun c => { c with state := .aborted, run := none, waitBeat := none, stopReq := false }

def masterFrozen (m sub : Nat) (s : State) : Bool :=
  if m = 0x12 then (s.dmaChan sub).state == .frozen else (s.core m).mode == .frozen

/-- THAW of a master. -/
def thaw (m sub opt : Nat) (s : State) : State :=
  let s := thawRecord m (if m = 0x12 then sub else 0) (opt + 1) s
  if m = 0x12 then thawDma sub opt s
  else if opt = 2 then abortCore m s
  else resumeCore m (opt == 1) s

def thawCmd : HostCmd :=
  { opcode := 0x0241, len := .fixed 4, priv := 2
    range := fun q _ => [(0, (1 ≤ q.u 0 1 && q.u 0 1 ≤ 7) || q.u 0 1 == 0x12), (1, q.u 1 1 ≤ 23), (2, q.u 2 1 ≤ 2)]
    state := fun q s => [masterFrozen (q.u 0 1) (q.u 1 1) s]
    effect := fun q s => (thaw (q.u 0 1) (q.u 1 1) (q.u 2 1) s, .ok []) }

def execThaw (q : Qcp) (s : State) : Host.Outcome State Fault Refusal := runHost thawCmd q s

/-! ### The debug port (R500–R502) -/

def State.modTap (s : State) (f : Tap → Tap) : State := { s with tap := f s.tap }

def execTapReset (s : State) : Host.Outcome State Fault Refusal := .next (if s.on 2 then s.modTap fun t => { t with ir := 0xFF } else s)

/-- The first failing check of an Update-DR of PROVISION sets STATE; else programming starts (R502). DEDUCED (log 81). -/
def provisionState (key : BitVec 256) (check : Word) (s : State) : Nat :=
  if s.installed then 4
  else if s.nv.rk1Done then 3
  else if crc32c (leBytes 32 key.toNat) ≠ check.toNat then 5
  else if s.nv.rk1Open ∧ s.nv.rk1 &&& ~~~key ≠ 0 then 7
  else 1

/-- DEDUCED (log 81). -/
def execProvisionUpdate (key : BitVec 256) (check : Word) (s : State) : Host.Outcome State Fault Refusal :=
  .next (if !s.on 2 || s.tap.prov == 1 then s
    else s.modTap fun t => { t with ir := 0xA0, prov := provisionState key check s, key := if provisionState key check s = 1 then key else t.key })

/-- Programming ends: the marker is blown, or a bit failed its attempts. DEDUCED (log 81). -/
def execProvisionDone (blown : Bool) (s : State) : Host.Outcome State Fault Refusal :=
  .next (if !s.on 2 || s.tap.prov != 1 then s
    else if blown then ({ s with nv := { s.nv with rk1 := s.tap.key, rk1Done := true, rk1Open := false } }).modTap fun t => { t with prov := 2 }
    else (cutProvision s).modTap fun t => { t with prov := 6 })

end Sys2Proof.Machine
end

