-- ==== Sys2Proof/Machine/Beat.lean ====
section
/-! DEFINITION. The passing of time: what runs between commands, and the beat boundary (R32–R41). -/

namespace Sys2Proof.Machine
open Sys2Proof

/-- What goes on by itself between commands: session 15's FIFOs, the UART transmitters and the EP transports move their data on (R308, R397, R432). DESIGN CHOICE (log 2). -/
def drains (s : State) : State := if s.live then drainEth (feedUarts (serveS15 s)) else s

/-- Ordering ticks pass: the customer core's timers and watchdog count (R395, R400). DESIGN CHOICE (log 2). -/
def ticksPass (n : Nat) (s : State) : State := drains (ucTicks n s)

/-- One ordering tick, while DT runs and the beat is not at its end. DESIGN CHOICE (log 2). -/
def idleTick (s : State) : State := if s.time.running ∧ s.time.tick < 25999 then ticksPass 1 s.advance else drains s

/-- The actions of tick 0, all together (R41, class 4). `inputs`: what each sample input delivered in the beat that ended;
`short`: channels whose lane left samples unprocessed, with their count (R34). DESIGN CHOICE (log 15, 19). -/
def boundaryActions (inputs : List InputBeat) (short : List (Nat × Nat)) (s : State) : State :=
  let s := inputsBoundary carafeHook inputs (startSlot s)
  let s := loopSwapBoundary (replayBoundary s)
  let s := loopSwapMissed (fabricBoundary short s)
  let s := mpBoundary (trackBoundary s)
  let s := clockBoundary (grinderBoundary s)
  let s := integrityBoundary (carafeBoundary s)
  ucBoundary (navBoundary s)

/-- The beat ends and the next opens; while DT stands there is no boundary (R27). DESIGN CHOICE (log 19). -/
def execBeatBoundary (inputs : List InputBeat) (short : List (Nat × Nat)) (s : State) : Host.Outcome State Fault Refusal :=
  .next (
    if !s.time.running then s
    else
      let s := ticksPass (26000 - s.time.tick) s.toNextBeat
      if s.live then boundaryActions inputs short s else s)

end Sys2Proof.Machine
end

