-- ==== Sys2Proof/Machine/TorpinDec.lean ====
section
/-! DEFINITION. The encoding of Torpin: formats, operand bytes, opcode maps and prefixes (R369–R373, R386). -/

namespace Sys2Proof.Machine
open Sys2Proof

/-- The formats of Table 16.1. -/
inductive Fmt where
  | n | s | r | i | m | mi | v | j | c | ci | x | p
  /-- lead bytes 0xE8–0xEF -/
  | ext
  deriving DecidableEq, Repr

/-- The format of an opcode byte; none: undefined (R371). -/
def fmtOf (op : Nat) : Option Fmt :=
  if op ≤ 0x06 then some (if op = 4 then .s else .n)
  else if 0x10 ≤ op ∧ op ≤ 0x31 then some .r
  else if 0x40 ≤ op ∧ op ≤ 0x4D then some .i
  else if op = 0x53 then some .v
  else if (0x50 ≤ op ∧ op ≤ 0x54) ∨ op = 0x5D then some .m
  else if 0x58 ≤ op ∧ op ≤ 0x5C then some .mi
  else if op = 0x60 ∨ op = 0x61 then some .j
  else if op = 0x62 ∨ op = 0x63 then some .r
  else if (0x68 ≤ op ∧ op ≤ 0x6D) ∨ op = 0x7A then some .c
  else if 0x70 ≤ op ∧ op ≤ 0x79 then some .ci
  else if op = 0x80 ∨ op = 0x81 then some .x
  else if 0xE0 ≤ op ∧ op ≤ 0xE7 then some .p
  else if 0xE8 ≤ op ∧ op ≤ 0xEF then some .ext
  else none

/-- A decoded instruction. -/
structure Dec where
  /-- what tells rows apart: the opcode byte; 0x400 + n for SVC n; 0x10000 + 256 × lead + function for a coprocessor -/
  key : Nat
  op : Nat
  a : Nat
  b : Nat
  imm : Word
  off : Word
  mode : Nat
  /-- access size in bytes -/
  size : Nat
  sx : Bool
  /-- index register and scale -/
  index : Option (Nat × Nat)
  disp : Word
  sreg : Nat
  lock : Bool
  rep : Bool
  /-- bytes with the prefixes -/
  len : Nat
  deriving DecidableEq, Repr

/-- What a core finds at its pc: an instruction; ILLEGAL after a number of bytes; ILLEGAL_PREFIX; or too few bytes to tell. -/
inductive Decoded where
  | ok (d : Dec)
  | illegal (key len : Nat)
  | badPrefix (d : Dec)
  | short
  deriving DecidableEq, Repr

def isPrefix (b : Byte) : Bool := b == 0xD8 || b == 0xD9 || b == 0xDA

/-- The prefix bytes and what follows them. -/
def splitPrefix : List Byte → List Byte × List Byte
  | [] => ([], [])
  | b :: t => if isPrefix b then let (p, r) := splitPrefix t; (b :: p, r) else ([], b :: t)

/-- A sign-extended field of n bytes. -/
def immOf (p : List Byte) (off n : Nat) : Word := BitVec.ofInt 32 (fieldI p off n)

/-- The memory operand bytes A and X with the displacement. -/
structure MemOp where
  mode : Nat
  code : Nat
  sx : Bool
  index : Option (Nat × Nat)
  disp : Word
  /-- bytes after the RR byte -/
  used : Nat
  /-- reserved bits of A and of X are 0 -/
  okA : Bool
  okX : Bool
  deriving DecidableEq, Repr

/-- Bytes of the displacement (Table 16.2). -/
def dispBytes (a : Nat) : Nat := if a / 64 = 3 then [0, 1, 2, 4].getD (a % 4) 0 else 0

def memOpOf (p : List Byte) : Option MemOp :=
  match p with
  | [] => none
  | ab :: t =>
    let a := ab.toNat
    let mode := a / 64
    let ix := mode == 3 && bitOf a 2
    let n := (if ix then 1 else 0) + dispBytes a
    if t.length < n then none
    else
      let x := ((t[0]?).getD 0).toNat
      some { mode := mode, code := bitsOf a 5 4, sx := bitOf a 3, index := if ix then some (x / 16, 2 ^ bitsOf x 3 2) else none
             disp := if dispBytes a = 0 then 0 else immOf t (if ix then 1 else 0) (dispBytes a), used := 1 + n
             okA := mode == 3 || a % 8 == 0, okX := !ix || x % 4 == 0 }

/-- SX is allowed: on a load of 8 or 16 bits; LEA makes no access (R372). -/
def sxOk (op : Nat) (m : MemOp) : Bool := !m.sx || ((op == 0x50 || op == 0x52) && m.code != 2)

/-- The A byte of an instruction is legal (R372). -/
def memLegal (op a b : Nat) (m : MemOp) : Bool :=
  m.okA && m.code != 3 && sxOk op m && (op != 0x52 || m.mode == 3) && (op != 0x53 || m.mode != 3)
  && !((op == 0x50 || op == 0x54 || op == 0x53) && (m.mode == 1 || m.mode == 2) && a == b)

/-- The coprocessor functions of a core: its lead bytes (R12), its functions and their fields (Tables 16.11–16.13). -/
def copLead (core lead : Nat) : Bool :=
  match lead with
  | 0xE0 => core == 5 || core == 6
  | 0xE1 => decide (1 ≤ core ∧ core ≤ 4)
  | 0xE2 => true
  | 0xE3 => core == 7
  | _ => false

def copFn (lead f : Nat) (imm : Bool) : Bool :=
  match lead with
  | 0xE0 => !imm && (decide (f ≤ 0x0D) || f == 0x10)
  | 0xE1 => decide (f ≤ 1) || (!imm && decide (f ≤ 5))
  | 0xE2 => !imm && decide (f ≤ 3)
  | 0xE3 => !imm && decide (f ≤ 2)
  | _ => false

def copFields (lead f a b : Nat) : Bool :=
  match lead, f with
  | 0xE1, 0 | 0xE1, 1 | 0xE1, 2 => a % 2 == 0 && b % 2 == 0
  | 0xE1, 3 | 0xE1, 4 => b % 2 == 0
  | 0xE2, 1 | 0xE2, 2 => decide (b ≤ 4)
  | 0xE2, _ => b == 0
  | 0xE3, _ => b == 0
  | _, _ => true

/-- The special registers that exist, and those that an MTS may write (Table 16.9). -/
def sregOk (op sreg : Nat) : Bool := if op = 0x80 then decide (sreg ≤ 9) else [0, 1, 3, 6].contains sreg

/-- An empty instruction of an opcode. -/
def Dec.of (op len : Nat) : Dec :=
  { key := op, op := op, a := 0, b := 0, imm := 0, off := 0, mode := 0, size := 1, sx := false, index := none, disp := 0, sreg := 0, lock := false
    rep := false, len := len }

/-- The bytes after the opcode byte: `k` is the number of bytes up to and with it. -/
def decodeTail (core op k : Nat) (wide : Bool) (t : List Byte) (f : Fmt) : Decoded :=
  let rr := ((t[0]?).getD 0).toNat
  let a := rr / 16
  let b := rr % 16
  let d := Dec.of op k
  match f with
  | .n => .ok d
  | .s => if t.length < 1 then .short else .ok { d with key := 0x400 + rr, imm := BitVec.ofNat 32 rr, len := k + 1 }
  | .r =>
    if t.length < 1 then .short
    else if (op = 0x62 ∨ op = 0x63) ∧ a ≠ 0 then .illegal op (k + 1)
    else .ok { d with a := a, b := b, len := k + 1 }
  | .i =>
    let n := if wide then 4 else 2
    if t.length < 1 then .short else if b ≠ 0 then .illegal op (k + 1)
    else if t.length < 1 + n then .short else .ok { d with a := a, imm := immOf t 1 n, len := k + 1 + n }
  | .m =>
    match memOpOf (t.drop 1) with
    | none => .short
    | some m =>
      if !memLegal op a b m then .illegal op (k + 2) else if !m.okX then .illegal op (k + 3)
      else .ok { d with a := a, b := b, mode := m.mode, size := 2 ^ m.code, sx := m.sx, index := m.index, disp := m.disp, len := k + 1 + m.used }
  | .mi =>
    if t.length < 1 then .short else if a ≠ 0 then .illegal op (k + 1)
    else match memOpOf (t.drop 1) with
      | none => .short
      | some m =>
        if !memLegal op a b m then .illegal op (k + 2) else if !m.okX then .illegal op (k + 3)
        else if t.length < 1 + m.used + 2 then .short
        else .ok { d with b := b, mode := m.mode, size := 2 ^ m.code, sx := m.sx, index := m.index, disp := m.disp
                          imm := immOf t (1 + m.used) 2, len := k + 1 + m.used + 2 }
  | .v =>
    match memOpOf (t.drop 1) with
    | none => .short
    | some m => if !memLegal op a b m then .illegal op (k + 2) else .ok { d with a := a, b := b, mode := m.mode, size := 2 ^ m.code, len := k + 2 }
  | .j =>
    let n := if wide then 4 else 2
    if t.length < n then .short else .ok { d with off := immOf t 0 n, len := k + n }
  | .c =>
    if t.length < 1 then .short else if op = 0x7A ∧ b ≠ 0 then .illegal op (k + 1)
    else if t.length < 3 then .short else .ok { d with a := a, b := b, off := immOf t 1 2, len := k + 3 }
  | .ci =>
    let n := if wide then 4 else 1
    if t.length < 1 then .short else if b ≠ 0 then .illegal op (k + 1)
    else if t.length < 3 + n then .short else .ok { d with a := a, imm := immOf t 1 n, off := immOf t (1 + n) 2, len := k + 3 + n }
  | .x =>
    let sreg := ((t[1]?).getD 0).toNat
    if t.length < 1 then .short else if b ≠ 0 then .illegal op (k + 1)
    else if t.length < 2 then .short else if !sregOk op sreg then .illegal op (k + 2)
    else .ok { d with a := a, sreg := sreg, len := k + 2 }
  | .p =>
    let fn := rr % 128
    let imm := bitOf rr 7
    let r2 := ((t[1]?).getD 0).toNat
    let key := 0x10000 + 256 * op + fn
    if !copLead core op then .illegal op k
    else if t.length < 1 then .short
    else if !copFn op fn imm then .illegal key (k + 1)
    else if t.length < 2 then .short
    else if !copFields op fn (r2 / 16) (r2 % 16) then .illegal key (k + 2)
    else
      let n := if imm then 2 else 0
      if t.length < 2 + n then .short
      else .ok { d with key := key, a := r2 / 16, b := r2 % 16, imm := BitVec.ofNat 32 (fieldU t 2 n), len := k + 2 + n }
  | .ext => if core = 7 then .ok { d with key := 0xE8 } else .illegal op k

/-- The prefixes stand in their fixed order and are permitted on the instruction (R373). -/
def prefixOk (pf : List Byte) (f : Fmt) (d : Dec) : Bool :=
  let lock := pf.contains 0xD8
  let rep := pf.contains 0xD9
  let wide := pf.contains 0xDA
  let base := d.mode == 1 || d.mode == 2
  ([[], [0xD8], [0xD9], [0xDA], [0xD8, 0xDA], [0xD9, 0xDA]] : List (List Byte)).contains pf
  && (!lock || d.op == 0x54 || d.op == 0x5D || decide (0x59 ≤ d.op ∧ d.op ≤ 0x5C))
  && (!wide || f == .i || f == .ci || f == .j)
  && (!rep || (d.mode != 3 && ((d.op == 0x50 && d.a != 13 && !(base && d.b == 13)) || ((d.op == 0x51 || d.op == 0x58) && !(base && d.b == 13))
      || (d.op == 0x53 && !(base && (d.a == 13 || d.b == 13))))))
  && (pf.isEmpty || !(f == .p || f == .ext))

/-- Decode the bytes at the pc of a core: ILLEGAL takes precedence over ILLEGAL_PREFIX. DEDUCED (log 55). -/
def decodeInsn (core : Nat) (bytes : List Byte) : Decoded :=
  let (pf, p) := splitPrefix bytes
  match p with
  | [] => .short
  | opb :: t =>
    let op := opb.toNat
    let k := pf.length + 1
    match fmtOf op with
    | none => .illegal op k
    | some f =>
      match decodeTail core op k (pf.contains 0xDA) t f with
      | .ok d =>
        let d := { d with lock := pf.contains 0xD8, rep := pf.contains 0xD9 }
        if prefixOk pf f d then .ok d else .badPrefix d
      | r => r

end Sys2Proof.Machine
end

