-- ==== Sys2Proof/Machine/Torpin.lean ====
section
/-! DEFINITION. What every Torpin instruction shares: registers, fetch, exceptions, the return stack, memory accesses and REP (R367, R375–R384). -/

namespace Sys2Proof.Machine
open Sys2Proof

/-- An instruction in execution. -/
structure Ctx where
  n : Nat
  d : Dec
  pc : Word
  next : Word
  x : Fetch
  deriving DecidableEq, Repr

/-- How an instruction ends without completing: it stalls, with what a TAG record would carry; or it has ended in a state, by an exception or a freeze. -/
inductive Stop where
  | stall (s : State) (t : Option Stall)
  | halt (s : State)
  deriving DecidableEq, Repr

/-- The effect of an instruction: the state and the next pc. -/
abbrev Body := Ctx → State → Except Stop (State × Word)

def State.g (s : State) (n i : Nat) : Word := ((s.core n).g[i]?).getD 0
def State.setG (s : State) (n i : Nat) (v : Word) : State := s.modCore n fun c => { c with g := c.g.set i v }

/-- The first 8 bytes of the instruction; bytes beyond it are 0. -/
def Ctx.instr (c : Ctx) : List Byte := (c.x.bytes.take c.d.len).take 8

/-! ### Freezes -/

/-- A core freezes; one that is the standby navigation core aborts a replay (R300). DEDUCED (log 53). -/
def haltCore (n : Nat) (v : Violation) (a : CoreAccess) (s : State) : State :=
  let s := freezeCore n v a s
  if (n = 5 ∨ n = 6) ∧ n ≠ 5 + s.nav.active then abortReplay s else s

/-- The freeze of an instruction at one access. DEDUCED (log 53). -/
def Ctx.freeze (c : Ctx) (v : Violation) (addr : Nat) (k : Access) (lockFreed : Bool) (s : State) : State :=
  haltCore c.n v
    { addr := addr, access := 2 ^ k.bit + (if inIo addr then 8 else 0), write := k == .store, rep := c.d.rep, lockFreed := lockFreed, sameTick := c.x.sameTick
      pc := c.pc.toNat, next := c.next, instr := c.instr } s

/-! ### The return stack (R378) and exceptions (R382) -/

/-- The n bytes at an address of the return stack lie in the RS window and obey the bank rules. -/
def stackJudge (s : State) (core a n : Nat) (write : Bool) : Verdict × Nat :=
  match s.rsWindow core with
  | none => (.bad .rs, a)
  | some (_, w) => if w.base ≤ a ∧ a + n ≤ w.limit then s.judgeBanks core a n write else (.bad .rs, a)

/-- Push bytes: they are written at RSP − n. -/
def pushStack (c : Ctx) (bs : List Byte) (s : State) : Except Stop State :=
  let a := ((s.core c.n).rsp - BitVec.ofNat 32 bs.length).toNat
  match stackJudge s c.n a bs.length true with
  | (.bad v, x) => .error (.halt (c.freeze v x .store false s))
  | (.stall, _) => .error (.stall s none)
  | (.ok, _) => .ok ((s.memWrite a bs).modCore c.n fun k => { k with rsp := BitVec.ofNat 32 a })

/-- Pop n bytes: they are read at RSP. -/
def popStack (c : Ctx) (n : Nat) (s : State) : Except Stop (State × List Byte) :=
  let a := (s.core c.n).rsp.toNat
  match stackJudge s c.n a n false with
  | (.bad v, x) => .error (.halt (c.freeze v x .load false s))
  | (.stall, _) => .error (.stall s none)
  | (.ok, _) =>
    let bs := s.memRead a n
    match s.eccRead c.n a n with
    | (s, some x) => .error (.halt (c.freeze .ecc x .load false s))
    | (s, none) => .ok (s.modCore c.n fun k => { k with rsp := k.rsp + BitVec.ofNat 32 n }, bs)

/-- ESTATUS as pushed and read. -/
def Core.estatus (k : Core) : Word := if k.ie then 1 else 0

/-- Take an exception: push EPC and ESTATUS, set ECAUSE, EADDR and ELEN, clear IE, act as FENCE, and go to EVB + 32 × ECAUSE (R382).
A push that reaches outside the RS window freezes the core with the entry having no effect. DEDUCED (log 63). -/
def takeException (c : Ctx) (cause : Nat) (epc eaddr : Word) (elen : Nat) (s : State) : State :=
  match pushStack c (leBytes 4 epc.toNat ++ leBytes 4 (s.core c.n).estatus.toNat) s with
  | .error (.halt s) => s
  | .error (.stall s _) => s
  | .ok s =>
    s.modCore c.n fun k =>
      { k with ecause := BitVec.ofNat 8 cause, eaddr := eaddr, elen := elen % 16, ie := false, ieNext := false, mode := .running
               pc := k.evb + BitVec.ofNat 32 (32 * cause) }

/-- An exception of the instruction itself. -/
def Ctx.raise (c : Ctx) (cause : Nat) (eaddr : Word) (s : State) : State := takeException c cause c.pc eaddr c.d.len s

/-- The first four bytes of an instruction of a length, little-endian; bytes beyond it are 0. -/
def firstWord (bytes : List Byte) (len : Nat) : Word := BitVec.ofNat 32 (fieldU (bytes.take len) 0 4)

/-! ### Memory accesses (R375, R383) -/

/-- ALIGN, then the bank rules and windows, of one access. -/
def checkAccess (c : Ctx) (k : Access) (a size align : Nat) (locked : Bool) (s : State) : Except Stop Unit :=
  if a % align ≠ 0 ∨ (inIo a ∧ (size ≠ 4 ∨ locked)) then .error (.halt (c.raise 4 (BitVec.ofNat 32 a) s))
  else if inIo a ∧ c.n = 7 ∧ !ioBlock a then .error (.halt (c.freeze .window a k false s))
  else match s.judgeCore c.n k a size with
    | (.bad v, x) => .error (.halt (c.freeze v x k (locked && k == .store) s))
    | (.stall, _) =>
      .error (.stall s (if k = .load ∧ rangesHit s.unverified a size then
        some { addr := a, size := size, access := 1, rep := c.d.rep, locked := locked, next := c.next, instr := c.instr } else none))
    | (.ok, _) => .ok ()

/-- Read after the checks; a vendor core's own I/O registers read a free value. -/
def readBytes (c : Ctx) (a size : Nat) (s : State) : Except Stop (State × List Byte) :=
  if inIo a then
    if c.n = 7 then let (s, v) := ioRead a s; .ok (s, u32 v)
    else let (s, v) := s.openVal 96; .ok (s, u32 v)
  else
    let bs := s.memRead a size
    match s.eccRead c.n a size with
    | (s, some x) => .error (.halt (c.freeze .ecc x .load false s))
    | (s, none) => .ok (s, bs)

/-- Write after the checks. -/
def writeBytes (c : Ctx) (a : Nat) (bs : List Byte) (s : State) : State :=
  if inIo a then (if c.n = 7 then ioWrite a (leNat bs) s else s) else storeAs c.x.clash c.n a bs s

/-- The value of a load, extended to 32 bits. -/
def extend (sx : Bool) (bs : List Byte) : Word := if sx then BitVec.ofInt 32 (toSigned bs.length (leNat bs)) else BitVec.ofNat 32 (leNat bs)

/-- The effective address (R370). -/
def Ctx.ea (c : Ctx) (base : Nat) (s : State) : Nat :=
  let b := s.g c.n base
  match c.d.mode with
  | 2 => (b - BitVec.ofNat 32 c.d.size).toNat
  | 3 => (b + (match c.d.index with | some (i, k) => s.g c.n i * BitVec.ofNat 32 k | none => 0) + c.d.disp).toNat
  | _ => b.toNat

/-- The update of a base register by MODE 0b01 and 0b10. -/
def Ctx.bump (c : Ctx) (base : Nat) (s : State) : State :=
  match c.d.mode with
  | 1 => s.setG c.n base (s.g c.n base + BitVec.ofNat 32 c.d.size)
  | 2 => s.setG c.n base (s.g c.n base - BitVec.ofNat 32 c.d.size)
  | _ => s

/-- A load of an operand with its base update. -/
def Ctx.loadOp (c : Ctx) (s : State) : Except Stop (State × Word) :=
  let a := c.ea c.d.b s
  match checkAccess c .load a c.d.size c.d.size false s with
  | .error e => .error e
  | .ok _ => match readBytes c a c.d.size s with
    | .error e => .error e
    | .ok (s, bs) => .ok (c.bump c.d.b s, extend c.d.sx bs)

/-- A store of an operand with its base update. -/
def Ctx.storeOp (c : Ctx) (v : Word) (s : State) : Except Stop State :=
  let a := c.ea c.d.b s
  match checkAccess c .store a c.d.size c.d.size false s with
  | .error e => .error e
  | .ok _ => .ok (c.bump c.d.b (writeBytes c a (leBytes c.d.size v.toNat) s))

/-- A read-modify-write of an operand: `f` gives what is written from what was read (R376). -/
def Ctx.rmwOp (c : Ctx) (locked : Bool) (f : Word → Word) (s : State) : Except Stop (State × Word) :=
  let a := c.ea c.d.b s
  match checkAccess c .load a c.d.size c.d.size locked s with
  | .error e => .error e
  | .ok _ => match checkAccess c .store a c.d.size c.d.size locked s with
    | .error e => .error e
    | .ok _ => match readBytes c a c.d.size s with
      | .error e => .error e
      | .ok (s, bs) =>
        let old := extend false bs
        .ok (c.bump c.d.b (writeBytes c a (leBytes c.d.size (f old).toNat) s), old)

/-! ### REP (R380) -/

/-- Iterations, each followed by c := c − 1. DESIGN CHOICE (log 57). -/
def repLoop (n : Nat) (iter : State → Except Stop State) : Nat → State → Except Stop State
  | 0, s => .ok s
  | k + 1, s => match iter s with
    | .error e => .error e
    | .ok s => repLoop n iter k (s.setG n 13 (s.g n 13 - 1))

/-- One access, or under REP as many as c counts; where something happens at an earlier iteration boundary, the rest is left with pc at the instruction. DESIGN CHOICE (log 57). -/
def Ctx.repeated (c : Ctx) (iter : State → Except Stop State) (s : State) : Except Stop (State × Word) :=
  if c.d.rep then
    let count := (s.g c.n 13).toNat
    let k := match c.x.upTo with | some m => min m count | none => count
    match repLoop c.n iter k s with
    | .error e => .error e
    | .ok s => .ok (s, if k = count then c.next else c.pc)
  else match iter s with
    | .error e => .error e
    | .ok s => .ok (s, c.next)

/-! ### The instruction boundary (R383, R384) -/

def coreDomain (n : Nat) : Nat := if n = 0 then 2 else if n ≤ 4 then 8 else if n ≤ 6 then 9 else 10

/-- The core runs: a core in WAIT goes on once an enabled line is pending. -/
def coreReady (s : State) (n : Nat) : Bool :=
  s.live && decide (n ≤ 7) && s.on (coreDomain n) && match (s.core n).mode with
    | .running => true
    | .waiting => (s.dueLine n).isSome
    | _ => false

/-- An interrupt is due at this boundary. -/
def interruptDue (s : State) (n : Nat) : Bool := (s.core n).ie && (s.dueLine n).isSome

/-- The first byte of the instruction that may not be fetched, with what it meets. DEDUCED (log 55). -/
def fetchJudge (s : State) (n : Nat) (pc : Word) (len : Nat) : Verdict × Nat :=
  (((List.range len).map fun i =>
    let a := (pc + BitVec.ofNat 32 i).toNat
    if inIo a then (Verdict.bad .window, a) else (s.judgeCore n .fetch a 1)).find? fun v => decide (v.1 ≠ .ok)).getD (.ok, pc.toNat)

/-- The length that the fetch covers. -/
def Decoded.len : Decoded → Nat
  | .ok d => d.len
  | .illegal _ n => n
  | .badPrefix d => d.len
  | .short => 0

def Decoded.key : Decoded → Nat
  | .ok d => d.key
  | .illegal k _ => k
  | .badPrefix d => d.key
  | .short => 0xFFFF

/-- Bytes from an address as the extension trap reads them: bytes that no X window covers read 0 (R390). -/
def uncheckedWord (s : State) (n : Nat) (pc : Word) (bytes : List Byte) : Word :=
  BitVec.ofNat 32 (leNat ((List.range 4).map fun i =>
    let a := (pc + BitVec.ofNat 32 i).toNat
    if s.windowOk n .fetch a 1 && !inIo a then (bytes[i]?).getD (((s.memRead a 1)[0]?).getD 0) else 0))

/-- What an instruction leaves behind when it ends. -/
def settle (c : Ctx) (r : Except Stop (State × Word)) : State :=
  match r with
  | .ok (s, pc) => s.modCore c.n fun k => { k with pc := pc, stall := none }
  | .error (.halt s) => s.modCore c.n fun k => { k with stall := none }
  | .error (.stall s t) => s.modCore c.n fun k => { k with stall := t }

/-- Run one decoded instruction whose fetch is permitted. -/
def runDecoded (x : Fetch) (dec : Decoded) (body : Body) (s : State) : State :=
  let n := x.core
  let pc := (s.core n).pc
  let s := s.modCore n fun k => { k with ie := k.ie || k.ieNext, ieNext := false, mode := .running }
  match dec with
  | .short => s
  | .illegal _ len =>
    takeException { n := n, d := Dec.of 0 len, pc := pc, next := pc + BitVec.ofNat 32 len, x := x } 1 pc (firstWord x.bytes len) len s
  | .badPrefix d =>
    takeException { n := n, d := d, pc := pc, next := pc + BitVec.ofNat 32 d.len, x := x } 2 pc (firstWord x.bytes d.len) d.len s
  | .ok d =>
    let c : Ctx := { n := n, d := d, pc := pc, next := pc + BitVec.ofNat 32 d.len, x := x }
    settle c (body c s)

/-- One instruction row: the core is at an instruction boundary without a due interrupt, and its bytes decode to the row's instruction (R383). DEDUCED (log 55, 56). -/
def runInsn (want : Nat → Bool) (body : Body) (x : Fetch) (s : State) : State :=
  let dec := decodeInsn x.core x.bytes
  let pc := (s.core x.core).pc
  if !coreReady s x.core || interruptDue s x.core || decide (dec = .short) || !want dec.key then s
  else
    let c : Ctx := { n := x.core, d := Dec.of 0 dec.len, pc := pc, next := pc + BitVec.ofNat 32 dec.len, x := x }
    match fetchJudge s x.core pc dec.len with
    | (.bad v, a) => c.freeze v a .fetch false s
    | (.stall, _) => s
    | (.ok, _) =>
      match s.eccRead x.core pc.toNat dec.len with
      | (s, some a) => c.freeze .ecc a .fetch false s
      | (s, none) => runDecoded x dec body s

/-- The row of one opcode or function. DEDUCED (log 56). -/
def insn (key : Nat) (body : Body) (x : Fetch) (s : State) : Host.Outcome State Fault Refusal := .next (runInsn (· == key) body x s)

/-- A core fetches an opcode that is undefined, or a lead byte not its own, and raises ILLEGAL (R372). DEDUCED (log 56). -/
def execIllegalInstruction (x : Fetch) (s : State) : Host.Outcome State Fault Refusal :=
  .next (match decodeInsn x.core x.bytes with
    | .illegal _ _ => runInsn (fun _ => true) (fun c s => .ok (s, c.next)) x s
    | _ => s)

/-- A pending enabled line is taken at an instruction or REP iteration boundary (R384). DEDUCED (log 63). -/
def execInterruptEntry (core : Nat) (sameTick : Bool) (s : State) : Host.Outcome State Fault Refusal :=
  .next (
    if coreReady s core && interruptDue s core then
      match s.dueLine core with
      | none => s
      | some i =>
        let pc := (s.core core).pc
        let c : Ctx := { n := core, d := Dec.of 0 0, pc := pc, next := pc, x := { core := core, bytes := [], sameTick := sameTick, upTo := none, clash := none } }
        takeException c (0x10 + i) pc 0 (s.core core).elen s
    else s)

end Sys2Proof.Machine
end

