-- ==== Sys2Proof/Machine/TorpinAlu.lean ====
section
/-! DEFINITION. The ALU instructions of Torpin (Tables 16.3, 16.4, 16.7). -/

namespace Sys2Proof.Machine
open Sys2Proof

/-- d := f d v, where v is g_b or the immediate. -/
def alu (v : Ctx → State → Word) (f : Word → Word → Word) : Body := fun c s =>
  .ok (s.setG c.n c.d.a (f (s.g c.n c.d.a) (v c s)), c.next)

/-- The same, with ARITH where the operation has no result. -/
def aluTrap (v : Ctx → State → Word) (f : Word → Word → Option Word) : Body := fun c s =>
  match f (s.g c.n c.d.a) (v c s) with
  | some r => .ok (s.setG c.n c.d.a r, c.next)
  | none => .error (.halt (c.raise 3 0 s))

/-- The source of the register forms, and of the immediate forms. -/
def srcReg (c : Ctx) (s : State) : Word := s.g c.n c.d.b
def srcImm (c : Ctx) (_ : State) : Word := c.d.imm

/-- The sum or difference, unless it overflows as signed. -/
def narrow (r : Int) : Option Word := if -2147483648 ≤ r ∧ r ≤ 2147483647 then some (BitVec.ofInt 32 r) else none
def addv (d v : Word) : Option Word := narrow (d.toInt + v.toInt)
def subv (d v : Word) : Option Word := narrow (d.toInt - v.toInt)

/-- Shift and rotate counts are bits 7 to 0. -/
def shl (d v : Word) : Word := d <<< (v.toNat % 256)
def shr (d v : Word) : Word := d >>> (v.toNat % 256)
def sar (d v : Word) : Word := d.sshiftRight (v.toNat % 256)
def rol (d v : Word) : Word := d.rotateLeft (v.toNat % 256)
def ror (d v : Word) : Word := d.rotateRight (v.toNat % 256)

def mulh (d v : Word) : Word := BitVec.ofInt 32 (d.toInt * v.toInt / 4294967296)
def mulhu (d v : Word) : Word := BitVec.ofNat 32 (d.toNat * v.toNat / 4294967296)

/-- Division and remainder (Table 16.7). -/
def sdivW (d v : Word) : Word := BitVec.ofInt 32 (d.toInt.tdiv v.toInt)
def sremW (d v : Word) : Word := BitVec.ofInt 32 (d.toInt.tmod v.toInt)
def orArith (f : Word → Word → Word) (d v : Word) : Option Word := if v = 0 then none else some (f d v)
def orZero (f : Word → Word → Word) (d v : Word) : Word := if v = 0 then 0 else f d v
def orSame (f : Word → Word → Word) (d v : Word) : Word := if v = 0 then d else f d v

/-- Leading zeros, 32 for 0. -/
def clz (v : Word) : Word := if v = 0 then 32 else BitVec.ofNat 32 (31 - v.toNat.log2)
def popc (v : Word) : Word := BitVec.ofNat 32 (((List.range 32).filter fun i => v.getLsbD i).length)

def execMov (x : Fetch) (s : State) : Host.Outcome State Fault Refusal := insn 0x10 (alu srcReg (fun _ v => v)) x s
def execMovi (x : Fetch) (s : State) : Host.Outcome State Fault Refusal := insn 0x40 (alu srcImm (fun _ v => v)) x s
def execAdd (x : Fetch) (s : State) : Host.Outcome State Fault Refusal := insn 0x11 (alu srcReg (fun d v => d + v)) x s
def execAddi (x : Fetch) (s : State) : Host.Outcome State Fault Refusal := insn 0x41 (alu srcImm (fun d v => d + v)) x s
def execSub (x : Fetch) (s : State) : Host.Outcome State Fault Refusal := insn 0x12 (alu srcReg (fun d v => d - v)) x s
def execSubi (x : Fetch) (s : State) : Host.Outcome State Fault Refusal := insn 0x42 (alu srcImm (fun d v => d - v)) x s
def execAddv (x : Fetch) (s : State) : Host.Outcome State Fault Refusal := insn 0x13 (aluTrap srcReg addv) x s
def execAddvi (x : Fetch) (s : State) : Host.Outcome State Fault Refusal := insn 0x43 (aluTrap srcImm addv) x s
def execSubv (x : Fetch) (s : State) : Host.Outcome State Fault Refusal := insn 0x14 (aluTrap srcReg subv) x s
def execSubvi (x : Fetch) (s : State) : Host.Outcome State Fault Refusal := insn 0x44 (aluTrap srcImm subv) x s
def execAnd (x : Fetch) (s : State) : Host.Outcome State Fault Refusal := insn 0x15 (alu srcReg (fun d v => d &&& v)) x s
def execAndi (x : Fetch) (s : State) : Host.Outcome State Fault Refusal := insn 0x45 (alu srcImm (fun d v => d &&& v)) x s
def execOr (x : Fetch) (s : State) : Host.Outcome State Fault Refusal := insn 0x16 (alu srcReg (fun d v => d ||| v)) x s
def execOri (x : Fetch) (s : State) : Host.Outcome State Fault Refusal := insn 0x46 (alu srcImm (fun d v => d ||| v)) x s
def execXor (x : Fetch) (s : State) : Host.Outcome State Fault Refusal := insn 0x17 (alu srcReg (fun d v => d ^^^ v)) x s
def execXori (x : Fetch) (s : State) : Host.Outcome State Fault Refusal := insn 0x47 (alu srcImm (fun d v => d ^^^ v)) x s
def execShl (x : Fetch) (s : State) : Host.Outcome State Fault Refusal := insn 0x18 (alu srcReg shl) x s
def execShli (x : Fetch) (s : State) : Host.Outcome State Fault Refusal := insn 0x48 (alu srcImm shl) x s
def execShr (x : Fetch) (s : State) : Host.Outcome State Fault Refusal := insn 0x19 (alu srcReg shr) x s
def execShri (x : Fetch) (s : State) : Host.Outcome State Fault Refusal := insn 0x49 (alu srcImm shr) x s
def execSar (x : Fetch) (s : State) : Host.Outcome State Fault Refusal := insn 0x1a (alu srcReg sar) x s
def execSari (x : Fetch) (s : State) : Host.Outcome State Fault Refusal := insn 0x4a (alu srcImm sar) x s
def execRol (x : Fetch) (s : State) : Host.Outcome State Fault Refusal := insn 0x1b (alu srcReg rol) x s
def execRoli (x : Fetch) (s : State) : Host.Outcome State Fault Refusal := insn 0x4b (alu srcImm rol) x s
def execRor (x : Fetch) (s : State) : Host.Outcome State Fault Refusal := insn 0x1c (alu srcReg ror) x s
def execRori (x : Fetch) (s : State) : Host.Outcome State Fault Refusal := insn 0x4c (alu srcImm ror) x s
def execMul (x : Fetch) (s : State) : Host.Outcome State Fault Refusal := insn 0x1d (alu srcReg (fun d v => d * v)) x s
def execMuli (x : Fetch) (s : State) : Host.Outcome State Fault Refusal := insn 0x4d (alu srcImm (fun d v => d * v)) x s
def execMulh (x : Fetch) (s : State) : Host.Outcome State Fault Refusal := insn 0x1e (alu srcReg mulh) x s
def execMulhu (x : Fetch) (s : State) : Host.Outcome State Fault Refusal := insn 0x1f (alu srcReg mulhu) x s

def execDiv (x : Fetch) (s : State) : Host.Outcome State Fault Refusal := insn 0x20 (aluTrap srcReg (orArith sdivW)) x s
def execDivu (x : Fetch) (s : State) : Host.Outcome State Fault Refusal := insn 0x21 (aluTrap srcReg (orArith fun d v => d / v)) x s
def execDivz (x : Fetch) (s : State) : Host.Outcome State Fault Refusal := insn 0x22 (alu srcReg (orZero sdivW)) x s
def execDivzu (x : Fetch) (s : State) : Host.Outcome State Fault Refusal := insn 0x23 (alu srcReg (orZero fun d v => d / v)) x s
def execRem (x : Fetch) (s : State) : Host.Outcome State Fault Refusal := insn 0x24 (aluTrap srcReg (orArith sremW)) x s
def execRemu (x : Fetch) (s : State) : Host.Outcome State Fault Refusal := insn 0x25 (aluTrap srcReg (orArith fun d v => d % v)) x s
def execRemz (x : Fetch) (s : State) : Host.Outcome State Fault Refusal := insn 0x26 (alu srcReg (orSame sremW)) x s
def execRemzu (x : Fetch) (s : State) : Host.Outcome State Fault Refusal := insn 0x27 (alu srcReg (orSame fun d v => d % v)) x s
def execNeg (x : Fetch) (s : State) : Host.Outcome State Fault Refusal := insn 0x28 (alu srcReg fun _ v => -v) x s
def execNot (x : Fetch) (s : State) : Host.Outcome State Fault Refusal := insn 0x29 (alu srcReg fun _ v => ~~~v) x s
def execSexb (x : Fetch) (s : State) : Host.Outcome State Fault Refusal := insn 0x2A (alu srcReg fun _ v => (v.setWidth 8).signExtend 32) x s
def execSexh (x : Fetch) (s : State) : Host.Outcome State Fault Refusal := insn 0x2B (alu srcReg fun _ v => (v.setWidth 16).signExtend 32) x s
def execZexb (x : Fetch) (s : State) : Host.Outcome State Fault Refusal := insn 0x2C (alu srcReg fun _ v => v &&& 0xFF) x s
def execZexh (x : Fetch) (s : State) : Host.Outcome State Fault Refusal := insn 0x2D (alu srcReg fun _ v => v &&& 0xFFFF) x s
def execClz (x : Fetch) (s : State) : Host.Outcome State Fault Refusal := insn 0x2E (alu srcReg fun _ v => clz v) x s
def execPopc (x : Fetch) (s : State) : Host.Outcome State Fault Refusal := insn 0x2F (alu srcReg fun _ v => popc v) x s
def execSlt (x : Fetch) (s : State) : Host.Outcome State Fault Refusal := insn 0x30 (alu srcReg fun d v => if d.toInt < v.toInt then 1 else 0) x s
def execSltu (x : Fetch) (s : State) : Host.Outcome State Fault Refusal := insn 0x31 (alu srcReg fun d v => if d.toNat < v.toNat then 1 else 0) x s

end Sys2Proof.Machine
end

