-- ==== Sys2Proof/Machine/TorpinCop.lean ====
section
/-! DEFINITION. The coprocessor instructions: CP2, CP3, CP0 and CP1 (R386–R389). -/

namespace Sys2Proof.Machine
open Sys2Proof

/-! ### CP2: time (R387) -/

/-- SNAP latches DT, B and t of one tick as one set. -/
def opSnap : Body := fun c s =>
  let dt := s.time.dt.toNat
  let w (v : Nat) : Word := BitVec.ofNat 32 v
  let s := s.modCore c.n fun k => { k with latch := [w dt, w (dt / 2 ^ 32), w s.time.beat, w (s.time.beat / 2 ^ 32), w s.time.tick] }
  .ok (s.setG c.n c.d.a (w dt), c.next)

def opMfc : Body := fun c s => .ok (s.setG c.n c.d.a (((s.core c.n).latch[c.d.b]?).getD 0), c.next)
def opMtc : Body := fun c s => .ok (s.modCore c.n fun k => { k with latch := k.latch.set c.d.b (s.g c.n c.d.a) }, c.next)
def opEpoch : Body := fun c s => .ok (s.setG c.n c.d.a s.nv.epoch, c.next)

/-! ### CP3: cipher requests (R388) -/

/-- Check `k` accesses of `size` bytes each, in address order. -/
def checkRun (c : Ctx) (k : Access) (a size : Nat) : Nat → State → Except Stop Unit
  | 0, _ => .ok ()
  | n + 1, s => match checkAccess c k a size size false s with
    | .error e => .error e
    | .ok _ => checkRun c k (a + size) size n s

/-- SUBMIT reads the request block at g_a as the core's own loads. -/
def opSubmit : Body := fun c s =>
  let a := (s.g c.n c.d.a).toNat
  match checkRun c .load a 4 12 s with
  | .error e => .error e
  | .ok _ => match readBytes c a 48 s with
    | .error e => .error e
    | .ok (s, _) =>
      let (s, st) := cipherSubmit a s
      .ok (s.setG c.n c.d.a (BitVec.ofNat 32 st), c.next)

def opStatus : Body := fun c s => .ok (s.setG c.n c.d.a (BitVec.ofNat 32 s.cipher.ucStatus), c.next)

def opCancel : Body := fun c s =>
  let (s, st) := cipherCancel s
  .ok (s.setG c.n c.d.a (BitVec.ofNat 32 st), c.next)

/-! ### CP0: binary64 (R389) -/

def State.f (s : State) (n i : Nat) : BitVec 64 := ((s.core n).f[i]?).getD 0
def State.setF (s : State) (n i : Nat) (v : BitVec 64) : State := s.modCore n fun k => { k with f := k.f.set i v }

/-- The sticky bits 6 to 2 gather. -/
def State.stick (s : State) (n : Nat) (fl : BitVec 7) : State := s.modCore n fun k => { k with fstat := k.fstat ||| fl }

/-- f_a := op f_a f_b; a NaN that an operation makes has a free payload. -/
def fp (op : BitVec 64 → BitVec 64 → BitVec 64 → BitVec 64 × BitVec 7) : Body := fun c s =>
  let (s, free) := s.openVal 92
  let r := op (BitVec.ofNat 64 free) (s.f c.n c.d.a) (s.f c.n c.d.b)
  .ok ((s.setF c.n c.d.a r.1).stick c.n r.2, c.next)

/-- f_b from the 8 bytes at g_a. -/
def opFld : Body := fun c s =>
  let a := (s.g c.n c.d.a).toNat
  match checkAccess c .load a 8 8 false s with
  | .error e => .error e
  | .ok _ => match readBytes c a 8 s with
    | .error e => .error e
    | .ok (s, bs) => .ok (s.setF c.n c.d.b (BitVec.ofNat 64 (leNat bs)), c.next)

def opFst : Body := fun c s =>
  let a := (s.g c.n c.d.a).toNat
  match checkAccess c .store a 8 8 false s with
  | .error e => .error e
  | .ok _ => .ok (writeBytes c a (leBytes 8 (s.f c.n c.d.b).toNat) s, c.next)

def opFcvtif : Body := fun c s => .ok (s.setF c.n c.d.b (f64OfRat ((s.g c.n c.d.a).toInt : Rat)), c.next)

def opFcvtfi : Body := fun c s =>
  let r := f64ToInt (s.f c.n c.d.b)
  .ok ((s.setG c.n c.d.a (BitVec.ofInt 32 r.1)).stick c.n r.2, c.next)

/-- FCMP sets status bits 1 and 0. -/
def opFcmp : Body := fun c s =>
  let r := f64Cmp (s.f c.n c.d.a) (s.f c.n c.d.b)
  .ok (s.modCore c.n fun k => { k with fstat := (k.fstat &&& 0x7C) ||| BitVec.ofNat 7 r ||| nanFlag (s.f c.n c.d.a) (s.f c.n c.d.b) }, c.next)

def opFstat : Body := fun c s => .ok (s.setG c.n c.d.a ((s.core c.n).fstat.setWidth 32), c.next)
def opFclr : Body := fun c s => .ok (s.modCore c.n fun k => { k with fstat := k.fstat &&& 0x03 }, c.next)

/-- A descriptor of MXRUN. -/
structure Mx where
  a : Nat
  b : Nat
  c : Nat
  m : Nat
  k : Nat
  n : Nat
  acc : Bool
  tA : Bool
  tB : Bool
  deriving DecidableEq, Repr

/-- DESIGN CHOICE (log 60). -/
def mxOf (p : List Byte) : Mx :=
  { a := fieldU p 0 4, b := fieldU p 4 4, c := fieldU p 8 4, m := fieldU p 12 2, k := fieldU p 14 2, n := fieldU p 16 2
    acc := bitOf (fieldU p 18 2) 0, tA := bitOf (fieldU p 18 2) 1, tB := bitOf (fieldU p 18 2) 2 }

/-- The matrix of `n` binary64 at an address, read by checked loads. DESIGN CHOICE (log 60). -/
def mxLoad (c : Ctx) (a n : Nat) (s : State) : Except Stop (State × List (BitVec 64)) :=
  match checkRun c .load a 8 n s with
  | .error e => .error e
  | .ok _ => match readBytes c a (8 * n) s with
    | .error e => .error e
    | .ok (s, bs) => .ok (s, (List.range n).map fun i => BitVec.ofNat 64 (fieldU bs (8 * i) 8))

/-- One element of op(A) × op(B), + C: each multiply and each add is rounded. -/
def mxElem (free : BitVec 64) (d : Mx) (a b : List (BitVec 64)) (start : BitVec 64) (i j : Nat) : BitVec 64 × BitVec 7 :=
  (List.range d.k).foldl (fun (r : BitVec 64 × BitVec 7) t =>
    let x := (a[if d.tA then t * d.m + i else i * d.k + t]?).getD 0
    let y := (b[if d.tB then j * d.k + t else t * d.n + j]?).getD 0
    let p := f64Mul free x y
    let q := f64Add free r.1 p.1
    (q.1, r.2 ||| p.2 ||| q.2)) (start, 0)

/-- MXRUN on matrices that have been read. DESIGN CHOICE (log 60). -/
def mxCompute (free : BitVec 64) (d : Mx) (a b c0 : List (BitVec 64)) : List (BitVec 64 × BitVec 7) :=
  (List.range (d.m * d.n)).map fun e => mxElem free d a b (if d.acc then (c0[e]?).getD 0 else 0) (e / d.n) (e % d.n)

/-- The stores of MXRUN's result. DESIGN CHOICE (log 60). -/
def mxStore (c : Ctx) (d : Mx) (r : List (BitVec 64 × BitVec 7)) (s : State) : Except Stop (State × Word) :=
  match checkRun c .store d.c 8 (d.m * d.n) s with
  | .error e => .error e
  | .ok _ =>
    .ok ((writeBytes c d.c (r.flatMap fun x => leBytes 8 x.1.toNat) s).stick c.n (r.foldl (fun f x => f ||| x.2) 0), c.next)

/-- MXRUN; a descriptor with a size outside 1 to 64 has no result. DESIGN CHOICE (log 60). -/
def opMxrun : Body := fun c s =>
  let at_ := (s.g c.n c.d.a).toNat
  match checkRun c .load at_ 8 4 s with
  | .error e => .error e
  | .ok _ => match readBytes c at_ 32 s with
    | .error e => .error e
    | .ok (s, p) =>
      let d := mxOf p
      if [d.m, d.k, d.n].any fun v => v == 0 || decide (64 < v) then .ok (s, c.next)
      else match mxLoad c d.a (d.m * d.k) s with
        | .error e => .error e
        | .ok (s, a) => match mxLoad c d.b (d.k * d.n) s with
          | .error e => .error e
          | .ok (s, b) => match (if d.acc then mxLoad c d.c (d.m * d.n) s else .ok (s, [])) with
            | .error e => .error e
            | .ok (s, old) =>
              let (s, free) := s.openVal 92
              mxStore c d (mxCompute (BitVec.ofNat 64 free) d a b old) s

/-! ### CP1: complex values in pairs (R389) -/

/-- Saturation to 32 signed bits. DEDUCED (log 59). -/
def sat32s (v : Int) : Word := BitVec.ofInt 32 (clampI (-2147483648) 2147483647 v)

def State.pair (s : State) (n i : Nat) : Int × Int := ((s.g n i).toInt, (s.g n (i + 1)).toInt)

/-- Pair a times pair b, or its conjugate, shifted right by imm16[4:0] and rounded. DEDUCED (log 59). -/
def opCmul (conj : Bool) : Body := fun c s =>
  let x := s.pair c.n c.d.a
  let y := s.pair c.n c.d.b
  let q := if conj then -y.2 else y.2
  let d := 2 ^ (c.d.imm.toNat % 32)
  .ok ((s.setG c.n c.d.a (sat32s (roundDiv (x.1 * y.1 - x.2 * q) d))).setG c.n (c.d.a + 1) (sat32s (roundDiv (x.1 * q + x.2 * y.1) d)), c.next)

/-- I² + Q² of pair b. -/
def State.pow2 (s : State) (n i : Nat) : Nat := let y := s.pair n i; (y.1 * y.1 + y.2 * y.2).toNat

/-- DEDUCED (log 59). -/
def opCpow : Body := fun c s =>
  let p := s.pow2 c.n c.d.b
  .ok ((s.setG c.n c.d.a (BitVec.ofNat 32 p)).setG c.n (c.d.a + 1) (BitVec.ofNat 32 (p / 2 ^ 32)), c.next)

/-- DEDUCED (log 59). -/
def opCmag : Body := fun c s => .ok (s.setG c.n c.d.a (sat32s (nearRoot (s.pow2 c.n c.d.b))), c.next)

/-- DEDUCED (log 59). -/
def opCatan : Body := fun c s =>
  let y := s.pair c.n c.d.b
  .ok (s.setG c.n c.d.a (sat32s (roundRat (Config.atan2 (y.2 : Rat) (y.1 : Rat) * 4294967296))), c.next)

/-- DEDUCED (log 59). -/
def opCnorm : Body := fun c s =>
  let x := (s.g c.n c.d.a).toInt
  let y := (s.g c.n c.d.b).toInt
  .ok (s.setG c.n c.d.a (if x + y = 0 then 0 else sat32s (roundRat (((x - y : Int) : Rat) / ((x + y : Int) : Rat) * 2147483648))), c.next)

def execSnap (x : Fetch) (s : State) : Host.Outcome State Fault Refusal := insn 0x1E200 (opSnap) x s
def execMfc (x : Fetch) (s : State) : Host.Outcome State Fault Refusal := insn 0x1E201 (opMfc) x s
def execMtc (x : Fetch) (s : State) : Host.Outcome State Fault Refusal := insn 0x1E202 (opMtc) x s
def execEpoch (x : Fetch) (s : State) : Host.Outcome State Fault Refusal := insn 0x1E203 (opEpoch) x s
def execSubmit (x : Fetch) (s : State) : Host.Outcome State Fault Refusal := insn 0x1E300 (opSubmit) x s
def execStatus (x : Fetch) (s : State) : Host.Outcome State Fault Refusal := insn 0x1E301 (opStatus) x s
def execCancel (x : Fetch) (s : State) : Host.Outcome State Fault Refusal := insn 0x1E302 (opCancel) x s
def execFld (x : Fetch) (s : State) : Host.Outcome State Fault Refusal := insn 0x1E000 (opFld) x s
def execFst (x : Fetch) (s : State) : Host.Outcome State Fault Refusal := insn 0x1E001 (opFst) x s
def execFmov (x : Fetch) (s : State) : Host.Outcome State Fault Refusal := insn 0x1E002 (fp fun _ _ y => (y, 0)) x s
def execFadd (x : Fetch) (s : State) : Host.Outcome State Fault Refusal := insn 0x1E003 (fp f64Add) x s
def execFsub (x : Fetch) (s : State) : Host.Outcome State Fault Refusal := insn 0x1E004 (fp f64Sub) x s
def execFmul (x : Fetch) (s : State) : Host.Outcome State Fault Refusal := insn 0x1E005 (fp f64Mul) x s
def execFdiv (x : Fetch) (s : State) : Host.Outcome State Fault Refusal := insn 0x1E006 (fp f64Div) x s
def execFsqrt (x : Fetch) (s : State) : Host.Outcome State Fault Refusal := insn 0x1E007 (fp fun free _ y => f64Sqrt free y) x s
def execFneg (x : Fetch) (s : State) : Host.Outcome State Fault Refusal := insn 0x1E008 (fp fun _ _ y => (f64Flip y, 0)) x s
def execFcvtif (x : Fetch) (s : State) : Host.Outcome State Fault Refusal := insn 0x1E009 (opFcvtif) x s
def execFcvtfi (x : Fetch) (s : State) : Host.Outcome State Fault Refusal := insn 0x1E00A (opFcvtfi) x s
def execFcmp (x : Fetch) (s : State) : Host.Outcome State Fault Refusal := insn 0x1E00B (opFcmp) x s
def execFstat (x : Fetch) (s : State) : Host.Outcome State Fault Refusal := insn 0x1E00C (opFstat) x s
def execFclr (x : Fetch) (s : State) : Host.Outcome State Fault Refusal := insn 0x1E00D (opFclr) x s
def execMxrun (x : Fetch) (s : State) : Host.Outcome State Fault Refusal := insn 0x1E010 (opMxrun) x s
def execCmul (x : Fetch) (s : State) : Host.Outcome State Fault Refusal := insn 0x1E100 (opCmul false) x s
def execCmulc (x : Fetch) (s : State) : Host.Outcome State Fault Refusal := insn 0x1E101 (opCmul true) x s
def execCpow (x : Fetch) (s : State) : Host.Outcome State Fault Refusal := insn 0x1E102 (opCpow) x s
def execCmag (x : Fetch) (s : State) : Host.Outcome State Fault Refusal := insn 0x1E103 (opCmag) x s
def execCatan (x : Fetch) (s : State) : Host.Outcome State Fault Refusal := insn 0x1E104 (opCatan) x s
def execCnorm (x : Fetch) (s : State) : Host.Outcome State Fault Refusal := insn 0x1E105 (opCnorm) x s

end Sys2Proof.Machine
end

