-- ==== Sys2Proof/Machine/TorpinCtl.lean ====
section
/-! DEFINITION. The control instructions of Torpin, its special registers and the services of SVC (Tables 16.6, 16.9, 17.7). -/

namespace Sys2Proof.Machine
open Sys2Proof

/-! ### Control (R371, R378, R379, R382, R384) -/

/-- NOP; FENCE orders accesses, which take effect in program order here (R377). -/
def opNop : Body := fun c s => .ok (s, c.next)

/-- WAIT ends when an enabled line is pending. DEDUCED (log 63). -/
def opWait : Body := fun c s =>
  .ok (s.modCore c.n fun k => { k with mode := if (s.dueLine c.n).isSome then .running else .waiting }, c.next)

def opRet : Body := fun c s =>
  match popStack c 4 s with
  | .error e => .error e
  | .ok (s, bs) => .ok (s, BitVec.ofNat 32 (leNat bs))

def opRetI : Body := fun c s =>
  match popStack c 8 s with
  | .error e => .error e
  | .ok (s, bs) =>
    .ok (s.modCore c.n fun k => { k with ie := bitOf (fieldU bs 4 4) 0, ieNext := false }, BitVec.ofNat 32 (fieldU bs 0 4))

def opBrk : Body := fun c s => .error (.halt (takeException c 5 c.next 0 c.d.len s))

/-- The customer-extension trap: EADDR holds the 4 bytes from the lead byte (R390). -/
def opExtension : Body := fun c s => .error (.halt (c.raise 6 (uncheckedWord s c.n c.pc c.x.bytes) s))

/-- A jump; a call pushes the address of the next instruction first. -/
def opJump (target : Ctx → State → Word) : Body := fun c s => .ok (s, target c s)
def opCall (target : Ctx → State → Word) : Body := fun c s =>
  match pushStack c (leBytes 4 c.next.toNat) s with
  | .error e => .error e
  | .ok s' => .ok (s', target c s)

def byOffset (c : Ctx) (_ : State) : Word := c.next + c.d.off
def byReg (c : Ctx) (s : State) : Word := s.g c.n c.d.b

/-- Compare and branch. -/
def opBranch (v : Ctx → State → Word) (cond : Word → Word → Bool) : Body := fun c s =>
  .ok (s, if cond (s.g c.n c.d.a) (v c s) then c.next + c.d.off else c.next)

def withImm (c : Ctx) (_ : State) : Word := c.d.imm

def opDbnz : Body := fun c s =>
  let v := s.g c.n c.d.a - 1
  .ok (s.setG c.n c.d.a v, if v = 0 then c.next else c.next + c.d.off)

/-! ### Special registers (R381) -/

/-- The bank rules for the 4 bytes at RSP; no window is checked. DEDUCED (log 63). -/
def topCheck (c : Ctx) (write : Bool) (s : State) : Except Stop Nat :=
  let a := (s.core c.n).rsp.toNat
  match s.judgeBanks c.n a 4 write with
  | (.bad v, x) => .error (.halt (c.freeze v x (if write then .store else .load) false s))
  | (.stall, _) => .error (.stall s none)
  | (.ok, _) => .ok a

def readTop (c : Ctx) (s : State) : Except Stop (State × Word) :=
  match topCheck c false s with
  | .error e => .error e
  | .ok a =>
    let bs := s.memRead a 4
    match s.eccRead c.n a 4 with
    | (s, some x) => .error (.halt (c.freeze .ecc x .load false s))
    | (s, none) => .ok (s, BitVec.ofNat 32 (leNat bs))

/-- A special register other than TOPPC, as read. -/
def sregRead (n sreg : Nat) (s : State) : Word :=
  let k := s.core n
  match sreg with
  | 0 => k.evb
  | 1 => k.estatus
  | 2 => k.ecause.setWidth 32
  | 4 => k.eaddr
  | 5 => k.rsp
  | 6 => k.imask.setWidth 32
  | 7 => (s.linesOf n).setWidth 32
  | 8 => BitVec.ofNat 32 n
  | _ => BitVec.ofNat 32 k.elen

def opMfs : Body := fun c s =>
  if c.d.sreg = 3 then
    match readTop c s with
    | .error e => .error e
    | .ok (s, v) => .ok (s.setG c.n c.d.a v, c.next)
  else .ok (s.setG c.n c.d.a (sregRead c.n c.d.sreg s), c.next)

/-- A write of EVB, ESTATUS or IMASK: IE set by an MTS takes effect after the next instruction. -/
def sregWrite (n sreg : Nat) (v : Word) (s : State) : State :=
  s.modCore n fun k => match sreg with
    | 0 => { k with evb := v &&& 0xFFFFFC00 }
    | 1 => if v.getLsbD 0 then { k with ieNext := !k.ie } else { k with ie := false, ieNext := false }
    | _ => { k with imask := v.setWidth 16 }

def opMts : Body := fun c s =>
  let v := s.g c.n c.d.a
  if c.d.sreg = 3 then
    match topCheck c true s with
    | .error e => .error e
    | .ok a => .ok (s.memWrite a (leBytes 4 v.toNat), c.next)
  else .ok (sregWrite c.n c.d.sreg v s, c.next)

/-! ### Services (R385, R398) -/

/-- A service that UC_CFG.SVC_MASK does not allow on UC. DEDUCED (log 61). -/
def svcMasked (n k : Nat) (s : State) : Bool := n == 7 && !s.uc.svcMask.getLsbD k

/-- SVC k of UC counts; the monitor returns a status in g0 with its results. DEDUCED (log 61). -/
def service (k : Nat) (act : Ctx → State → Except Stop (State × Nat × Word)) : Body := fun c s =>
  let s := if c.n = 7 then s.modUc fun u => { u with svcCount := sat32 (u.svcCount + 1) } else s
  if svcMasked c.n k s then .ok (s.setG c.n 0 (BitVec.ofNat 32 stBadOpcode), c.next)
  else match act c s with
    | .error e => .error e
    | .ok (s, st, pc) => .ok (s.setG c.n 0 (BitVec.ofNat 32 st), pc)

def svcInfo (c : Ctx) (s : State) : Except Stop (State × Nat × Word) :=
  .ok (((s.setG c.n 1 (BitVec.ofNat 32 s.nodeId)).setG c.n 2 s.nv.epoch).setG c.n 3 (BitVec.ofNat 32 s.boot.fwCc), stOk, c.next)

/-- TIME: the segment and GEN in force at the DT asked for. DEDUCED (log 61). -/
def svcTime (c : Ctx) (s : State) : Except Stop (State × Nat × Word) :=
  let dt := s.now / 2 ^ 64 * 2 ^ 64 + (s.g c.n 2).toNat * 2 ^ 32 + (s.g c.n 1).toNat
  let t := s.clock.gpsNs dt
  let valid := s.clock.valid && (s.clock.seg dt).isSome
  .ok (((s.setG c.n 1 (BitVec.ofNat 32 t)).setG c.n 2 (BitVec.ofNat 32 (t / 2 ^ 32))).setG c.n 3
    (BitVec.ofNat 32 (s.clock.genAt dt + if valid then 2 ^ 31 else 0)), stOk, c.next)

/-- PVT_COPY: the record is written under the UC windows; a violation does not freeze UC. DEDUCED (log 61). -/
def svcPvtCopy (c : Ctx) (s : State) : Except Stop (State × Nat × Word) :=
  let a := (s.g c.n 1).toNat
  let kind := (s.g c.n 2).toNat
  if 1 < kind then .ok (s, stRange, c.next)
  else match (if kind = 0 then s.nav.pvt else s.nav.fused) with
    | none => .ok (s, stState, c.next)
    | some r =>
      if inIo a then .ok (s, stFault, c.next)
      else match s.judgeCore 7 .store a r.bytes.length with
        | (.bad _, _) => .ok (s, stFault, c.next)
        | (.stall, _) => .error (.stall s none)
        | (.ok, _) => .ok (storeAs c.x.clash 7 a r.bytes s, stOk, c.next)

def svcWdog (c : Ctx) (s : State) : Except Stop (State × Nat × Word) :=
  .ok (s.modUc fun u => { u with wdogLeft := if c.n = 7 then s.wdogReload else u.wdogLeft }, stOk, c.next)

/-- LOG: UC_EVENT, and a UC_LOG entry of the trip log (Table 20.8). -/
def svcLog (c : Ctx) (s : State) : Except Stop (State × Nat × Word) :=
  .ok ((s.ucEvent 6 (some (s.g c.n 1).toNat)).logTrip 5 none (some (s.g c.n 1).toInt), stOk, c.next)

/-- NEXT_BEAT: the core stalls in place until the next beat boundary. -/
def svcNextBeat (c : Ctx) (s : State) : Except Stop (State × Nat × Word) :=
  .ok (s.modCore c.n fun k => { k with mode := .svcBeat }, stOk, c.next)

/-- SWAP_READY: the hand-over of a swap that waits for it; the program that called does not return (R402). DEDUCED (log 61). -/
def opSwapReady : Body := fun c s =>
  if c.n = 7 ∧ !svcMasked c.n 6 s ∧ s.uc.state = .suspending ∧ (s.uc.swap.any fun w => w.handed.isNone) then
    let s := swapProgram (s.g c.n 1) false (s.modUc fun u => { u with svcCount := sat32 (u.svcCount + 1) })
    .ok (s, (s.core 7).pc)
  else service 6 (fun c s => .ok (s, stState, c.next)) c s

/-- An undefined service. -/
def opUndefinedService : Body := service 16 fun c s => .ok (s, stBadOpcode, c.next)

def execNop (x : Fetch) (s : State) : Host.Outcome State Fault Refusal := insn 0x00 (opNop) x s
/-- DEDUCED (log 63). -/
def execWait (x : Fetch) (s : State) : Host.Outcome State Fault Refusal := insn 0x01 (opWait) x s
def execRet (x : Fetch) (s : State) : Host.Outcome State Fault Refusal := insn 0x02 (opRet) x s
def execReti (x : Fetch) (s : State) : Host.Outcome State Fault Refusal := insn 0x03 (opRetI) x s
def execInfo (x : Fetch) (s : State) : Host.Outcome State Fault Refusal := insn 0x400 (service 0 svcInfo) x s
def execTime (x : Fetch) (s : State) : Host.Outcome State Fault Refusal := insn 0x401 (service 1 svcTime) x s
def execPvtCopy (x : Fetch) (s : State) : Host.Outcome State Fault Refusal := insn 0x402 (service 2 svcPvtCopy) x s
def execWdog (x : Fetch) (s : State) : Host.Outcome State Fault Refusal := insn 0x403 (service 3 svcWdog) x s
def execLog (x : Fetch) (s : State) : Host.Outcome State Fault Refusal := insn 0x404 (service 4 svcLog) x s
def execNextBeat (x : Fetch) (s : State) : Host.Outcome State Fault Refusal := insn 0x405 (service 5 svcNextBeat) x s
def execSwapReady (x : Fetch) (s : State) : Host.Outcome State Fault Refusal := insn 0x406 (opSwapReady) x s
def execBrk (x : Fetch) (s : State) : Host.Outcome State Fault Refusal := insn 0x05 (opBrk) x s
def execFence (x : Fetch) (s : State) : Host.Outcome State Fault Refusal := insn 0x06 (opNop) x s
def execJmp (x : Fetch) (s : State) : Host.Outcome State Fault Refusal := insn 0x60 (opJump byOffset) x s
def execCall (x : Fetch) (s : State) : Host.Outcome State Fault Refusal := insn 0x61 (opCall byOffset) x s
def execJmpr (x : Fetch) (s : State) : Host.Outcome State Fault Refusal := insn 0x62 (opJump byReg) x s
def execCallr (x : Fetch) (s : State) : Host.Outcome State Fault Refusal := insn 0x63 (opCall byReg) x s
def execBeq (x : Fetch) (s : State) : Host.Outcome State Fault Refusal := insn 0x68 (opBranch byReg fun a v => a == v) x s
def execBne (x : Fetch) (s : State) : Host.Outcome State Fault Refusal := insn 0x69 (opBranch byReg fun a v => a != v) x s
def execBlt (x : Fetch) (s : State) : Host.Outcome State Fault Refusal := insn 0x6A (opBranch byReg fun a v => decide (a.toInt < v.toInt)) x s
def execBge (x : Fetch) (s : State) : Host.Outcome State Fault Refusal := insn 0x6B (opBranch byReg fun a v => decide (v.toInt ≤ a.toInt)) x s
def execBltu (x : Fetch) (s : State) : Host.Outcome State Fault Refusal := insn 0x6C (opBranch byReg fun a v => decide (a.toNat < v.toNat)) x s
def execBgeu (x : Fetch) (s : State) : Host.Outcome State Fault Refusal := insn 0x6D (opBranch byReg fun a v => decide (v.toNat ≤ a.toNat)) x s
def execBeqi (x : Fetch) (s : State) : Host.Outcome State Fault Refusal := insn 0x70 (opBranch withImm fun a v => a == v) x s
def execBnei (x : Fetch) (s : State) : Host.Outcome State Fault Refusal := insn 0x71 (opBranch withImm fun a v => a != v) x s
def execBlti (x : Fetch) (s : State) : Host.Outcome State Fault Refusal := insn 0x72 (opBranch withImm fun a v => decide (a.toInt < v.toInt)) x s
def execBgei (x : Fetch) (s : State) : Host.Outcome State Fault Refusal := insn 0x73 (opBranch withImm fun a v => decide (v.toInt ≤ a.toInt)) x s
def execBltui (x : Fetch) (s : State) : Host.Outcome State Fault Refusal := insn 0x74 (opBranch withImm fun a v => decide (a.toNat < v.toNat)) x s
def execBgeui (x : Fetch) (s : State) : Host.Outcome State Fault Refusal := insn 0x75 (opBranch withImm fun a v => decide (v.toNat ≤ a.toNat)) x s
def execBgti (x : Fetch) (s : State) : Host.Outcome State Fault Refusal := insn 0x76 (opBranch withImm fun a v => decide (v.toInt < a.toInt)) x s
def execBlei (x : Fetch) (s : State) : Host.Outcome State Fault Refusal := insn 0x77 (opBranch withImm fun a v => decide (a.toInt ≤ v.toInt)) x s
def execBgtui (x : Fetch) (s : State) : Host.Outcome State Fault Refusal := insn 0x78 (opBranch withImm fun a v => decide (v.toNat < a.toNat)) x s
def execBleui (x : Fetch) (s : State) : Host.Outcome State Fault Refusal := insn 0x79 (opBranch withImm fun a v => decide (a.toNat ≤ v.toNat)) x s
def execDbnz (x : Fetch) (s : State) : Host.Outcome State Fault Refusal := insn 0x7A (opDbnz) x s
def execMfs (x : Fetch) (s : State) : Host.Outcome State Fault Refusal := insn 0x80 (opMfs) x s
def execMts (x : Fetch) (s : State) : Host.Outcome State Fault Refusal := insn 0x81 (opMts) x s
def execCustomerExtension (x : Fetch) (s : State) : Host.Outcome State Fault Refusal := insn 0xE8 (opExtension) x s

/-- SVC with an n that Table 17.7 does not define. -/
def execUndefinedService (x : Fetch) (s : State) : Host.Outcome State Fault Refusal :=
  .next (runInsn (fun k => decide (0x407 ≤ k ∧ k ≤ 0x4FF)) opUndefinedService x s)

end Sys2Proof.Machine
end

