-- ==== Sys2Proof/Machine/TorpinMem.lean ====
section
/-! DEFINITION. The memory instructions of Torpin (Table 16.5, R375, R376, R380). -/

namespace Sys2Proof.Machine
open Sys2Proof

/-- One iteration of LD. -/
def loadIter (c : Ctx) (s : State) : Except Stop State :=
  match c.loadOp s with
  | .error e => .error e
  | .ok (s, v) => .ok (s.setG c.n c.d.a v)

/-- One iteration of MVM: both accesses are checked, then the bytes move and both bases are updated (R371, R380). -/
def moveIter (c : Ctx) (s : State) : Except Stop State :=
  let src := c.ea c.d.b s
  let dst := c.ea c.d.a s
  match checkAccess c .load src c.d.size c.d.size false s with
  | .error e => .error e
  | .ok _ => match checkAccess c .store dst c.d.size c.d.size false s with
    | .error e => .error e
    | .ok _ => match readBytes c src c.d.size s with
      | .error e => .error e
      | .ok (s, bs) => .ok (c.bump c.d.a (c.bump c.d.b (writeBytes c dst bs s)))

def opLoad : Body := fun c s => c.repeated (loadIter c) s
def opStore : Body := fun c s => c.repeated (fun s => c.storeOp (s.g c.n c.d.a) s) s
def opStoreImm : Body := fun c s => c.repeated (c.storeOp c.d.imm) s
def opMove : Body := fun c s => c.repeated (moveIter c) s
def opLea : Body := fun c s => .ok (s.setG c.n c.d.a (BitVec.ofNat 32 (c.ea c.d.b s)), c.next)

/-- A read-modify-write of memory, locked under LOCK. -/
def opModify (f : Word → Word → Word) (v : Ctx → State → Word) : Body := fun c s =>
  match c.rmwOp c.d.lock (fun old => f old (v c s)) s with
  | .error e => .error e
  | .ok (s, _) => .ok (s, c.next)

/-- XCHG: always locked; the value read is zero-extended into g_a. -/
def opExchange : Body := fun c s =>
  match c.rmwOp true (fun _ => s.g c.n c.d.a) s with
  | .error e => .error e
  | .ok (s, old) => .ok (s.setG c.n c.d.a old, c.next)

def execLd (x : Fetch) (s : State) : Host.Outcome State Fault Refusal := insn 0x50 (opLoad) x s
def execSt (x : Fetch) (s : State) : Host.Outcome State Fault Refusal := insn 0x51 (opStore) x s
def execLea (x : Fetch) (s : State) : Host.Outcome State Fault Refusal := insn 0x52 (opLea) x s
def execMvm (x : Fetch) (s : State) : Host.Outcome State Fault Refusal := insn 0x53 (opMove) x s
def execXchg (x : Fetch) (s : State) : Host.Outcome State Fault Refusal := insn 0x54 (opExchange) x s
def execSti (x : Fetch) (s : State) : Host.Outcome State Fault Refusal := insn 0x58 (opStoreImm) x s
def execAddm (x : Fetch) (s : State) : Host.Outcome State Fault Refusal := insn 0x59 (opModify (fun m v => m + v) fun c _ => c.d.imm) x s
def execAndm (x : Fetch) (s : State) : Host.Outcome State Fault Refusal := insn 0x5A (opModify (fun m v => m &&& v) fun c _ => c.d.imm) x s
def execOrm (x : Fetch) (s : State) : Host.Outcome State Fault Refusal := insn 0x5B (opModify (fun m v => m ||| v) fun c _ => c.d.imm) x s
def execXorm (x : Fetch) (s : State) : Host.Outcome State Fault Refusal := insn 0x5C (opModify (fun m v => m ^^^ v) fun c _ => c.d.imm) x s
def execAddmr (x : Fetch) (s : State) : Host.Outcome State Fault Refusal := insn 0x5D (opModify (fun m v => m + v) fun c s => s.g c.n c.d.a) x s

end Sys2Proof.Machine
end

