-- ==== Sys2Proof/Machine/Dispatch.lean ====
section
/-! DEFINITION. The dispatch of a command to its meaning, one arm for each constructor of `Instr`. -/

namespace Sys2Proof.Machine
open Sys2Proof

/-- DESIGN CHOICE (log 82). -/
def exec (i : Instr) (s : State) : Host.Outcome State Fault Refusal :=
  match i with
  | .identity q => Sys2Proof.Machine.execIdentity q s
  | .sessionOpen q => Sys2Proof.Machine.execSessionOpen q s
  | .sessionClose q => Sys2Proof.Machine.execSessionClose q s
  | .sessionStatus q => Sys2Proof.Machine.execSessionStatus q s
  | .echo q => Sys2Proof.Machine.execEcho q s
  | .noticeMask q => Sys2Proof.Machine.execNoticeMask q s
  | .transportCfg q => Sys2Proof.Machine.execTransportCfg q s
  | .undefinedOpcode opc q => Sys2Proof.Machine.execUndefinedOpcode opc q s
  | .qcpFrameRejected transport ep cause => Sys2Proof.Machine.execQcpFrameRejected transport ep cause s
  | .gapTimeout transport => Sys2Proof.Machine.execGapTimeout transport s
  | .reassemblyTimeout port => Sys2Proof.Machine.execReassemblyTimeout port s
  | .noticeLost session => Sys2Proof.Machine.execNoticeLost session s
  | .powerState q save => Sys2Proof.Machine.execPowerState q save s
  | .powerStatus q => Sys2Proof.Machine.execPowerStatus q s
  | .domainSet q => Sys2Proof.Machine.execDomainSet q s
  | .percCfg q => Sys2Proof.Machine.execPercCfg q s
  | .percRuleWrite q => Sys2Proof.Machine.execPercRuleWrite q s
  | .percRuleRead q => Sys2Proof.Machine.execPercRuleRead q s
  | .percStatus q => Sys2Proof.Machine.execPercStatus q s
  | .holdupStatus q => Sys2Proof.Machine.execHoldupStatus q s
  | .percTick p => Sys2Proof.Machine.execPercTick p s
  | .percHalt => Sys2Proof.Machine.execPercHalt s
  | .percRestart => Sys2Proof.Machine.execPercRestart s
  | .supplySag save => Sys2Proof.Machine.execSupplySag save s
  | .supplyReturn => Sys2Proof.Machine.execSupplyReturn s
  | .wakeTimeout => Sys2Proof.Machine.execWakeTimeout s
  | .resetN save => Sys2Proof.Machine.execResetN save s
  | .refinLoss save => Sys2Proof.Machine.execRefinLoss save s
  | .refinReturn => Sys2Proof.Machine.execRefinReturn s
  | .watchdogReset save => Sys2Proof.Machine.execWatchdogReset save s
  | .boot images => Sys2Proof.Machine.execBoot images s
  | .holdupReady vhold => Sys2Proof.Machine.execHoldupReady vhold s
  | .chargeTimeout => Sys2Proof.Machine.execChargeTimeout s
  | .trialTimeout => Sys2Proof.Machine.execTrialTimeout s
  | .tempHigh temp => Sys2Proof.Machine.execTempHigh temp s
  | .watchTimeEval => Sys2Proof.Machine.execWatchTimeEval s
  | .dtWrap => Sys2Proof.Machine.execDtWrap s
  | .beatBoundary inputs short => Sys2Proof.Machine.execBeatBoundary inputs short s
  | .clkLoss input => Sys2Proof.Machine.execClkLoss input s
  | .clockResume input => Sys2Proof.Machine.execClockResume input s
  | .alignmentFixed input nibbles => Sys2Proof.Machine.execAlignmentFixed input nibbles s
  | .installWrite q => Sys2Proof.Machine.execInstallWrite q s
  | .installRead q => Sys2Proof.Machine.execInstallRead q s
  | .inputEnable q => Sys2Proof.Machine.execInputEnable q s
  | .subbandSet q => Sys2Proof.Machine.execSubbandSet q s
  | .inputStats q => Sys2Proof.Machine.execInputStats q s
  | .grinderCfg q => Sys2Proof.Machine.execGrinderCfg q s
  | .grinderStatus q => Sys2Proof.Machine.execGrinderStatus q s
  | .ledgerWrite q => Sys2Proof.Machine.execLedgerWrite q s
  | .ledgerRead q => Sys2Proof.Machine.execLedgerRead q s
  | .ledgerCancel q => Sys2Proof.Machine.execLedgerCancel q s
  | .ledgerFree q => Sys2Proof.Machine.execLedgerFree q s
  | .acqPlan q => Sys2Proof.Machine.execAcqPlan q s
  | .entryDispatch pipe => Sys2Proof.Machine.execEntryDispatch pipe s
  | .grinderEntryDone pipe result => Sys2Proof.Machine.execGrinderEntryDone pipe result s
  | .entryCancelled pipe => Sys2Proof.Machine.execEntryCancelled pipe s
  | .handover index => Sys2Proof.Machine.execHandover index s
  | .handoverExpired index => Sys2Proof.Machine.execHandoverExpired index s
  | .fabricCfg q => Sys2Proof.Machine.execFabricCfg q s
  | .fabricStatus q => Sys2Proof.Machine.execFabricStatus q s
  | .chanStart q => Sys2Proof.Machine.execChanStart q s
  | .chanStop q => Sys2Proof.Machine.execChanStop q s
  | .chanRead q => Sys2Proof.Machine.execChanRead q s
  | .chanModify q => Sys2Proof.Machine.execChanModify q s
  | .codeLoad q => Sys2Proof.Machine.execCodeLoad q s
  | .dumpService core count late => Sys2Proof.Machine.execDumpService core count late s
  | .pullinTimeout channel => Sys2Proof.Machine.execPullinTimeout channel s
  | .coastTimeout channel => Sys2Proof.Machine.execCoastTimeout channel s
  | .channelRelease channel => Sys2Proof.Machine.execChannelRelease channel s
  | .mpFit core fit => Sys2Proof.Machine.execMpFit core fit s
  | .trackProfile q => Sys2Proof.Machine.execTrackProfile q s
  | .trackAssign q => Sys2Proof.Machine.execTrackAssign q s
  | .trackProfileRead q => Sys2Proof.Machine.execTrackProfileRead q s
  | .trackStatus q => Sys2Proof.Machine.execTrackStatus q s
  | .mpCfg q => Sys2Proof.Machine.execMpCfg q s
  | .mpRead q => Sys2Proof.Machine.execMpRead q s
  | .interfCfg q => Sys2Proof.Machine.execInterfCfg q s
  | .interfStatus q => Sys2Proof.Machine.execInterfStatus q s
  | .spoofCfg q => Sys2Proof.Machine.execSpoofCfg q s
  | .spoofStatus q => Sys2Proof.Machine.execSpoofStatus q s
  | .spoofEvaluation => Sys2Proof.Machine.execSpoofEvaluation s
  | .osnmaKey q => Sys2Proof.Machine.execOsnmaKey q s
  | .osnmaCfg q => Sys2Proof.Machine.execOsnmaCfg q s
  | .osnmaStatus q => Sys2Proof.Machine.execOsnmaStatus q s
  | .navEpoch x => Sys2Proof.Machine.execNavEpoch x s
  | .navDeadline => Sys2Proof.Machine.execNavDeadline s
  | .fusedEpoch x => Sys2Proof.Machine.execFusedEpoch x s
  | .navMessage m => Sys2Proof.Machine.execNavMessage m s
  | .imuRead miso sameTick => Sys2Proof.Machine.execImuRead miso sameTick s
  | .imuLost => Sys2Proof.Machine.execImuLost s
  | .canStale => Sys2Proof.Machine.execCanStale s
  | .navCfg q => Sys2Proof.Machine.execNavCfg q s
  | .navStatus q => Sys2Proof.Machine.execNavStatus q s
  | .navReset q => Sys2Proof.Machine.execNavReset q s
  | .antCfg q => Sys2Proof.Machine.execAntCfg q s
  | .pairCfg q => Sys2Proof.Machine.execPairCfg q s
  | .fusionCfg q => Sys2Proof.Machine.execFusionCfg q s
  | .ephLoad q info => Sys2Proof.Machine.execEphLoad q info s
  | .almLoad q pages => Sys2Proof.Machine.execAlmLoad q pages s
  | .pvtRead q => Sys2Proof.Machine.execPvtRead q s
  | .measRead q => Sys2Proof.Machine.execMeasRead q s
  | .corrCfg q => Sys2Proof.Machine.execCorrCfg q s
  | .corrStatus q => Sys2Proof.Machine.execCorrStatus q s
  | .corrPush q info => Sys2Proof.Machine.execCorrPush q info s
  | .msmEpochTimeout => Sys2Proof.Machine.execMsmEpochTimeout s
  | .arpWaitTimeout => Sys2Proof.Machine.execArpWaitTimeout s
  | .hasPageTimeout => Sys2Proof.Machine.execHasPageTimeout s
  | .sbasUnusableEnd => Sys2Proof.Machine.execSbasUnusableEnd s
  | .domainCfg q => Sys2Proof.Machine.execDomainCfg q s
  | .domainStatus q => Sys2Proof.Machine.execDomainStatus q s
  | .qdpTunnelIn q info => Sys2Proof.Machine.execQdpTunnelIn q info s
  | .qdpDatagramRx port stamp data info => Sys2Proof.Machine.execQdpDatagramRx port stamp data info s
  | .helloSend => Sys2Proof.Machine.execHelloSend s
  | .alertExpiry => Sys2Proof.Machine.execAlertExpiry s
  | .peerTimeout => Sys2Proof.Machine.execPeerTimeout s
  | .conflictSilenceEnd => Sys2Proof.Machine.execConflictSilenceEnd s
  | .refstnCfg q => Sys2Proof.Machine.execRefstnCfg q s
  | .refstnStatus q => Sys2Proof.Machine.execRefstnStatus q s
  | .timeConfig q => Sys2Proof.Machine.execTimeConfig q s
  | .timeStatus q => Sys2Proof.Machine.execTimeStatus q s
  | .tpConfig q => Sys2Proof.Machine.execTpConfig q s
  | .foutConfig q => Sys2Proof.Machine.execFoutConfig q s
  | .evConfig q => Sys2Proof.Machine.execEvConfig q s
  | .evRead q => Sys2Proof.Machine.execEvRead q s
  | .timePulseEdge tp grid sameTick => Sys2Proof.Machine.execTimePulseEdge tp grid sameTick s
  | .foutEdge grid => Sys2Proof.Machine.execFoutEdge grid s
  | .stepInstant => Sys2Proof.Machine.execStepInstant s
  | .leapSecond => Sys2Proof.Machine.execLeapSecond s
  | .holdoverLimit => Sys2Proof.Machine.execHoldoverLimit s
  | .eventCapture input rising pin sameTick => Sys2Proof.Machine.execEventCapture input rising pin sameTick s
  | .epCfg q => Sys2Proof.Machine.execEpCfg q s
  | .epStatus q => Sys2Proof.Machine.execEpStatus q s
  | .ptpCfg q => Sys2Proof.Machine.execPtpCfg q s
  | .ptpStatus q => Sys2Proof.Machine.execPtpStatus q s
  | .ptpTrust q => Sys2Proof.Machine.execPtpTrust q s
  | .ethTx q => Sys2Proof.Machine.execEthTx q s
  | .ethTsRead q => Sys2Proof.Machine.execEthTsRead q s
  | .ethFrameRx port stamp fcsOk frame info => Sys2Proof.Machine.execEthFrameRx port stamp fcsOk frame info s
  | .ethLaunch port => Sys2Proof.Machine.execEthLaunch port s
  | .ethTxDone port stamp sameTick => Sys2Proof.Machine.execEthTxDone port stamp sameTick s
  | .tsEntryTimeout port => Sys2Proof.Machine.execTsEntryTimeout port s
  | .linkDown port => Sys2Proof.Machine.execLinkDown port s
  | .linkUp port speed => Sys2Proof.Machine.execLinkUp port speed s
  | .syncRx port stamp msg => Sys2Proof.Machine.execSyncRx port stamp msg s
  | .delayRespRx port stamp msg => Sys2Proof.Machine.execDelayRespRx port stamp msg s
  | .pdelayRx port stamp msg => Sys2Proof.Machine.execPdelayRx port stamp msg s
  | .announceRx port stamp msg => Sys2Proof.Machine.execAnnounceRx port stamp msg s
  | .syncSend port => Sys2Proof.Machine.execSyncSend port s
  | .announceSend port => Sys2Proof.Machine.execAnnounceSend port s
  | .delayReqSend port => Sys2Proof.Machine.execDelayReqSend port s
  | .announceTimeout port => Sys2Proof.Machine.execAnnounceTimeout port s
  | .suspectMasterEnd port => Sys2Proof.Machine.execSuspectMasterEnd port s
  | .pathWindowEnd port => Sys2Proof.Machine.execPathWindowEnd port s
  | .untrustHoldEnd port => Sys2Proof.Machine.execUntrustHoldEnd port s
  | .carafeCfg q => Sys2Proof.Machine.execCarafeCfg q s
  | .carafeStatus q => Sys2Proof.Machine.execCarafeStatus q s
  | .carafeTrigger q => Sys2Proof.Machine.execCarafeTrigger q s
  | .carafeRelease q => Sys2Proof.Machine.execCarafeRelease q s
  | .carafeRead q => Sys2Proof.Machine.execCarafeRead q s
  | .carafeReplay q plans => Sys2Proof.Machine.execCarafeReplay q plans s
  | .windowFrozen window => Sys2Proof.Machine.execWindowFrozen window s
  | .windowRelease window => Sys2Proof.Machine.execWindowRelease window s
  | .replayDone fix tracked => Sys2Proof.Machine.execReplayDone fix tracked s
  | .cuStatus q => Sys2Proof.Machine.execCuStatus q s
  | .keyDerive q => Sys2Proof.Machine.execKeyDerive q s
  | .keyErase q => Sys2Proof.Machine.execKeyErase q s
  | .keySlotRead q => Sys2Proof.Machine.execKeySlotRead q s
  | .cipherRun q => Sys2Proof.Machine.execCipherRun q s
  | .sealCfg q => Sys2Proof.Machine.execSealCfg q s
  | .sealNow q => Sys2Proof.Machine.execSealNow q s
  | .sealRead q => Sys2Proof.Machine.execSealRead q s
  | .sealVerify q => Sys2Proof.Machine.execSealVerify q s
  | .cipherOpStart unit => Sys2Proof.Machine.execCipherOpStart unit s
  | .cipherOpComplete unit how => Sys2Proof.Machine.execCipherOpComplete unit how s
  | .sealComplete fault => Sys2Proof.Machine.execSealComplete fault s
  | .leaseExpiry unit => Sys2Proof.Machine.execLeaseExpiry unit s
  | .keyExpired slot => Sys2Proof.Machine.execKeyExpired slot s
  | .slotDrained slot => Sys2Proof.Machine.execSlotDrained slot s
  | .trngHealthFail => Sys2Proof.Machine.execTrngHealthFail s
  | .trngStallTimeout unit progress => Sys2Proof.Machine.execTrngStallTimeout unit progress s
  | .cuLockAcquire unit lease => Sys2Proof.Machine.execCuLockAcquire unit lease s
  | .cuLockRelease unit lease => Sys2Proof.Machine.execCuLockRelease unit lease s
  | .cuEvtClear => Sys2Proof.Machine.execCuEvtClear s
  | .uartCfg q => Sys2Proof.Machine.execUartCfg q s
  | .periphStatus q => Sys2Proof.Machine.execPeriphStatus q s
  | .cardCfg q => Sys2Proof.Machine.execCardCfg q s
  | .cardReset q atr => Sys2Proof.Machine.execCardReset q atr s
  | .cardApdu q => Sys2Proof.Machine.execCardApdu q s
  | .cardApduComplete uart how => Sys2Proof.Machine.execCardApduComplete uart how s
  | .cardWaitTimeout uart => Sys2Proof.Machine.execCardWaitTimeout uart s
  | .imuCfg q => Sys2Proof.Machine.execImuCfg q s
  | .imuXfer q miso => Sys2Proof.Machine.execImuXfer q miso s
  | .i2cXfer q how => Sys2Proof.Machine.execI2cXfer q how s
  | .canCfg q => Sys2Proof.Machine.execCanCfg q s
  | .canMap q => Sys2Proof.Machine.execCanMap q s
  | .canTx q how => Sys2Proof.Machine.execCanTx q how s
  | .canFrameRx f sameTick => Sys2Proof.Machine.execCanFrameRx f sameTick s
  | .busOffRecovery port => Sys2Proof.Machine.execBusOffRecovery port s
  | .wtCfg q => Sys2Proof.Machine.execWtCfg q s
  | .wheelTick input rising pin => Sys2Proof.Machine.execWheelTick input rising pin s
  | .gpioCfg q => Sys2Proof.Machine.execGpioCfg q s
  | .gpioWrite q => Sys2Proof.Machine.execGpioWrite q s
  | .gpioRead q => Sys2Proof.Machine.execGpioRead q s
  | .gpioEdge pin rising sameTick => Sys2Proof.Machine.execGpioEdge pin rising sameTick s
  | .gpSet value => Sys2Proof.Machine.execGpSet value s
  | .gpClr value => Sys2Proof.Machine.execGpClr value s
  | .uartRxChar uart line => Sys2Proof.Machine.execUartRxChar uart line s
  | .uartCharSent uart low => Sys2Proof.Machine.execUartCharSent uart low s
  | .uaTxWrite uart value => Sys2Proof.Machine.execUaTxWrite uart value s
  | .uaRxRead uart => Sys2Proof.Machine.execUaRxRead uart s
  | .ucCfg q => Sys2Proof.Machine.execUcCfg q s
  | .ucStatus q => Sys2Proof.Machine.execUcStatus q s
  | .ucLoad q => Sys2Proof.Machine.execUcLoad q s
  | .ucStart q => Sys2Proof.Machine.execUcStart q s
  | .ucStop q => Sys2Proof.Machine.execUcStop q s
  | .ucSwap q => Sys2Proof.Machine.execUcSwap q s
  | .swapForced => Sys2Proof.Machine.execSwapForced s
  | .ucSwapResume => Sys2Proof.Machine.execUcSwapResume s
  | .ucWatchdog => Sys2Proof.Machine.execUcWatchdog s
  | .ucTimerExpiry timer => Sys2Proof.Machine.execUcTimerExpiry timer s
  | .ucTmrCtrlWrite timer value => Sys2Proof.Machine.execUcTmrCtrlWrite timer value s
  | .evcPop value => Sys2Proof.Machine.execEvcPop value s
  | .s15Txdata value => Sys2Proof.Machine.execS15Txdata value s
  | .s15Rxdata => Sys2Proof.Machine.execS15Rxdata s
  | .interruptEntry core sameTick => Sys2Proof.Machine.execInterruptEntry core sameTick s
  | .bootStatus q => Sys2Proof.Machine.execBootStatus q s
  | .fwWrite q done => Sys2Proof.Machine.execFwWrite q done s
  | .fwVerify q => Sys2Proof.Machine.execFwVerify q s
  | .fwVerifyComplete image => Sys2Proof.Machine.execFwVerifyComplete image s
  | .fwActivate q => Sys2Proof.Machine.execFwActivate q s
  | .loopSwap q image => Sys2Proof.Machine.execLoopSwap q image s
  | .loopSwapComplete core => Sys2Proof.Machine.execLoopSwapComplete core s
  | .navSwap q image => Sys2Proof.Machine.execNavSwap q image s
  | .navSwapComplete => Sys2Proof.Machine.execNavSwapComplete s
  | .deviceReset q => Sys2Proof.Machine.execDeviceReset q s
  | .overrunLog q => Sys2Proof.Machine.execOverrunLog q s
  | .faultLog q => Sys2Proof.Machine.execFaultLog q s
  | .tempRead q => Sys2Proof.Machine.execTempRead q s
  | .counters q => Sys2Proof.Machine.execCounters q s
  | .selftest q => Sys2Proof.Machine.execSelftest q s
  | .selftestComplete failed codes => Sys2Proof.Machine.execSelftestComplete failed codes s
  | .mbCfg q => Sys2Proof.Machine.execMbCfg q s
  | .mbStatus q => Sys2Proof.Machine.execMbStatus q s
  | .mbOwnSet q => Sys2Proof.Machine.execMbOwnSet q s
  | .mbDpCfg q => Sys2Proof.Machine.execMbDpCfg q s
  | .marchRun q => Sys2Proof.Machine.execMarchRun q s
  | .marchEnd fails micros => Sys2Proof.Machine.execMarchEnd fails micros s
  | .marchStatus q => Sys2Proof.Machine.execMarchStatus q s
  | .mbRepair q => Sys2Proof.Machine.execMbRepair q s
  | .repairEnd micros => Sys2Proof.Machine.execRepairEnd micros s
  | .protWindowSet q => Sys2Proof.Machine.execProtWindowSet q s
  | .protWindowRead q => Sys2Proof.Machine.execProtWindowRead q s
  | .dmaAssign q => Sys2Proof.Machine.execDmaAssign q s
  | .dmaStatus q => Sys2Proof.Machine.execDmaStatus q s
  | .freezeRead q => Sys2Proof.Machine.execFreezeRead q s
  | .thaw q => Sys2Proof.Machine.execThaw q s
  | .eccRead q => Sys2Proof.Machine.execEccRead q s
  | .memRead q => Sys2Proof.Machine.execMemRead q s
  | .memWrite q => Sys2Proof.Machine.execMemWrite q s
  | .bankPowerDone bank => Sys2Proof.Machine.execBankPowerDone bank s
  | .handoverDrain bank => Sys2Proof.Machine.execHandoverDrain bank s
  | .patrolScrub strike => Sys2Proof.Machine.execPatrolScrub strike s
  | .dmaBurst sameTick clash => Sys2Proof.Machine.execDmaBurst sameTick clash s
  | .dmaStart chan => Sys2Proof.Machine.execDmaStart chan s
  | .dmaStop chan => Sys2Proof.Machine.execDmaStop chan s
  | .dmaStatusClear chan value => Sys2Proof.Machine.execDmaStatusClear chan value s
  | .mbCollClear master bank => Sys2Proof.Machine.execMbCollClear master bank s
  | .mbCtrlPower bank value => Sys2Proof.Machine.execMbCtrlPower bank value s
  | .registerWrite addr value => Sys2Proof.Machine.execRegisterWrite addr value s
  | .tapReset => Sys2Proof.Machine.execTapReset s
  | .provisionUpdate key check => Sys2Proof.Machine.execProvisionUpdate key check s
  | .provisionDone blown => Sys2Proof.Machine.execProvisionDone blown s
  | .mov x => Sys2Proof.Machine.execMov x s
  | .add x => Sys2Proof.Machine.execAdd x s
  | .sub x => Sys2Proof.Machine.execSub x s
  | .addv x => Sys2Proof.Machine.execAddv x s
  | .subv x => Sys2Proof.Machine.execSubv x s
  | .and x => Sys2Proof.Machine.execAnd x s
  | .or x => Sys2Proof.Machine.execOr x s
  | .xor x => Sys2Proof.Machine.execXor x s
  | .shl x => Sys2Proof.Machine.execShl x s
  | .shr x => Sys2Proof.Machine.execShr x s
  | .sar x => Sys2Proof.Machine.execSar x s
  | .rol x => Sys2Proof.Machine.execRol x s
  | .ror x => Sys2Proof.Machine.execRor x s
  | .mul x => Sys2Proof.Machine.execMul x s
  | .mulh x => Sys2Proof.Machine.execMulh x s
  | .mulhu x => Sys2Proof.Machine.execMulhu x s
  | .movi x => Sys2Proof.Machine.execMovi x s
  | .addi x => Sys2Proof.Machine.execAddi x s
  | .subi x => Sys2Proof.Machine.execSubi x s
  | .addvi x => Sys2Proof.Machine.execAddvi x s
  | .subvi x => Sys2Proof.Machine.execSubvi x s
  | .andi x => Sys2Proof.Machine.execAndi x s
  | .ori x => Sys2Proof.Machine.execOri x s
  | .xori x => Sys2Proof.Machine.execXori x s
  | .shli x => Sys2Proof.Machine.execShli x s
  | .shri x => Sys2Proof.Machine.execShri x s
  | .sari x => Sys2Proof.Machine.execSari x s
  | .roli x => Sys2Proof.Machine.execRoli x s
  | .rori x => Sys2Proof.Machine.execRori x s
  | .muli x => Sys2Proof.Machine.execMuli x s
  | .div x => Sys2Proof.Machine.execDiv x s
  | .divu x => Sys2Proof.Machine.execDivu x s
  | .divz x => Sys2Proof.Machine.execDivz x s
  | .divzu x => Sys2Proof.Machine.execDivzu x s
  | .rem x => Sys2Proof.Machine.execRem x s
  | .remu x => Sys2Proof.Machine.execRemu x s
  | .remz x => Sys2Proof.Machine.execRemz x s
  | .remzu x => Sys2Proof.Machine.execRemzu x s
  | .neg x => Sys2Proof.Machine.execNeg x s
  | .not x => Sys2Proof.Machine.execNot x s
  | .sexb x => Sys2Proof.Machine.execSexb x s
  | .sexh x => Sys2Proof.Machine.execSexh x s
  | .zexb x => Sys2Proof.Machine.execZexb x s
  | .zexh x => Sys2Proof.Machine.execZexh x s
  | .clz x => Sys2Proof.Machine.execClz x s
  | .popc x => Sys2Proof.Machine.execPopc x s
  | .slt x => Sys2Proof.Machine.execSlt x s
  | .sltu x => Sys2Proof.Machine.execSltu x s
  | .ld x => Sys2Proof.Machine.execLd x s
  | .st x => Sys2Proof.Machine.execSt x s
  | .lea x => Sys2Proof.Machine.execLea x s
  | .mvm x => Sys2Proof.Machine.execMvm x s
  | .xchg x => Sys2Proof.Machine.execXchg x s
  | .sti x => Sys2Proof.Machine.execSti x s
  | .addm x => Sys2Proof.Machine.execAddm x s
  | .andm x => Sys2Proof.Machine.execAndm x s
  | .orm x => Sys2Proof.Machine.execOrm x s
  | .xorm x => Sys2Proof.Machine.execXorm x s
  | .addmr x => Sys2Proof.Machine.execAddmr x s
  | .nop x => Sys2Proof.Machine.execNop x s
  | .wait x => Sys2Proof.Machine.execWait x s
  | .ret x => Sys2Proof.Machine.execRet x s
  | .reti x => Sys2Proof.Machine.execReti x s
  | .info x => Sys2Proof.Machine.execInfo x s
  | .time x => Sys2Proof.Machine.execTime x s
  | .pvtCopy x => Sys2Proof.Machine.execPvtCopy x s
  | .wdog x => Sys2Proof.Machine.execWdog x s
  | .log x => Sys2Proof.Machine.execLog x s
  | .nextBeat x => Sys2Proof.Machine.execNextBeat x s
  | .swapReady x => Sys2Proof.Machine.execSwapReady x s
  | .brk x => Sys2Proof.Machine.execBrk x s
  | .fence x => Sys2Proof.Machine.execFence x s
  | .jmp x => Sys2Proof.Machine.execJmp x s
  | .call x => Sys2Proof.Machine.execCall x s
  | .jmpr x => Sys2Proof.Machine.execJmpr x s
  | .callr x => Sys2Proof.Machine.execCallr x s
  | .beq x => Sys2Proof.Machine.execBeq x s
  | .bne x => Sys2Proof.Machine.execBne x s
  | .blt x => Sys2Proof.Machine.execBlt x s
  | .bge x => Sys2Proof.Machine.execBge x s
  | .bltu x => Sys2Proof.Machine.execBltu x s
  | .bgeu x => Sys2Proof.Machine.execBgeu x s
  | .beqi x => Sys2Proof.Machine.execBeqi x s
  | .bnei x => Sys2Proof.Machine.execBnei x s
  | .blti x => Sys2Proof.Machine.execBlti x s
  | .bgei x => Sys2Proof.Machine.execBgei x s
  | .bltui x => Sys2Proof.Machine.execBltui x s
  | .bgeui x => Sys2Proof.Machine.execBgeui x s
  | .bgti x => Sys2Proof.Machine.execBgti x s
  | .blei x => Sys2Proof.Machine.execBlei x s
  | .bgtui x => Sys2Proof.Machine.execBgtui x s
  | .bleui x => Sys2Proof.Machine.execBleui x s
  | .dbnz x => Sys2Proof.Machine.execDbnz x s
  | .mfs x => Sys2Proof.Machine.execMfs x s
  | .mts x => Sys2Proof.Machine.execMts x s
  | .customerExtension x => Sys2Proof.Machine.execCustomerExtension x s
  | .snap x => Sys2Proof.Machine.execSnap x s
  | .mfc x => Sys2Proof.Machine.execMfc x s
  | .mtc x => Sys2Proof.Machine.execMtc x s
  | .epoch x => Sys2Proof.Machine.execEpoch x s
  | .submit x => Sys2Proof.Machine.execSubmit x s
  | .status x => Sys2Proof.Machine.execStatus x s
  | .cancel x => Sys2Proof.Machine.execCancel x s
  | .fld x => Sys2Proof.Machine.execFld x s
  | .fst x => Sys2Proof.Machine.execFst x s
  | .fmov x => Sys2Proof.Machine.execFmov x s
  | .fadd x => Sys2Proof.Machine.execFadd x s
  | .fsub x => Sys2Proof.Machine.execFsub x s
  | .fmul x => Sys2Proof.Machine.execFmul x s
  | .fdiv x => Sys2Proof.Machine.execFdiv x s
  | .fsqrt x => Sys2Proof.Machine.execFsqrt x s
  | .fneg x => Sys2Proof.Machine.execFneg x s
  | .fcvtif x => Sys2Proof.Machine.execFcvtif x s
  | .fcvtfi x => Sys2Proof.Machine.execFcvtfi x s
  | .fcmp x => Sys2Proof.Machine.execFcmp x s
  | .fstat x => Sys2Proof.Machine.execFstat x s
  | .fclr x => Sys2Proof.Machine.execFclr x s
  | .mxrun x => Sys2Proof.Machine.execMxrun x s
  | .cmul x => Sys2Proof.Machine.execCmul x s
  | .cmulc x => Sys2Proof.Machine.execCmulc x s
  | .cpow x => Sys2Proof.Machine.execCpow x s
  | .cmag x => Sys2Proof.Machine.execCmag x s
  | .catan x => Sys2Proof.Machine.execCatan x s
  | .cnorm x => Sys2Proof.Machine.execCnorm x s
  | .illegalInstruction x => Sys2Proof.Machine.execIllegalInstruction x s
  | .undefinedService x => Sys2Proof.Machine.execUndefinedService x s
  | .spiTransfer port mosi => Sys2Proof.Machine.execSpiTransfer port mosi s
  | .syncReceiptTimeout port => Sys2Proof.Machine.execSyncReceiptTimeout port s
  | .canBusError port transmit heavy => Sys2Proof.Machine.execCanBusError port transmit heavy s
  | .trngHealthPass => Sys2Proof.Machine.execTrngHealthPass s
  | .wakeWidthExpiry => Sys2Proof.Machine.execWakeWidthExpiry s
  | .holdupMeasurementEnd dropUv => Sys2Proof.Machine.execHoldupMeasurementEnd dropUv s

end Sys2Proof.Machine
end

