-- ==== Sys2Proof/Safety.lean ====
section
/-! DEFINITION. The terms in which statements speak of a run: when a host command takes effect and what its reply does, when a Torpin instruction executes,
and the facts about time and OTP that every step keeps. -/

namespace Sys2Proof.Machine
open Sys2Proof

/-- Steps 1 to 4 of R314 let a command frame through to its effect: the transport receives it, its header is well formed, its session exists; a sequenced
command comes from its session's binding, is new (Table 13.7) and finds room (R316); and no check of R322 fails. -/
def admits (c : HostCmd) (q : Qcp) (s : State) : Bool :=
  s.receives q && (headerFault q).isNone && sessionInRange q &&
  match s.sessions[q.session]? with
  | none => false
  | some e =>
    (c.unsequenced || (decide (e.binding = some q.binding) && decide (e.history ≠ 2) && decide (e.classify q.seq = .new)
      && decide (e.running.length < 4) && decide (s.runningCount < 32)))
    && (c.check q e.priv s).isNone

/-- What follows the effect: a sequenced command is recorded and its reply cached (R315, R317), and the reply is queued (R310). -/
def HostCmd.answer (c : HostCmd) (q : Qcp) (t : State) (r : Reply) : State :=
  if c.unsequenced then t.reply q (q.frame c.opcode r)
  else ({ t with sessions := modAt t.sessions q.session fun e => (e.record q.seq).store (q.frame c.opcode r) }).reply q (q.frame c.opcode r)

/-- Time agrees with R23 and R24: the tick lies in the beat, the accumulator follows the tick, and DT is that of R25 modulo 2⁶⁴. -/
def TimeOk (s : State) : Prop :=
  s.time.tick < 26000 ∧ s.time.acc = 7 * s.time.tick % 13 ∧ s.time.dt = BitVec.ofNat 64 (dtAt s.time.beat s.time.tick)

/-- RK1 agrees with R502: while it is being programmed no bit is blown that its key does not have and no marker is; with no programming begun no bit is blown. -/
def OtpOk (s : State) : Prop :=
  (s.tap.prov = 1 → s.nv.rk1 &&& ~~~s.tap.key = 0 ∧ s.nv.rk1Done = false) ∧ (s.nv.rk1Done = false → s.nv.rk1Open = false → s.nv.rk1 = 0)

/-- A Torpin core executes an instruction: it runs and no interrupt is due (R383, R384), its bytes decode to `d` (R370–R372), the fetch is permitted (R356)
and meets no double-bit ECC error. -/
def fetches (x : Fetch) (d : Dec) (s : State) : Bool :=
  coreReady s x.core && !interruptDue s x.core && decide (decodeInsn x.core x.bytes = .ok d)
  && decide ((fetchJudge s x.core (s.core x.core).pc d.len).1 = .ok) && (s.eccRead x.core ((s.core x.core).pc).toNat d.len).2.isNone

/-- The state in which a fetched instruction begins: the fetch has corrected what it read, an IE that MTS set takes effect (R381), and a WAIT has ended. -/
def State.fetched (s : State) (x : Fetch) (d : Dec) : State :=
  (s.eccRead x.core ((s.core x.core).pc).toNat d.len).1.modCore x.core fun k => { k with ie := k.ie || k.ieNext, ieNext := false, mode := .running }

/-- The instruction that follows `d`. -/
def State.after (s : State) (n : Nat) (d : Dec) : Word := (s.core n).pc + BitVec.ofNat 32 d.len

/-- The end of an instruction: the next pc. -/
def State.goto (s : State) (n : Nat) (pc : Word) : State := s.modCore n fun k => { k with pc := pc, stall := none }

/-- The end of an instruction that writes g_a alone. -/
def State.result (u : State) (x : Fetch) (d : Dec) (v : Word) : State := (u.setG x.core d.a v).goto x.core (u.after x.core d)

/-- The context of an instruction that `fetched` has begun. -/
def Fetch.ctx (x : Fetch) (d : Dec) (u : State) : Ctx := { n := x.core, d := d, pc := (u.core x.core).pc, next := u.after x.core d, x := x }

/-- An access passes the checks of R356 and R383. -/
def granted (c : Ctx) (k : Access) (a size : Nat) (locked : Bool) (u : State) : Bool :=
  match checkAccess c k a size size locked u with
  | .ok _ => true
  | .error _ => false

/-- The state after an instruction that takes an exception (R382). -/
def State.trapped (u : State) (x : Fetch) (d : Dec) (cause : Nat) (epc eaddr : Word) : State :=
  (takeException (x.ctx d u) cause epc eaddr d.len u).modCore x.core fun k => { k with stall := none }

/-- The end of a binary64 instruction: f_a and the flags it gathers (R389).  The payload of a NaN that it makes is free, and taking it moves the counter of free values. PRESUMED (log 58). -/
def State.floatResult (u : State) (x : Fetch) (d : Dec) (r : BitVec 64 → BitVec 64 × BitVec 7) : State :=
  (((u.openVal 92).1.setF x.core d.a (r (BitVec.ofNat 64 (u.openVal 92).2)).1).stick x.core (r (BitVec.ofNat 64 (u.openVal 92).2)).2).goto x.core
    (u.after x.core d)

/-- The end of an instruction that writes the pair g_a, g_a+1. -/
def State.pairResult (u : State) (x : Fetch) (d : Dec) (v w : Word) : State :=
  ((u.setG x.core d.a v).setG x.core (d.a + 1) w).goto x.core (u.after x.core d)

/-- A service call has been counted (R398). -/
def State.counted (u : State) (n : Nat) : State := if n = 7 then u.modUc fun k => { k with svcCount := sat32 (k.svcCount + 1) } else u

/-- The end of a service: its status in g0 (R385). -/
def State.serviced (v : State) (x : Fetch) (stat : Nat) (pc : Word) : State := (v.setG x.core 0 (BitVec.ofNat 32 stat)).goto x.core pc

end Sys2Proof.Machine
end

