-- ==== Sys2Proof/Certificates/Slice0/Obligations.lean ====
section
/-! DEFINITION. The statements for the provers. -/

open Sys2Proof Sys2Proof.Machine

/-- One step is the front command's effect with the rest of the queue; the table gives no row bits, so `withFetchWord` puts nothing in front. -/
def Obligations.StepRunsFrontCommand : Prop :=
  (∀ (c : Instr) (s : State), step { s with pending := c :: s.pending } = exec c s)
  ∧ (∀ (c : Instr) (cs : List Instr) (s : State), s.pending = c :: cs → step s = exec c { s with pending := cs })
  ∧ (∀ (s : State) (n w : Nat), s.withFetchWord n w = s)

/-- The idle step.  That an empty queue lets time pass is the model's choice (log entry 2); the tick is that of R24. -/
def Obligations.IdleStepIsOneTick : Prop :=
  ∀ s : State, s.pending = [] →
    (s.time.running = true → s.time.tick < 25999 → step s = .next (ticksPass 1 s.advance))
    ∧ (s.time.running = false ∨ 25999 ≤ s.time.tick → step s = .next (drains s))
    ∧ (∀ t, step s = .next t → t.pending = [])

/-- R24, R25 and R28, for every state whose time agrees with the grid: both the increment and the closed form, and the epoch at a wrap. -/
def Obligations.DeviceTimeOfTick : Prop :=
  ∀ s : State, TimeOk s →
    (let a := s.time.acc + 7
     s.advance.time.acc = (if 13 ≤ a then a - 13 else a)
     ∧ s.advance.time.dt = s.time.dt + (if 13 ≤ a then 2462 else 2461)
     ∧ s.advance.nv.epoch = (if 2 ^ 64 ≤ s.time.dt.toNat + (if 13 ≤ a then 2462 else 2461) then nextEpoch s.nv.epoch else s.nv.epoch))
    ∧ (s.time.tick < 25999 → s.advance.time.beat = s.time.beat ∧ s.advance.time.tick = s.time.tick + 1)
    ∧ (s.time.tick = 25999 → s.advance.time.beat = s.time.beat + 1 ∧ s.advance.time.tick = 0)
    ∧ s.advance.time.acc = 7 * s.advance.time.tick % 13
    ∧ s.advance.time.dt = BitVec.ofNat 64 (64000000 * s.advance.time.beat + 32000 * s.advance.time.tick / 13)
    ∧ (s.time.running = true → s.time.tick < 25999 → 2 ^ 64 ≤ s.time.dt.toNat + (tickStep s.time.acc).2 → exec .dtWrap s = .next s.advance)

/-- The boundary of a beat (R23, R25, R41): the instant it leaves, and its actions. -/
def Obligations.BeatBoundaryOpensNextBeat : Prop :=
  ∀ (inputs : List InputBeat) (short : List (Nat × Nat)) (s : State), TimeOk s →
    (s.time.running = false → exec (.beatBoundary inputs short) s = .next s)
    ∧ (s.time.running = true → ∃ u t, u = ticksPass (26000 - s.time.tick) s.toNextBeat ∧ exec (.beatBoundary inputs short) s = .next t
        ∧ (u.live = true → t = boundaryActions inputs short u) ∧ (u.live = false → t = u)
        ∧ t.time.beat = s.time.beat + 1 ∧ t.time.tick = 0 ∧ t.time.acc = 0 ∧ t.time.dt = BitVec.ofNat 64 (64000000 * (s.time.beat + 1))
        ∧ t.pending = s.pending)

/-- DT follows (B, t) in every state that a step from such a state can reach. -/
def Obligations.DeviceTimeInvariant : Prop :=
  TimeOk State.reset ∧ ∀ s t : State, TimeOk s → step s = .next t → TimeOk t

/-- No command stops the machine, and none writes the queue. -/
def Obligations.EveryCommandCompletesAndKeepsQueue : Prop :=
  ∀ (c : Instr) (s : State), ∃ t, exec c s = .next t ∧ t.pending = s.pending

/-- One-time programmable state only rises, over every step. -/
def Obligations.OtpInvariant : Prop :=
  OtpOk State.reset
  ∧ ∀ s t : State, OtpOk s → step s = .next t →
    OtpOk t ∧ s.nv.rk1 &&& ~~~t.nv.rk1 = 0 ∧ (s.nv.rk1Done = true → t.nv.rk1Done = true ∧ t.nv.rk1 = s.nv.rk1)
    ∧ s.nv.rollback ≤ t.nv.rollback ∧ s.nv.epoch.toNat ≤ t.nv.epoch.toNat

/-- Group 0x00 (R323, R324): the whole next state of each command that passes steps 1 to 4 of R314 and the checks of R322. -/
def Obligations.SessionCommands : Prop :=
  ∀ (q : Qcp) (s : State),
    (admits identityCmd q s = true → exec (.identity q) s = .next (identityCmd.answer q s (.ok (identityBytes s))))
    ∧ (admits sessionStatusCmd q s = true →
      exec (.sessionStatus q) s = .next (sessionStatusCmd.answer q s (.ok (sessionStatusBytes (s.session (q.u 0 1))))))
    ∧ (admits echoCmd q s = true → exec (.echo q) s = .next (echoCmd.answer q s (.ok q.payload)))
    ∧ (admits sessionOpenCmd q s = true → ∀ u t,
      u = (if boundElsewhere q (s.session q.session) then s.sessionEvent q.session 1 q.transport (q.u 0 1) else s) →
      t = u.modSession q.session (fun e => { e with
            binding := some q.binding, priv := q.u 0 1, mask := BitVec.ofNat 32 (q.u 4 4)
            last := if bitOf (q.u 1 1) 1 then 0 else e.last, executed := if bitOf (q.u 1 1) 1 then 0 else e.executed
            history := if bitOf (q.u 1 1) 1 then 0 else e.history, cache := if bitOf (q.u 1 1) 1 then [] else e.cache }) →
      exec (.sessionOpen q) s = .next (sessionOpenCmd.answer q t (.ok (u8 (t.session q.session).priv ++ u8 (t.session q.session).history
        ++ leBytes 2 (t.session q.session).last.toNat ++ leBytes 8 (t.session q.session).executed.toNat))))
    ∧ (admits sessionCloseCmd q s = true →
      exec (.sessionClose q) s = .next (sessionCloseCmd.answer q (s.modSession q.session fun e => { e with binding := none }) (.ok [])))
    ∧ (admits noticeMaskCmd q s = true →
      exec (.noticeMask q) s = .next (noticeMaskCmd.answer q (s.modSession q.session fun e => { e with mask := BitVec.ofNat 32 (q.u 0 4) }) (.ok [])))
    ∧ (∀ c, c = transportCfgCmd (fun s => s.domain.cfg.port) → admits c q s = true → ∀ u t n, n = q.u 0 1 →
      u = (if q.u 1 1 = 1 then s else s.dropTransport n) →
      t = { u with transports := modAt u.transports n fun r =>
            { r with enable := q.u 1 1 == 1, ceiling := q.u 2 1, qcpPort := if n = 8 ∨ n = 9 then q.u 4 2 else r.qcpPort } } →
      exec (.transportCfg q) s = .next (c.answer q (t.reduceSessions n (q.u 2 1)) (.ok [])))
    ∧ (∀ opc : BitVec 16, definedOpcodes.contains opc.toNat = false → admits (undefinedCmd opc.toNat) q s = true →
      exec (.undefinedOpcode opc q) s = .next ((undefinedCmd opc.toNat).answer q s ⟨stBadOpcode, []⟩))

/-- Steps 1 to 5 of R314 for a command without its effect; NOTICE_MASK, DOMAIN_SET and MEM_WRITE are three that run through the pipeline. -/
def Obligations.PipelineRefusals : Prop :=
  (∀ (c : HostCmd) (q : Qcp) (s : State),
    (s.receives q = false → runHost c q s = .next s)
    ∧ (s.receives q = true → q.ver ≠ 1 → runHost c q s = .next (s.reply q (q.frame c.opcode (.range (-8)))))
    ∧ (s.receives q = true → q.ver = 1 → 16 ≤ q.sess.toNat → runHost c q s = .next (s.reply q (q.frame c.opcode (.range (-7)))))
    ∧ (s.receives q = true → q.ver = 1 → q.sess.toNat < 16 → q.flg ≠ 0 → runHost c q s = .next (s.reply q (q.frame c.opcode (.range (-2)))))
    ∧ (s.receives q = true → q.ver = 1 → q.sess.toNat < 16 → q.flg = 0 → q.stat ≠ 0 → runHost c q s = .next (s.reply q (q.frame c.opcode (.range (-1)))))
    ∧ (s.receives q = true → headerFault q = none → (q.transport = 10 ∧ q.session ≠ 15 ∨ q.transport ≠ 10 ∧ q.session = 15) →
      runHost c q s = .next (s.reply q (q.frame c.opcode (.priv c.priv 0xFF))))
    ∧ (∀ e, s.receives q = true → headerFault q = none → sessionInRange q = true → s.sessions[q.session]? = some e → c.unsequenced = false →
      (e.binding ≠ some q.binding ∨ e.history = 2 → runHost c q s = .next (s.reply q (q.frame c.opcode .state)))
      ∧ (e.binding = some q.binding → e.history ≠ 2 →
        (e.classify q.seq = .running → runHost c q s = .next (s.reply q (q.frame c.opcode (.busy 0))))
        ∧ (∀ f, e.classify q.seq = .duplicate (some f) → runHost c q s = .next (s.reply q { f with flg := f.flg ||| 1 }))
        ∧ (e.classify q.seq = .duplicate none → runHost c q s = .next (s.reply q (q.frame c.opcode ⟨stDuplicate, []⟩)))
        ∧ (e.classify q.seq = .stale → runHost c q s = .next (s.reply q (q.frame c.opcode ⟨stStale, leBytes 2 e.last.toNat ++ rsv 2⟩)))
        ∧ (e.classify q.seq = .new → 4 ≤ e.running.length ∨ 32 ≤ s.runningCount → runHost c q s = .next (s.reply q (q.frame c.opcode (.busy 1))))
        ∧ (∀ r, e.classify q.seq = .new → e.running.length < 4 → s.runningCount < 32 → c.check q e.priv s = some r →
          runHost c q s = .next (c.answer q s r)))))
  ∧ (∀ (q : Qcp) (s : State), exec (.noticeMask q) s = runHost noticeMaskCmd q s ∧ exec (.domainSet q) s = runHost domainSetCmd q s
    ∧ exec (.memWrite q) s = runHost memWriteCmd q s)

/-- The transports' events (R307–R310, R319): the whole next state. -/
def Obligations.TransportEvents : Prop :=
  ∀ s : State,
    (∀ t ep cause, s.transportUp t = true →
      exec (.qcpFrameRejected t ep cause) s = .next { s with transports := modAt s.transports t fun r =>
        ({ r with rx := [], nakCount := (r.nakCount + 1) % 256 } : Transport).queue (OutItem.mk
          (if t = 8 ∨ t = 9 then ep else .zero) (.nak (match cause with | .crc => 1 | .length => 2 | .overflow => 4) ((r.nakCount + 1) % 256))) })
    ∧ (∀ t, t ≤ 7 → s.transportUp t = true → (s.transport t).rx ≠ [] →
      exec (.gapTimeout t) s = .next { s with transports := modAt s.transports t fun r =>
        ({ r with rx := [], nakCount := (r.nakCount + 1) % 256 } : Transport).queue (OutItem.mk .zero (.nak 3 ((r.nakCount + 1) % 256))) })
    ∧ (∀ n, exec (.reassemblyTimeout n) s = .next (s.modPort n fun p => { p with
        frags := p.frags.filter fun r => !s.passedMs r.since 100
        fragDrops := p.fragDrops + ((p.frags.filter fun r => s.passedMs r.since 100).map fun r => r.frags.length).sum }))
    ∧ (∀ i e b f, s.sessions[i]? = some e → e.binding = some b → e.lostPending ≠ 0 → s.noticeRoom i b.transport 24 = true →
      f = ({ kind := .notice, sess := i, seq := e.noticeSeq, opc := 0x8002, flg := 0, stat := 0
             payload := u32 e.lostPending ++ leBytes 2 e.firstLost.toNat ++ rsv 2 } : Frame) →
      exec (.noticeLost i) s = .next ((s.modSession i fun e => { e with noticeSeq := e.noticeSeq + 1, lostPending := 0 }).send b.transport ⟨b.ep, .frame f⟩))
    ∧ (∀ n mosi, n ≤ 1 → s.transportUp n = true →
      exec (.spiTransfer n mosi) s = .next { s with transports := modAt s.transports n fun r =>
        { r with miso := (shiftOut mosi.length r.out r.sent).1, out := (shiftOut mosi.length r.out r.sent).2.1
                 sent := (shiftOut mosi.length r.out r.sent).2.2, rx := mosi.foldl delimit r.rx } })
    ∧ (∀ k n, shiftOut k [] n = (List.replicate k 0, [], if k = 0 then n else 0))
    ∧ (∀ (r : Transport) (x : OutItem), r.sent = 0 → (r.queue x).out = insertRanked x r.out)
    ∧ (∀ (r : Transport) (x y : OutItem) (ys : List OutItem), r.out = y :: ys → r.sent ≠ 0 → (r.queue x).out = y :: insertRanked x ys)

/-- The frame of what the protocol adds to every effect: all state but `sessions` and `transports` is unchanged. -/
def Obligations.RepliesAndNoticesOnlyQueue : Prop :=
  (∀ (c : HostCmd) (q : Qcp) (t : State) (r : Reply), ∃ ss ts, c.answer q t r = { t with sessions := ss, transports := ts })
  ∧ (∀ (s : State) (q : Qcp) (f : Frame), ∃ ts, s.reply q f = { s with transports := ts })
  ∧ (∀ (s : State) (i opc : Nat) (f : Bool) (p : List Byte), ∃ ss ts, s.noticeTo i opc f p = { s with sessions := ss, transports := ts })
  ∧ (∀ (s : State) (opc : Nat) (f : Bool) (p : List Byte), ∃ ss ts, s.notifyF opc f p = { s with sessions := ss, transports := ts })
  ∧ (∀ (s : State) (o : Origin) (stat : Nat) (r : List Byte), ∃ ss ts, s.complete o stat r = { s with sessions := ss, transports := ts })

/-- Groups 0x01 (R469, R470): the whole next state. -/
def Obligations.PowerCommands : Prop :=
  ∀ (q : Qcp) (s : State),
    (∀ save t, admits powerStateCmd q s = true → t = powerStateCmd.answer q (powerState q s).1 (powerState q s).2 →
      exec (.powerState q save) s = .next (if t.power.parking then park save t else t))
    ∧ (let d := targetSet q s
       let u := if q.u 1 1 = 1 ∧ s.power.state = .run then descent s else s
       let lanesKept := ((goingOff s.power.domains d).any fun n => n == 5 || n == 6) = false ∨ lanesFit d s = true
       (q.u 0 1 = 0 → lanesKept → s.power.state = .watch → powerState q s = (enterRun d .command 0xFF s, .ok []))
       ∧ (q.u 0 1 = 0 → lanesKept → s.power.state ≠ .watch →
          powerState q s = (enterState .run .command 0xFF { applyDomains d s with power := { (applyDomains d s).power with runSet := d } }, .ok []))
       ∧ (q.u 0 1 = 1 → q.u 1 1 = 1 ∨ lanesKept → powerState q s = (enterWatch (retOf q) u, .ok []))
       ∧ (q.u 0 1 = 2 → q.u 1 1 = 1 ∨ lanesKept → powerState q s = ({ loseCarafe u with power := { (loseCarafe u).power with parking := true } }, .ok []))
       ∧ (¬lanesKept → q.u 1 1 ≠ 1 → ∃ n, powerState q s = ({ s with freeCtr := s.freeCtr + 1 }, .budget s.admitted (limitFor (d.getLsbD 5) (d.getLsbD 6)) n)))
    ∧ (∀ st c r, (enterState st c r s).power.state = st ∧ (enterState st c r s).power.prev = s.power.state ∧ (enterState st c r s).power.rule = r
      ∧ (enterState st c r s).power.transitions = sat32 (s.power.transitions + 1) ∧ (enterState st c r s).power.lastDt = s.time.dt
      ∧ (enterState st c r s).power.domains = s.power.domains)
    ∧ (∀ save, (park save s).power.phase = .parked ∧ (park save s).power.state = .parked ∧ (park save s).power.domains = 0x0001)
    ∧ (admits powerStatusCmd q s = true → exec (.powerStatus q) s = .next (powerStatusCmd.answer q s (.ok (powerStatusBytes s))))
    ∧ (∀ d, admits domainSetCmd q s = true → d = domainsAfter q s →
      (((goingOff s.power.domains d).any fun n => n == 5 || n == 6) = false ∨ lanesFit d s = true) →
      exec (.domainSet q) s = .next (domainSetCmd.answer q
        (enterState .run .command 0xFF { applyDomains d s with power := { (applyDomains d s).power with runSet := d } }) (.ok [])))
    ∧ (admits percCfgCmd q s = true →
      exec (.percCfg q) s = .next (percCfgCmd.answer q { s with
        perc := { s.perc with cfg := percCfgOf q, counters := s.perc.counters.mapIdx fun i v => if bitOf (q.u 5 1) i then 0 else v }
        nv := { s.nv with percCfg := percCfgOf q } } (.ok [])))
    ∧ (∀ rs, admits percRuleWriteCmd q s = true → rs = (List.range (q.u 1 1)).map (fun i => ruleOf (fieldB q.payload (4 + 8 * i) 8)) →
      exec (.percRuleWrite q) s = .next (percRuleWriteCmd.answer q { s with
        perc := { s.perc with rules := putAt s.perc.rules (q.u 0 1) rs, runs := putAt s.perc.runs (q.u 0 1) (rs.map fun _ => RuleRun.reset) }
        nv := { s.nv with percRules := putAt s.nv.percRules (q.u 0 1) rs } } (.ok [])))
    ∧ (admits percRuleReadCmd q s = true → exec (.percRuleRead q) s = .next (percRuleReadCmd.answer q s
        (.ok ((((s.perc.rules.drop (q.u 0 1)).take (q.u 1 1)).map PercRule.bytes).flatten))))
    ∧ (admits percStatusCmd q s = true →
      exec (.percStatus q) s = .next (percStatusCmd.answer q { s with perc := { s.perc with fired := 0 } } (.ok (percStatusBytes s))))
    ∧ (admits holdupStatusCmd q s = true → exec (.holdupStatus q) s = .next (holdupStatusCmd.answer q s (.ok (holdupStatusBytes s))))

/-- What every way down leaves, and the phase that each leads to. -/
def Obligations.GoingDown : Prop :=
  ∀ (save : SaveEnd) (s : State),
    let down (ph : Phase) (t : State) : Prop := t.power.phase = ph ∧ t.power.domains = 0x0001 ∧ t.time = TimeBase.reset ∧ t.sessions = List.replicate 16 Session.reset
      ∧ t.nv.cut = !save.done ∧ t.holdup.lastSaveValid = save.done ∧ t.power.resetDue = none
      ∧ t.power.state = .parked ∧ t.power.prev = s.power.state ∧ t.power.transitions = sat32 (s.power.transitions + 1) ∧ t.power.lastDt = s.time.dt
    (s.power.phase = .on →
      (∃ t, exec (.supplySag save) s = .next t ∧ down (.supplyWait .powerOn .run) t ∧ t.power.sags = sat32 (s.power.sags + 1))
      ∧ (∃ t, exec (.resetN save) s = .next t ∧ down (.booting .resetN .run) t)
      ∧ (∃ t, exec (.refinLoss save) s = .next t ∧ down .refinHold t)
      ∧ (s.power.resetDue = none → ∃ t, exec (.watchdogReset save) s = .next t ∧ down (.booting .watchdog .run) t)
      ∧ (∀ dt b, s.power.resetDue = some (dt, b) → s.time.dt - dt < 0x8000000000000000 →
          ∃ t, exec (.watchdogReset save) s = .next t ∧ down (.booting .watchdog .run) t)
      ∧ (∀ dt b, s.power.resetDue = some (dt, b) → ¬s.time.dt - dt < 0x8000000000000000 → exec (.watchdogReset save) s = .next s))
    ∧ (∀ c p, s.power.phase = .booting c p →
      exec (.supplySag save) s = .next { s with power := { s.power with phase := .supplyWait .powerOn .run, sags := sat32 (s.power.sags + 1) } }
      ∧ exec (.resetN save) s = .next { s with power := { s.power with phase := .booting .resetN .run } }
      ∧ exec (.refinLoss save) s = .next { s with power := { s.power with phase := .refinHold } })
    ∧ (s.power.phase = .parked → exec (.supplySag save) s = .next s
      ∧ exec (.resetN save) s = .next { s with
          perc := { s.perc with ref := s.perc.acc }
          power := { s.power with phase := .supplyWait .resetN .run, rule := 0xFF, wake := true, wakeUntilRun := true } })
    ∧ (s.power.phase ≠ .on → exec (.watchdogReset save) s = .next s)

/-- Start-up and the other power events: the whole next state, and for the boot what the rules say of it. -/
def Obligations.ComingUp : Prop :=
  ∀ s : State,
    (∀ c p, s.power.phase = .supplyWait c p →
      exec .supplyReturn s = .next { s with power := { s.power with phase := .booting c p } }
      ∧ (c ≠ .powerOn → exec .wakeTimeout s
        = .next (({ s with power := { s.power with phase := .parked, wake := false, wakeUntilRun := false } } : State).logTrip 3 (some s.power.rule) none)))
    ∧ (s.power.phase = .refinHold → exec .refinReturn s = .next { s with power := { s.power with phase := .booting .refinLoss .run, rule := 0xFF } })
    ∧ (∀ images c p, s.power.phase = .booting c p → ∃ t, exec (.boot images) s = .next t ∧ t = bootDevice images c p s
      ∧ t.time.dt = 0 ∧ t.time.beat = 0 ∧ t.time.tick = 0 ∧ t.nv.epoch = nextEpoch s.nv.epoch ∧ t.power.phase = .on ∧ t.nv.rk1 = s.nv.rk1 ∧ t.nv.rollback = s.nv.rollback)
    ∧ (exec .percHalt s = .next { s with perc := { s.perc with halted := true } })
    ∧ (s.perc.halted = true → exec .percRestart s = .next { s with perc := { s.perc with
        halted := false, cfg := s.nv.percCfg, rules := s.nv.percRules, runs := List.replicate 32 RuleRun.reset, counters := [0, 0, 0, 0], accTick := 0
        filtered := List.replicate 16 0 } })
    ∧ (s.power.wakeUntilRun = false → exec .wakeWidthExpiry s = .next { s with power := { s.power with wake := false } })
    ∧ (∀ v, s.live = true → s.holdup.state ≠ 1 → 3100 ≤ v → exec (.holdupReady v) s
        = .next (({ s with power := { s.power with vhold := min 65535 v }, holdup := { s.holdup with state := 1, measuring := s.holdup.measures } } : State).holdupEvent 1 none))
    ∧ (s.live = true → s.holdup.state = 0 → exec .chargeTimeout s = .next (({ s with holdup := { s.holdup with state := 2 } } : State).holdupEvent 5 none))
    ∧ (∀ v, s.live = true → s.holdup.measuring = true →
        (0 < v → 176 * v ≤ 10000000 → exec (.holdupMeasurementEnd v) s = .next { s with holdup := { s.holdup with
          measuring := false, measures := false, cap := min 65535 (roundDiv 10000000 v).toNat, lowCap := false } })
        ∧ (10000000 < 176 * v → exec (.holdupMeasurementEnd v) s = .next (({ s with holdup := { s.holdup with
          measuring := false, measures := false, cap := min 65535 (roundDiv 10000000 v).toNat, lowCap := true } } : State).holdupEvent 2 none)))
    ∧ (s.live = true → s.boot.trial = true → s.passedMs s.boot.runAt 600000 = true → exec .trialTimeout s
        = .next (({ s with nv := { s.nv with bootSel := s.nv.bootSel.fallBack }, boot := { s.boot with trial := false } } : State).fwEvent 2 none (some s.boot.slot) none))
    ∧ (∀ v u, u = ({ s with power := { s.power with temp := v, tempMin := min s.power.tempMin v, tempMax := max s.power.tempMax v } } : State) →
        (s.live = true → 1150 < v → exec (.tempHigh v) s = .next (u.diagEvent 1 none)) ∧ (v ≤ 1150 → exec (.tempHigh v) s = .next u))
    ∧ (s.live = true → s.power.state = .watch → s.on 13 = true → exec .watchTimeEval s = .next (s.evalTime s.now none none none))

/-- The pseudocode of R466 and the tick around it. -/
def Obligations.PercolatorTick : Prop :=
  (∀ (x : PercIn) (s u a : State) (src : List Int) (v : State) (w : Option (Nat × Nat)),
    u = { s with
      perc := { s.perc with rtc := s.perc.rtc + 32 }
      power := { s.power with vbat := x.vbat, temp := x.temp, tempMin := min s.power.tempMin x.temp, tempMax := max s.power.tempMax x.temp } } →
    a = readAcc x.acc { u with perc := { u.perc with ticks := sat32 (u.perc.ticks + 1) } } → src = percSources x a →
    (v, w) = (List.range 32).foldl (evalRule src x.sameTick) ({ a with perc := { a.perc with filtered := src } }, none) →
    (s.perc.cfg.enable = false ∨ s.perc.halted = true → exec (.percTick x) s = .next u)
    ∧ (s.perc.cfg.enable = true → s.perc.halted = false →
      (w = none → exec (.percTick x) s = .next v) ∧ (∀ n t, w = some (n, t) → exec (.percTick x) s = .next (wakeUp n t v))))
  ∧ (∀ (src : List Int) (b : Bool) (s : State) (w : Option (Nat × Nat)) (n : Nat) (r : PercRule) (k k' : RuleRun) (y : Int),
    s.perc.rules[n]? = some r → s.perc.runs[n]? = some k → filterStep r k ((src[r.src]?).getD 0) = (k', y) → 1 ≤ r.count →
    (¬(r.enable = true ∧ r.activeIn s.power.state = true) → evalRule src b (s, w) n = (s, w))
    ∧ (r.enable = true → r.activeIn s.power.state = true →
      ∀ upd, upd = (fun (c : Nat) (m : Bool) => { s with perc := { s.perc with
          runs := modAt s.perc.runs n fun _ => { k' with cnt := c, armed := m }, filtered := modAt s.perc.filtered r.src fun _ => y / 65536 } }) →
      (r.holds y = false → evalRule src b (s, w) n = (upd 0 true, w))
      ∧ (r.holds y = true → min (k.cnt + 1) 255 < r.count ∨ k.armed = false →
          evalRule src b (s, w) n = (upd (min (k.cnt + 1) 255) k.armed, w))
      ∧ (r.holds y = true → r.count ≤ min (k.cnt + 1) 255 → k.armed = true → ∀ f, f = fireRule n r y b (upd (min (k.cnt + 1) 255) false) →
          (evalRule src b (s, w) n).1 = (if r.does 5 then { f with perc := { f.perc with rules := modAt f.perc.rules n fun r => { r with enable := false } } } else f)
          ∧ (r.does 0 = true → w = none → (evalRule src b (s, w) n).2 = some (n, r.target)))))
  ∧ (∀ (n t : Nat) (s : State),
    (s.power.phase = .parked → wakeUp n t s = { captureRef s with power := { (captureRef s).power with
      phase := .supplyWait .rule (if t = 0 then .run else .watch), rule := n, wake := true, wakeUntilRun := true } })
    ∧ (s.live = true → s.power.state = .watch → t = 0 → wakeUp n t s = enterRun s.power.runSet .rule n s)
    ∧ (s.live = true → s.power.state = .run → wakeUp n t s = s))
  ∧ (∀ r : PercRule, r.filter ≤ 4 → r.src < 16 → r.shift < 16 → r.cmp < 4 → -32768 ≤ r.thresh → r.thresh < 32768 → r.count < 256 → r.target < 4 → r.counter < 4 →
    r.bytes.length = 8 ∧ ruleOf r.bytes = r)
  ∧ (ruleOf [0xC7, 0x30, 0x3C, 0x00, 0x08, 0x07, 0x01, 0x04] =
      { enable := true, filter := 4, src := 7, shift := 3, cmp := 0, thresh := 60, count := 8, action := 7, target := 1, counter := 0, states := 4 })

/-- The one store of managed memory, over every map that interleaving allows (R336). -/
def Obligations.MemoryReadAfterWrite : Prop :=
  (∀ (s : State) (a : Nat) (bs : List Byte), Memory.wf s.mem = true → (∀ i < bs.length, inMem (a + i) = true) →
    (s.memWrite a bs).memRead a bs.length = bs
    ∧ (∀ b, inMem b = true → (b < a ∨ a + bs.length ≤ b) → (s.memWrite a bs).mem.byte b = s.mem.byte b)
    ∧ Memory.wf (s.memWrite a bs).mem = true
    ∧ ∃ m, s.memWrite a bs = { s with mem := m } ∧ m.banks = s.mem.banks ∧ m.windows = s.mem.windows ∧ m.dma = s.mem.dma)
  ∧ (∀ (m : MemSys) (a b : Nat), inMem a = true → inMem b = true → m.loc a = m.loc b → a = b)
  ∧ Memory.wf State.reset.mem = true ∧ State.reset.mem.cells = []

/-- Group 0x02 (R363, R364): the whole next state. -/
def Obligations.MemoryCommands : Prop :=
  (∀ (b : Bank) (p : BankPower),
    (p = b.goal → b.request p = b) ∧ (p ≠ b.goal → b.moving ≠ none → b.request p = { b with power := p, held := some p })
    ∧ (p ≠ b.goal → b.moving = none → b.request p = { b with power := p, moving := some p }))
  ∧ (∀ (b : Bank) (o : Nat) (u : BankUse), o ≠ b.ownerA → b.give o u = { b with ownerA := o, drainA := some b.ownerA, use := u })
  ∧ ∀ (q : Qcp) (s : State),
    (admits mbCfgCmd q s = true →
      exec (.mbCfg q) s = .next (mbCfgCmd.answer q ((bankRange q).foldl (cfgBank q s.freeCtr) { s with freeCtr := s.freeCtr + 1 }) (.ok [])))
    ∧ (admits mbStatusCmd q s = true →
      exec (.mbStatus q) s = .next (mbStatusCmd.answer q s (.ok ((bankRange q).map fun n => bankStatusBytes n (s.bank n)).flatten)))
    ∧ (admits mbOwnSetCmd q s = true →
      exec (.mbOwnSet q) s = .next (mbOwnSetCmd.answer q ((s.mem.ownGroup (q.u 0 1)).foldl (fun s n =>
        s.modBank n fun b => if q.u 1 1 = 1 then b.giveB (q.u 2 1) else b.give (q.u 2 1) b.use) s) (.ok [])))
    ∧ (admits mbDpCfgCmd q s = true →
      exec (.mbDpCfg q) s = .next (mbDpCfgCmd.answer q
        (s.modBank (q.u 0 1) fun b => { b with dp := q.u 1 1 == 1, winB := q.u 2 1 == 1, notify := q.u 3 1 == 1 }) (.ok [])))
    ∧ (admits protWindowSetCmd q s = true → ∀ w, w = windowOf (q.payload.drop 8) →
      exec (.protWindowSet q) s = .next (protWindowSetCmd.answer q
        (if w.enabled && w.isRs then { s.setWindow 7 (q.u 1 1) w with cores := modAt s.cores 7 fun c => { c with rsp := BitVec.ofNat 32 w.limit } }
         else s.setWindow 7 (q.u 1 1) w) (.ok [])))
    ∧ (admits protWindowReadCmd q s = true →
      exec (.protWindowRead q) s = .next (protWindowReadCmd.answer q s (.ok ((s.windows (q.u 0 1)).map Window.bytes).flatten)))
    ∧ (admits dmaAssignCmd q s = true →
      exec (.dmaAssign q) s = .next (dmaAssignCmd.answer q
        (s.modDma (q.u 0 1) fun c => { c with master := q.u 1 1, classMax := q.u 2 1, cls := max c.cls (q.u 2 1) }) (.ok [])))
    ∧ (admits dmaStatusCmd q s = true →
      exec (.dmaStatus q) s = .next (dmaStatusCmd.answer q s
        (.ok (s.mem.dma.map fun c => u8 (c.shown s).code ++ u8 c.master ++ u8 c.cls ++ u8 (boolBits [c.done, c.err])).flatten)))
    ∧ (admits freezeReadCmd q s = true →
      exec (.freezeRead q) s = .next (freezeReadCmd.answer q s (.ok (logSlice FreezeRec.bytes 64 s.mem.freezeLog (q.u 0 1) (q.u 1 1)))))
    ∧ (admits eccReadCmd q s = true →
      exec (.eccRead q) s = .next (eccReadCmd.answer q s (.ok (logSlice EccRec.bytes 16 s.mem.eccLog (q.u 0 1) (q.u 1 1)))))
    ∧ (admits memReadCmd q s = true → ∀ t o, s.eccRead 0x14 (q.u 0 4) (q.u 4 2) = (t, o) →
      (o = none → exec (.memRead q) s = .next (memReadCmd.answer q t (.ok (s.memRead (q.u 0 4) (q.u 4 2)))))
      ∧ (o ≠ none → exec (.memRead q) s = .next (memReadCmd.answer q t ⟨stFault, []⟩)))
    ∧ (admits memWriteCmd q s = true →
      exec (.memWrite q) s = .next (memWriteCmd.answer q (s.memWrite (q.u 0 4) (q.payload.drop 8)) (.ok [])))

/-- The march engine: the whole next state of its commands and of its ends. -/
def Obligations.MarchAndRepair : Prop :=
  (∀ (q : Qcp) (s : State),
    (admits marchRunCmd q s = true → ∀ sh u, sh = (if q.u 2 1 = 1 then 0xFF else (pickShadow s (q.u 0 1) (q.u 3 1)).getD 0xFF) →
      u = startMarch s { phase := if q.u 2 1 = 1 then 2 else 1, bank := q.u 0 1, shadow := sh, algo := q.u 1 1, destructive := q.u 2 1 == 1
                         repair := bitOf (q.u 6 1) 0, target := none, origin := q.origin 0x0210 } →
      ∃ v, exec (.marchRun q) s = .next (marchRunCmd.answer q
        (({ u with nv := { u.nv with marchOpen := some (q.u 0 1, q.u 2 1 == 1) }, freeCtr := u.freeCtr + 1 } : State).mbEvent (q.u 0 1) 3 v) ⟨stAccepted, []⟩))
    ∧ (admits mbRepairCmd q s = true → ∀ sh, sh = (if (s.bank (q.u 0 1)).state = .on then (pickShadow s (q.u 0 1) (q.u 4 1)).getD 0xFF else 0xFF) →
      exec (.mbRepair q) s = .next (mbRepairCmd.answer q (startMarch s
        { phase := 4, bank := q.u 0 1, shadow := sh, algo := 0, destructive := false, repair := true, target := some (q.u 1 1, q.u 2 2)
          origin := q.origin 0x0212 }) ⟨stAccepted, []⟩))
    ∧ (admits marchStatusCmd q s = true → ∀ last, last = ((s.mem.lastMarch).map MarchResult.bytes).getD (rsv 16) →
      (s.mem.march = none → ∃ b sh al, exec (.marchStatus q) s = .next (marchStatusCmd.answer q { s with freeCtr := s.freeCtr + 3 }
        (.ok (u8 0 ++ u8 b ++ u8 sh ++ u8 al ++ u32 s.mem.progress ++ u32 s.mem.fails ++ u32 s.mem.firstFail ++ last))))
      ∧ (∀ m, s.mem.march = some m → ∃ v pr fa ff, exec (.marchStatus q) s = .next (marchStatusCmd.answer q { s with freeCtr := s.freeCtr + 4 }
        (.ok (u8 (marchPhase m v) ++ u8 m.bank ++ u8 m.shadow ++ u8 m.algo ++ u32 pr ++ u32 fa ++ u32 ff ++ last))))))
  ∧ (∀ (s : State) (m : March), s.live = true → s.mem.march = some m →
    (∀ fails micros, m.target = none → exec (.marchEnd fails micros) s = .next (marchEnd fails micros m s))
    ∧ (∀ k i micros, m.target = some (k, i) → exec (.repairEnd micros) s = .next (repairEnd k i micros m s))
    ∧ (m.shadow ≠ 0xFF → endMarch s m = { s with mem := { (((s.modBank m.shadow fun b => b.give 0xFF .none).modBank m.bank fun b => { b with shadowed := false }).mem) with march := none } })
    ∧ (m.shadow = 0xFF → endMarch s m = { s with mem := { s.mem with march := none } }))
  ∧ (∀ (b : Bank) (i : Nat), (b.rows.length < 8 → b.repair 0 i = some { b with rows := b.rows ++ [i] }) ∧ (8 ≤ b.rows.length → b.repair 0 i = none)
    ∧ (b.cols.length < 2 → b.repair 1 i = some { b with cols := b.cols ++ [i] }) ∧ (2 ≤ b.cols.length → b.repair 1 i = none))
  ∧ (∀ (s : State) (m : March) (r : MarchResult), finishMarch s m r = ({ s with mem := { s.mem with lastMarch := some r } } : State).complete m.origin stOk r.bytes)

/-- Banks, DMA channels, register writes and THAW: the whole next state. -/
def Obligations.BankAndDmaEvents : Prop :=
  ∀ s : State, s.live = true →
    (∀ n p m, (s.bank n).moving = some p → m = (if p = .off ∨ (s.bank n).state = .off then s.mem.clearBank n 0 else s.mem) →
      exec (.bankPowerDone n) s = .next (({ s with mem := m.modBank n fun k =>
        { k with state := p, moving := (s.bank n).held.filter fun h => decide (h ≠ p), held := none } } : State).mbEvent n 1 p.code))
    ∧ (∀ n, exec (.handoverDrain n) s = .next ((s.mem.ownGroup n).foldl State.drained s))
    ∧ (∀ n u, (s.bank n).drainA ≠ none → (s.bank n).drainB = none → u = s.modBank n (fun b => { b with drainA := none, drainB := none }) →
      s.drained n = u.mbEvent n 2 (s.bank n).ownerA)
    ∧ (∀ w t, nextScrub s.mem 400 s.mem.scrub = some w → t = ({ s with mem := { s.mem with scrub := (w + 1) % 8388608 } } : State) →
      s.mem.upsets.find? (fun u => u.1 == s.mem.loc (memBase + 8 * w) / 8) = none → exec (.patrolScrub none) s = .next t)
    ∧ (∀ w l u, nextScrub s.mem 400 s.mem.scrub = some w → l = s.mem.loc (memBase + 8 * w) / 8 →
      (s.mem.upsets.find? (fun u => u.1 == l) = some (l, false) →
        u = ({ s with mem := { s.mem with upsets := s.mem.upsets.filter fun u => u.1 != l } } : State).logEcc (memBase + 8 * w) (s.mem.locate (memBase + 8 * w)).1 3 0xFF →
        exec (.patrolScrub none) s = .next { u with mem := { u.mem with scrub := (w + 1) % 8388608 } })
      ∧ (s.mem.upsets.find? (fun u => u.1 == l) = some (l, true) → u = s.logEcc (memBase + 8 * w) (s.mem.locate (memBase + 8 * w)).1 4 0xFF →
        exec (.patrolScrub none) s = .next { u with mem := { u.mem with scrub := (w + 1) % 8388608 } }))
    ∧ (∀ f clash n c d u v w, nextDma s = some n → u = ({ s with mem := { s.mem with lastDma := n } } : State) → c = u.dmaChan n → c.run = some d →
      bitOf d.ctrl 3 = false → bitOf d.ctrl 4 = false → inIo c.source = false → inIo c.dest = false →
      (judgeDma u n c.source c.burst .load).1 = .ok → (judgeDma u n c.dest c.burst .store).1 = .ok → u.eccRead 0x12 c.source c.burst = (v, none) →
      w = (storeAs clash (dmaMaster n c) c.dest (v.memRead c.source c.burst) v).modDma n (fun c => { c with moved := c.moved + (u.dmaChan n).burst }) →
      exec (.dmaBurst f clash) s = .next (if c.moved + c.burst = d.length then dmaDone n f w else w))
    ∧ (∀ n, ucChan s n = true →
      (((s.dmaChan n).state = .idle ∨ (s.dmaChan n).state = .stopped ∨ (s.dmaChan n).state = .aborted) →
        exec (.dmaStart n) s = .next (loadDesc n false (s.modDma n fun c =>
          { c with state := .running, cur := c.desc, run := none, moved := 0, skipped := 0, waitBeat := none, stopReq := false })))
      ∧ ((s.dmaChan n).state = .running ∨ (s.dmaChan n).state = .waiting ∨ (s.dmaChan n).state = .frozen → exec (.dmaStart n) s = .next s)
      ∧ exec (.dmaStop n) s = .next (s.modDma n fun c =>
          if c.state = .running ∨ c.state = .waiting then { c with state := .stopped, waitBeat := none } else if c.state = .frozen then { c with stopReq := true } else c)
      ∧ ∀ v, exec (.dmaStatusClear n v) s = .next (s.modDma n fun c => { c with err := c.err && !bitOf v 7, done := c.done && !bitOf v 6 }))
    ∧ (∀ n u a v d, a = (s.dmaChan n).cur → (judgeDma s n a 32 .load).1 = .ok → inIo a = false → s.eccRead 0x12 a 32 = (v, none) → d = descOf (s.memRead a 32) →
      u = v.modDma n (fun c => { c with run := some d, moved := 0, skipped := 0, waitBeat := if bitOf d.ctrl 5 then some v.time.beat else none }) →
      loadDesc n false s = if descOk n d then u else abortDma n v)
    ∧ (∀ m n, 124 ≤ n → n ≤ 127 → m = (s.bank n).ownerA ∨ m = (s.bank n).ownerB →
      exec (.mbCollClear m n) s = .next (s.modBank n fun b => { b with collValid := false, collCount := 0 }))
    ∧ (∀ n v p, bankPowerOf v = some p → (s.bank n).ownerA = 7 → (s.bank n).shadowed = false → ((s.bank n).crit = false ∨ p ≠ .off) →
      exec (.mbCtrlPower n v) s = .next (s.modBank n fun b => b.request p))
    ∧ (∀ (a v : Word), 0x02010000 ≤ a.toNat → a.toNat < 0x02070000 → a.toNat % 4 = 0 → exec (.registerWrite a v) s = .next (ioWrite a.toNat v.toNat s))
    ∧ (∀ q n, admits thawCmd q s = true → n = q.u 0 1 → n ≤ 6 → q.u 2 1 ≤ 1 →
      exec (.thaw q) s = .next (thawCmd.answer q ((thawRecord n 0 (q.u 2 1 + 1) s).modCore n fun c =>
        { c with mode := .running, pc := if q.u 2 1 = 1 then c.skipTo else c.pc }) (.ok [])))

/-- Groups 0x0F and 0x10 (R482): the whole next state. -/
def Obligations.FirmwareAndDiagnosticCommands : Prop :=
  ∀ (q : Qcp) (s : State),
    (admits bootStatusCmd q s = true → exec (.bootStatus q) s = .next (bootStatusCmd.answer q s (.ok (bootStatusBytes s))))
    ∧ (admits overrunLogCmd q s = true → exec (.overrunLog q) s = .next (overrunLogCmd.answer q s
        (.ok (u32 s.overruns.overwritten ++ logSlice OverrunRec.bytes 16 s.overruns.recs (q.u 0 2) (q.u 2 2)))))
    ∧ (admits faultLogCmd q s = true →
      (q.u 0 1 = 1 → exec (.faultLog q) s = .next (faultLogCmd.answer q s (.ok (u32 s.tripLog.length ++ logSlice TripRec.bytes 16 s.tripLog (q.u 2 2) (q.u 1 1)))))
      ∧ (q.u 0 1 = 0 → exec (.faultLog q) s = .next (faultLogCmd.answer q s (.ok (u32 s.faultLog.length ++ logSlice FaultRec.bytes 16 s.faultLog (q.u 2 2) (q.u 1 1))))))
    ∧ (admits tempReadCmd q s = true →
      exec (.tempRead q) s = .next (tempReadCmd.answer q s (.ok (i16 s.power.temp ++ i16 s.power.tempMin ++ i16 s.power.tempMax ++ rsv 2))))
    ∧ (admits countersCmd q s = true → ∀ cs, cs = groupCounters (q.u 0 1) s →
      exec (.counters q) s = .next (countersCmd.answer q s (.ok (u16 cs.length ++ rsv 2 ++ (cs.map u32).flatten))))
    ∧ (admits selftestCmd q s = true → exec (.selftest q) s = .next (selftestCmd.answer q
        { s with boot := { s.boot with selftests := s.boot.selftests ++ [(q.u 0 1, q.origin 0x1020, s.now)] } } ⟨stAccepted, []⟩))
    ∧ (∀ done, admits (fwWriteCmd done) q s = true → exec (.fwWrite q done) s = .next ((fwWriteCmd done).answer q
        { s with nv := { s.nv with verified := modAt s.nv.verified (q.u 0 1) fun _ => false }
                 boot := { s.boot with verifying := s.boot.verifying.map fun v => if v.1 = q.u 0 1 then (v.1, v.2.1, true) else v } }
        (if done then .ok [] else ⟨stTimeout, []⟩)))
    ∧ (admits fwVerifyCmd q s = true → exec (.fwVerify q) s = .next (fwVerifyCmd.answer q
        { s with boot := { s.boot with verifying := s.boot.verifying ++ [(q.u 0 1, q.origin 0x0F11, false)] } } ⟨stAccepted, []⟩))
    ∧ (admits fwActivateCmd q s = true →
      (q.u 1 1 = 0 → exec (.fwActivate q) s = .next (fwActivateCmd.answer q
        { s with nv := { s.nv with bootSel := { active := q.u 0 1, trial := true, previous := if s.nv.bootSel.trial then s.nv.bootSel.previous else s.nv.bootSel.active } } } (.ok [])))
      ∧ (q.u 1 1 = 1 → exec (.fwActivate q) s = .next (fwActivateCmd.answer q
        (({ s with nv := { s.nv with bootSel := { s.nv.bootSel with trial := false }, rollback := max s.nv.rollback s.boot.level }
                   boot := { s.boot with trial := false } } : State).fwEvent 3 none (some (q.u 0 1)) none) (.ok []))))
    ∧ (∀ image, admits (loopSwapCmd image) q s = true → exec (.loopSwap q image) s = .next ((loopSwapCmd image).answer q
        { s with boot := { s.boot with loopSwaps := s.boot.loopSwaps ++ [{ core := q.u 0 1, slot := q.u 1 1, origin := some (q.origin 0x0F20), outBeat := none, missed := [], groups := [], version := (image.comp 1).2.2 }] } }
        ⟨stAccepted, []⟩))
    ∧ (∀ image u, admits (navSwapCmd image) q s = true → u = (if q.u 0 1 = 0xFF then abortReplay s else startVendor (6 - (abortReplay s).nav.active) (abortReplay s)) →
      exec (.navSwap q image) s = .next ((navSwapCmd image).answer q
        { u with boot := { u.boot with navSwap := some { slot := q.u 0 1, origin := some (q.origin 0x0F21), version := (image.comp 2).2.2, ready := false } } } ⟨stAccepted, []⟩))
    ∧ (admits deviceResetCmd q s = true → exec (.deviceReset q) s = .next (deviceResetCmd.answer q
        { s with power := { s.power with resetDue := some (s.time.dt + BitVec.ofNat 64 640000000, true) } } (.ok [])))

/-- Events of firmware and of the debug port: the whole next state. -/
def Obligations.FirmwareEventsAndDebugPort : Prop :=
  ∀ s : State,
    (∀ image slot o stale rest st, s.live = true → s.boot.verifying = (slot, o, stale) :: rest → st = image.status s.nv.rollback →
      (image.readable = false → exec (.fwVerifyComplete image) s = .next (({ s with boot := { s.boot with verifying := rest } } : State).complete o stTimeout []))
      ∧ (image.readable = true → exec (.fwVerifyComplete image) s = .next (({ s with
          nv := { s.nv with verified := modAt s.nv.verified slot fun _ => st == 0 && !stale }
          boot := { s.boot with verifying := rest, versions := s.boot.versions.take (3 * slot) ++ image.versions ++ s.boot.versions.drop (3 * slot + 3) } } : State).complete
          o stOk (u8 st ++ rsv 3 ++ (image.versions.map u32).flatten))))
    ∧ (∀ core w b, s.live = true → s.on 8 = true → s.time.tick = 0 → (s.boot.loopSwaps.find? fun w => w.core == core) = some w → w.outBeat = some b → b < s.time.beat →
      exec (.loopSwapComplete core) s = .next (loopReturn w s))
    ∧ (∀ w, s.live = true → s.on 9 = true → s.boot.navSwap = some w → w.ready = true → exec .navSwapComplete s = .next (navSwapDone w s))
    ∧ (∀ failed codes tests o at_ rest u, s.live = true → s.boot.selftests = (tests, o, at_) :: rest →
      u = ({ s with boot := { s.boot with selftests := rest } } : State).complete o stOk (u8 (tests - (tests &&& failed)) ++ u8 (tests &&& failed) ++ rsv 2
        ++ u32 (sat32 ((s.now - at_) / 64000)) ++ ((List.range 6).map fun i => u32 (((codes[i]?).getD 0) % 2 ^ 32)).flatten) →
      exec (.selftestComplete failed codes) s = .next (if tests &&& failed = 0 then u else u.diagEvent 2 none))
    ∧ (s.on 2 = true → exec .tapReset s = .next { s with tap := { s.tap with ir := 0xFF } })
    ∧ (∀ key check, s.on 2 = true → s.tap.prov ≠ 1 →
      (s.installed = true → exec (.provisionUpdate key check) s = .next { s with tap := { s.tap with ir := 0xA0, prov := 4 } })
      ∧ (s.installed = false → s.nv.rk1Done = true → exec (.provisionUpdate key check) s = .next { s with tap := { s.tap with ir := 0xA0, prov := 3 } })
      ∧ (s.installed = false → s.nv.rk1Done = false → crc32c (leBytes 32 key.toNat) ≠ check.toNat →
        exec (.provisionUpdate key check) s = .next { s with tap := { s.tap with ir := 0xA0, prov := 5 } })
      ∧ (s.installed = false → s.nv.rk1Done = false → crc32c (leBytes 32 key.toNat) = check.toNat →
        (s.nv.rk1Open = true → s.nv.rk1 &&& ~~~key ≠ 0 → exec (.provisionUpdate key check) s = .next { s with tap := { s.tap with ir := 0xA0, prov := 7 } })
        ∧ (s.nv.rk1Open = false ∨ s.nv.rk1 &&& ~~~key = 0 → exec (.provisionUpdate key check) s = .next { s with tap := { ir := 0xA0, prov := 1, key := key } })))
    ∧ (s.on 2 = true → s.tap.prov = 1 →
      exec (.provisionDone true) s = .next { s with nv := { s.nv with rk1 := s.tap.key, rk1Done := true, rk1Open := false }, tap := { s.tap with prov := 2 } }
      ∧ ∃ m n, exec (.provisionDone false) s = .next { s with
          nv := { s.nv with rk1 := s.nv.rk1 ||| (s.tap.key &&& m), rk1Open := true }, tap := { s.tap with prov := 6 }, freeCtr := n })

/-- Group 0x03 and the events of Table 3.10's CLK_LOSS and R47. -/
def Obligations.InputCommandsAndEvents : Prop :=
  (∀ (q : Qcp) (s : State),
    (admits installWriteCmd q s = true → ∀ r, r = installOf q.payload → r.bytes = q.payload
      ∧ exec (.installWrite q) s = .next (installWriteCmd.answer q { s with nv := { s.nv with install := some r } } (.ok [])))
    ∧ (admits installReadCmd q s = true →
      (∀ r, s.nv.install = some r → exec (.installRead q) s = .next (installReadCmd.answer q s (.ok r.bytes)))
      ∧ (s.nv.install = none → ∃ b, b.length = 576 ∧ exec (.installRead q) s = .next (installReadCmd.answer q { s with freeCtr := s.freeCtr + 1 } (.ok b))))
    ∧ (admits inputEnableCmd q s = true → ∀ n u, n = q.u 0 1 →
      u = s.modInput n (fun i => { i with cfg := { i.cfg with committed := { i.cfg.committed with dcShift := q.u 2 1 } } }) →
      (q.u 1 1 = 0 → exec (.inputEnable q) s = .next (inputEnableCmd.answer q
        ((u.moveInput n .off).modInput n fun i => { i with ran := false, aligned := none, stat := none, clkLost := false }) (.ok [])))
      ∧ (q.u 1 1 ≠ 0 → ((u.input n).state = .off ∨ (u.input n).state = .disabled) →
        exec (.inputEnable q) s = .next (inputEnableCmd.answer q ((u.modInput n SampleInput.train).moveInput n .training) (.ok [])))
      ∧ (q.u 1 1 ≠ 0 → (u.input n).state ≠ .off → (u.input n).state ≠ .disabled →
        exec (.inputEnable q) s = .next (inputEnableCmd.answer q u (.ok []))))
    ∧ (admits inputStatsCmd q s = true → ∀ r, (s.input (q.u 0 1)).stat = some r →
      exec (.inputStats q) s = .next (inputStatsCmd.answer q s (.ok (r.bytes (q.u 0 1)))))
    ∧ (∀ cmd, cmd = subbandSetCmd streamLocked → admits cmd q s = true → ∀ n c u, n = q.u 0 1 → c = subbandOf q →
      (c.enable = true → (s.subband n).ring = none →
        u = (s.giveBanks c.firstBank (ringBanks c) 0x08 .sampleRing).modSubband n (fun b => { b with cfg := b.cfg.commit c, ring := some (c.firstBank, ringBanks c) }) →
        exec (.subbandSet q) s = .next (cmd.answer q u (.ok [])))
      ∧ (¬(c.enable = true ∧ (s.subband n).ring = none) → u = s.modSubband n (fun b => { b with cfg := b.cfg.commit c }) →
        exec (.subbandSet q) s = .next (cmd.answer q (if c.enable then u else failSubband n u) (.ok [])))))
  ∧ (∀ (n : Nat) (s : State),
    (s.inputOn n = false ∨ ((s.input n).state ≠ .run ∧ (s.input n).state ≠ .training) → exec (.clkLoss n) s = .next s)
    ∧ (s.inputOn n = true → (s.input n).state = .run → ∃ v, exec (.clkLoss n) s = .next
        ((({ s with freeCtr := s.freeCtr + 1 } : State).modInput n fun i =>
          { i with state := .lostClock, aligned := none, clkLost := true, clear := modAt i.clear 0 fun _ => 0 }).inputCheck n 0 v))
    ∧ (s.inputOn n = true → (s.input n).state = .training → ∃ v, exec (.clkLoss n) s = .next
        ((({ s with freeCtr := s.freeCtr + 1 } : State).modInput n fun i => { i with aligned := none, clkLost := true }).raiseCheck n 0 v))
    ∧ (s.inputOn n = true ∧ (s.input n).state = .lostClock →
        exec (.clockResume n) s = .next ((s.modInput n fun i => { i with aligned := none, runs := List.replicate 8 0, lastSkew := none }).moveInput n .training))
    ∧ (¬(s.inputOn n = true ∧ (s.input n).state = .lostClock) → exec (.clockResume n) s = .next s)
    ∧ (∀ ws, ¬(s.inputOn n = true ∧ (s.input n).state = .training ∧ (s.input n).aligned = none) ∨ findAlignment 0 ws = none → exec (.alignmentFixed n ws) s = .next s)
    ∧ (∀ ws k, s.inputOn n = true → (s.input n).state = .training → (s.input n).aligned = none → findAlignment 0 ws = some k →
        exec (.alignmentFixed n ws) s = .next (s.modInput n fun i => { i with aligned := some k }))
    ∧ (∀ (pre post : List (BitVec 4)) k w, k = pre.length → w = (List.replicate 64 [0xA#4, 0x5#4, 0x5#4, 0xA#4]).flatten →
        ∃ j, j ≤ k ∧ findAlignment 0 (pre ++ w ++ post) = some (j % 4)))

/-- Group 0x04 and Table 4.2. -/
def Obligations.GrinderCommandsAndEvents : Prop :=
  (∀ (q : Qcp) (s : State),
    (admits grinderCfgCmd q s = true → ∀ (same : Bool) (u : State), same = (s.grinder.placed && s.grinder.workFirst == q.u 0 1 && s.grinder.workBanks == q.u 1 1) →
      u = (if same then s else (if s.grinder.placed then s.freeBanks s.grinder.workFirst s.grinder.workBanks else s).giveBanks (q.u 0 1) (q.u 1 1) 0x09 .spectrum) →
      exec (.grinderCfg q) s = .next (grinderCfgCmd.answer q { u with grinder := { u.grinder with
        workFirst := q.u 0 1, workBanks := q.u 1 1, placed := true, pool := if same then s.grinder.pool else []
        reserve := s.grinder.reserve.commit (q.u 2 1 == 1), age := s.grinder.age.commit (q.u 4 2) } } (.ok [])))
    ∧ (admits grinderStatusCmd q s = true → exec (.grinderStatus q) s = .next (grinderStatusCmd.answer q s
        (.ok ((s.grinder.pipes.map fun p => u16 (p.getD 0xFFFF)).flatten ++ u32 (poolFree s)
        ++ ((List.range 8).map fun p => u16 (s.grinder.entries.countP fun e => decide (e.2.state = .pending) && e.2.priority == p)).flatten
        ++ u32 s.grinder.completions ++ u32 s.grinder.overwrites ++ rsv 4))))
    ∧ (admits ledgerWriteCmd q s = true → exec (.ledgerWrite q) s = .next (ledgerWriteCmd.answer q ((List.range (q.u 2 2)).foldl (fun s i =>
        s.setEntry (q.u 0 2 + i) { entryOf (s.time.beat + 1) (fieldB q.payload (4 + 64 * i) 64) with doneBeat := s.time.beat % 65536 }) s) (.ok [])))
    ∧ (admits ledgerReadCmd q s = true → exec (.ledgerRead q) s = .next (ledgerReadCmd.answer q s
        (.ok ((entryRangeOf (q.u 0 2) (q.u 2 2)).map fun n => (s.entry n).readBytes).flatten)))
    ∧ (admits ledgerCancelCmd q s = true → exec (.ledgerCancel q) s = .next (ledgerCancelCmd.answer q
        ((entryRangeOf (q.u 0 2) (q.u 2 2)).foldl (fun s n =>
          if (s.entry n).state = .active then s.setEntry n { s.entry n with cancel := true } else failWaiting n 8#8 s) s) (.ok [])))
    ∧ (admits ledgerFreeCmd q s = true → exec (.ledgerFree q) s = .next (ledgerFreeCmd.answer q
        ((entryRangeOf (q.u 0 2) (q.u 2 2)).foldl (fun s n =>
          match (s.entry n).state with
          | .found | .notFound | .handed | .failed | .expired => s.setEntry n Entry.reset
          | _ => s) s) (.ok [])))
    ∧ (admits acqPlanCmd q s = true → exec (.acqPlan q) s = .next (acqPlanCmd.answer q
        { s with grinder := { s.grinder with plan := s.grinder.plan.commit (acqPlanOf q) } } (.ok []))))
  ∧ (∀ (next : Nat) (p : List Byte), ((entryOf next p).state = .held ↔ fieldU p 0 1 = 8) ∧ ((entryOf next p).state = .pending ↔ fieldU p 0 1 ≠ 8))
  ∧ (∀ (e : Entry), (e.state = .pending ∨ e.state = .active ∨ e.state = .held → e.readBytes = e.bytes.take 44 ++ rsv 20)
    ∧ (e.state ≠ .pending → e.state ≠ .active → e.state ≠ .held → e.readBytes = e.bytes))
  ∧ (∀ (n : Nat) (f : BitVec 8) (s : State),
    (((s.entry n).state = .pending ∨ (s.entry n).state = .held ∨ (s.entry n).state = .found) → failWaiting n f s = moveEntry n .failed f s)
    ∧ (((s.entry n).state ≠ .pending ∧ (s.entry n).state ≠ .held ∧ (s.entry n).state ≠ .found) → failWaiting n f s = s)
    ∧ (∀ st, ∃ ss ts, moveEntry n st f s = { s.setEntry n { s.entry n with
        state := st, flags := (s.entry n).flags ||| f, doneBeat := s.time.beat % 65536, cancel := false
        channel := if st = .handed ∨ st = .active ∨ st = .pending then (s.entry n).channel else 0xFFFF } with sessions := ss, transports := ts }))
  ∧ (∀ (p : Nat) (s : State),
    (s.grinder.pipes[p]? = some none → s.live = true → s.on 7 = true → s.grinder.placed = true →
      (∀ n e, bestEntry s p = some (n, e) → exec (.entryDispatch p) s = .next (dispatch p n e s)) ∧ (bestEntry s p = none → exec (.entryDispatch p) s = .next s))
    ∧ (¬(s.grinder.pipes[p]? = some none ∧ s.live = true ∧ s.on 7 = true ∧ s.grinder.placed = true) → exec (.entryDispatch p) s = .next s)
    ∧ (∀ r, ¬(∃ n, s.grinder.pipes[p]? = some (some n) ∧ s.live = true ∧ s.on 7 = true ∧ (s.entry n).state = .active) →
        exec (.grinderEntryDone p r) s = .next s ∧ exec (.entryCancelled p) s = .next s)
    ∧ (∀ n e u, s.grinder.pipes[p]? = some (some n) → s.live = true → s.on 7 = true → e = s.entry n → e.state = .active → u = freePipe p s →
      (e.cancel = true → (∀ r, exec (.grinderEntryDone p r) s = .next (moveEntry n .failed 8#8 u)) ∧ exec (.entryCancelled p) s = .next (moveEntry n .failed 8#8 u))
      ∧ (e.cancel = false → exec (.entryCancelled p) s = .next s
        ∧ ∀ r g e' found, s.sig e.signal e.sat = some g → judge s g e r = (e', found) →
          (found = true → exec (.grinderEntryDone p r) s = .next (moveEntry n .found 0 (u.setEntry n { e' with foundAt := s.time.beat })))
          ∧ (found = false → e.attempts < e.retries → exec (.grinderEntryDone p r) s = .next (u.setEntry n
              { e with state := .pending, startBeat := anyBeat, foundAt := s.time.beat + 1, flags := 0, doneBeat := s.time.beat % 65536 }))
          ∧ (found = false → e.retries ≤ e.attempts → exec (.grinderEntryDone p r) s = .next (moveEntry n .notFound 0 (u.setEntry n e'))))))
  ∧ (∀ (n : Nat) (s : State) (e : Entry), e = s.entry n →
    (s.live = true → s.on 7 = true → e.state = .found → e.foundAt + s.grinder.age.inForce ≤ s.time.beat →
      exec (.handoverExpired n) s = .next (moveEntry n .expired 0 s) ∧ exec (.handover n) s = .next s)
    ∧ (¬(s.live = true ∧ s.on 7 = true ∧ e.state = .found) → exec (.handoverExpired n) s = .next s ∧ exec (.handover n) s = .next s)
    ∧ (s.live = true → s.on 7 = true → s.on 5 = true ∨ s.on 6 = true → e.state = .found → e.target ≠ 0xFFFE → s.time.beat < e.foundAt + s.grinder.age.inForce →
      exec (.handoverExpired n) s = .next s ∧ exec (.handover n) s = .next (handover n s))
    ∧ (((candidates e).find? fun c => (s.chan c).idle && (s.chan c).claim.isNone) = none → handover n s = s)
    ∧ (∀ g ch, s.sig e.signal e.sat = some g → ((candidates e).find? fun c => (s.chan c).idle && (s.chan c).claim.isNone) = some ch →
      s.admits false (s.chanCost (entryStream s e)) = false → handover n s = s.setEntry n { e with flags := e.flags ||| 0x10#8 }))

/-- Group 0x05, and what a boundary does with a stop and a claim. -/
def Obligations.FabricCommandsAndLatch : Prop :=
  (∀ (q : Qcp) (s : State),
    (admits fabricCfgCmd q s = true → ∀ u f,
      u = (if dumpMoves q s then
          (if s.fabric.placed then s.freeBanks s.fabric.dumpFirst (dumpBanks s.fabric.dumpDepth) else s).giveBanks (q.u 0 1) (dumpBanks (q.u 1 1)) 0x08 .dumpRing
        else s) →
      f = { u.fabric with dumpFirst := q.u 0 1, dumpDepth := q.u 1 1, placed := true, admitReserve := q.u 4 4 } →
      exec (.fabricCfg q) s = .next (fabricCfgCmd.answer q { u with fabric := f } (.ok [])))
    ∧ (admits fabricStatusCmd q s = true → exec (.fabricStatus q) s = .next (fabricStatusCmd.answer q s
        (.ok (u32 s.admitted ++ u32 s.admitLimit ++ u32 s.fabric.admitReserve ++ u16 ((if s.on 5 then 0xFF else 0) + (if s.on 6 then 0xFF00 else 0))
          ++ u16 (s.fabric.chans.countP fun c => !c.2.idle) ++ (s.fabric.laneWork.map u32).flatten ++ u32 s.fabric.clamps))))
    ∧ (admits chanStartCmd q s = true → ∀ c, c = claimOf (q.payload.drop 4) →
      exec (.chanStart q) s = .next (chanStartCmd.answer q (s.modChan (q.u 0 2) fun k =>
        { k with claim := some c, cost := fSb (s.subband c.desc.subband).cfg.committed.rate / 1000, stop := false }) (.ok [])))
    ∧ (admits chanStopCmd q s = true →
      exec (.chanStop q) s = .next (chanStopCmd.answer q ((List.range (q.u 2 2)).foldl (fun s i => stopChan s (q.u 0 2 + i)) s) (.ok [])))
    ∧ (∀ n, ((s.chan n).idle = true → (s.chan n).claim = none → stopChan s n = s)
      ∧ (¬((s.chan n).idle = true ∧ (s.chan n).claim = none) → stopChan s n = s.setChan n { s.chan n with stop := true }))
    ∧ (admits chanReadCmd q s = true → exec (.chanRead q) s = .next (chanReadCmd.answer q s
        (.ok ((List.range (q.u 2 2)).map fun i => descBytes (s.chan (q.u 0 2 + i)).act (s.chan (q.u 0 2 + i)).nco).flatten)))
    ∧ (admits chanModifyCmd q s = true → ∀ m, m = q.u 2 2 → exec (.chanModify q) s = .next (chanModifyCmd.answer q (s.modChan (q.u 0 2) fun c =>
        { c with shadow := { c.shadow with
            tint := if bitOf m 0 then some (q.u 4 1) else c.shadow.tint, ctrl := if bitOf m 1 then some (BitVec.ofNat 8 (q.u 5 1 % 128)) else c.shadow.ctrl
            taps := (c.shadow.taps.zip (modified q c.committed).taps).zipIdx.map fun w => if bitOf m (2 + w.2) then some w.1.2 else w.1.1 } }) (.ok [])))
    ∧ (admits codeLoadCmd q s = true → ∀ c, c = userCodeOf q →
      exec (.codeLoad q) s = .next (codeLoadCmd.answer q { s with fabric := { s.fabric with
        codes := (s.fabric.codes.filter fun k => !sameComponent k c) ++ [c] } } (.ok []))))
  ∧ (∀ (s : State) (c : Chan),
    (c.stop = true → (latchChan s c).1.act.state = 0 ∧ (latchChan s c).1.claim = none ∧ (latchChan s c).1.stop = false ∧ (latchChan s c).1.cost = 0)
    ∧ (∀ k g, c.stop = false → c.claim = some k → s.sig k.desc.signal k.desc.sat = some g →
        (latchChan s c).1.act = k.desc ∧ (latchChan s c).1.claim = none ∧ (latchChan s c).1.nco.carr = k.carr * 65536 ∧ (latchChan s c).1.nco.code = k.code * 65536
        ∧ (latchChan s c).1.nco.cycles = 0 ∧ (latchChan s c).1.nco.epochMod = k.desc.epochMod)
    ∧ (latchChan s c).1.prev.desc = c.act)
  ∧ (∀ (g : Sig) (d : Desc) (n : Nat) (c : Nco),
    (advanceNco g d n c).1.carr = (((c.carr : Int) + d.carrWord * n) % (2 ^ 48 : Nat)).toNat
    ∧ (advanceNco g d n c).1.code = (c.code + d.codeWord * n) % (g.length * 2 ^ 48))
  ∧ (∀ a x : Int, (a = 8388607 ∨ a = -8388608 → accumulate a x = (a, true))
    ∧ (-8388608 < a → a < 8388607 → -8388608 ≤ a + x → a + x ≤ 8388607 → (accumulate a x).1 = a + x)
    ∧ (-8388608 < a → a < 8388607 → 8388607 < a + x → accumulate a x = (8388607, true))
    ∧ (-8388608 < a → a < 8388607 → a + x < -8388608 → accumulate a x = (-8388608, true)))

/-- Group 0x06: the whole next state of its commands and of the timed transitions of Table 6.2. -/
def Obligations.TrackingAndMultipath : Prop :=
  (∀ (q : Qcp) (s : State),
    (admits trackProfileCmd q s = true → exec (.trackProfile q) s = .next (trackProfileCmd.answer q
      { s with tracking := { s.tracking with profiles := modAt s.tracking.profiles (q.u 0 1) fun c => { c with committed := profileOf q.payload } } } (.ok [])))
    ∧ (admits trackAssignCmd q s = true → exec (.trackAssign q) s = .next (trackAssignCmd.answer q
        ((List.range (q.u 2 2)).foldl (fun s i => s.setTrack (q.u 0 2 + i)
          { s.track (q.u 0 2 + i) with profile := { (s.track (q.u 0 2 + i)).profile with committed := q.u 4 1 } }) s) (.ok [])))
    ∧ (admits trackProfileReadCmd q s = true → exec (.trackProfileRead q) s = .next (trackProfileReadCmd.answer q s
        (.ok ((s.profileAt (q.u 0 1)).committed.bytes (q.u 0 1)))))
    ∧ (admits trackStatusCmd q s = true → exec (.trackStatus q) s = .next (trackStatusCmd.answer q s
        (.ok ((List.range (q.u 2 2)).map fun i => statusBytes s (q.u 0 2 + i)).flatten)))
    ∧ (admits mpCfgCmd q s = true → exec (.mpCfg q) s = .next (mpCfgCmd.answer q
        { s with nav := { s.nav with
            mpCfg := s.nav.mpCfg.commit ⟨q.u 0 1 == 1, q.u 2 2, q.u 4 2, q.u 6 1, q.u 7 1, q.u 8 2⟩, mpApply := s.nav.mpApply.commit (q.u 1 1 == 1) } } (.ok [])))
    ∧ (admits mpReadCmd q s = true → exec (.mpRead q) s = .next (mpReadCmd.answer q s
        (.ok (u32 s.nav.mpSkip ++ ((List.range (q.u 2 2)).map fun i => mpBytes (q.u 0 2 + i) (s.mpChan (q.u 0 2 + i)).record).flatten)))))
  ∧ (∀ (core count : Nat) (late : Option Nat) (s : State),
    (¬(s.live = true ∧ s.on 8 = true ∧ core ≤ 3 ∧ coreRunning s (core + 1) = true) → exec (.dumpService core count late) s = .next s)
    ∧ (s.live = true → s.on 8 = true → core ≤ 3 → coreRunning s (core + 1) = true → ∀ ds u v, ds = serviceQueue s core →
      u = (ds.take count).foldl (fun s d => markServed d (serveDump none d s)) s →
      (late = none ∨ ds.drop count = [] → v = u) → (∀ k d r, late = some k → ds.drop count = d :: r → v = markServed d (serveDump (some k) d u)) →
      exec (.dumpService core count late) s = .next { v with fabric := { v.fabric with lastGroup := modAt v.fabric.lastGroup core fun _ => lastDone v core } }))
  ∧ (∀ (n : Nat) (s : State) (c : Chan) (t : Track) (p : Profile), c = s.chan n → t = s.track n → p = s.chanProfile n →
    (s.live = true → s.on 8 = true → c.act.state = 1 → t.stateBeat + p.pullinMax ≤ s.time.beat →
      exec (.pullinTimeout n) s = .next ((s.setChan n { c with shadow := { c.shadow with state := some 5 } }).setTrack n { t with why := 0x05 }))
    ∧ (¬(s.live = true ∧ s.on 8 = true ∧ c.act.state = 1 ∧ t.stateBeat + p.pullinMax ≤ s.time.beat) → exec (.pullinTimeout n) s = .next s)
    ∧ (∀ lim, lim = (if t.coastVec then p.coastMaxSky else p.coastMax) →
      (s.live = true → s.on 8 = true → c.act.state = 4 → t.stateBeat + lim ≤ s.time.beat →
        exec (.coastTimeout n) s = .next ((s.setChan n { c with shadow := { c.shadow with state := some 5 } }).setTrack n { t with why := 0x0E }))
      ∧ (¬(s.live = true ∧ s.on 8 = true ∧ c.act.state = 4 ∧ t.stateBeat + lim ≤ s.time.beat) → exec (.coastTimeout n) s = .next s))
    ∧ (s.live = true → c.act.state = 5 → t.stateBeat < s.time.beat → s.time.tick = 0 →
      exec (.channelRelease n) s = .next (chanStateNotices [n] ((s.setChan n { c with
        act := { c.act with state := 0 }, cost := 0, shadow := Shadow.none, late := Shadow.none, due := false, stop := false }).setTrack n
          { Track.reset with profile := t.profile, reason := 0x0F, stateBeat := s.time.beat })))
    ∧ (¬(s.live = true ∧ c.act.state = 5 ∧ t.stateBeat < s.time.beat ∧ s.time.tick = 0) → exec (.channelRelease n) s = .next s))
  ∧ (∀ (core : Nat) (fit : MpFit) (s : State),
    (nextFit core s = none → exec (.mpFit core fit) s = .next s)
    ∧ (∀ k, s.cores[core + 1]? = some k → s.live = true → s.on 8 = true → k.mode = .running → core ≤ 3 → ∀ n p r, nextFit core s = some n → (s.mpChan n).ready = some p →
      r = mpRecordOf s.nav.mpCfg.inForce (((s.sig (s.chan n).act.signal (s.chan n).act.sat).map fun g => g.boc).getD false)
          (decide ((s.track n).cn0 < s.nav.mpCfg.inForce.cn0)) s.time.beat p fit →
      exec (.mpFit core fit) s = .next (s.setMpChan n { s.mpChan n with ready := none, record := some r })))
  ∧ (∀ (taps : Nat) (f : MpFit), (taps < 6 → acceptEchoes taps f = []) ∧ (taps < 8 → (acceptEchoes taps f).length ≤ 1) ∧ (acceptEchoes taps f).length ≤ 2
    ∧ ∀ e ∈ acceptEchoes taps f, 128 ≤ e.1 ∧ e.1 ≤ 1536 ∧ 256 ≤ 10 * e.2.1 ∧ e.2.1 < 256)

/-- Signal integrity of group 0x06. -/
def Obligations.IntegrityCommandsAndScore : Prop :=
  (∀ (q : Qcp) (s : State),
    (admits interfCfgCmd q s = true → exec (.interfCfg q) s = .next (interfCfgCmd.answer q (s.modInput (q.u 0 1) fun i =>
        { i with cfg := i.cfg.commit { i.cfg.committed with
            blankThr := q.u 1 1, blankHold := q.u 2 1, notchWidth := q.u 3 1, notchStep := q.u 4 1, engage := q.u 5 1, release := q.u 6 1
            notchMode := interfModes q } }) (.ok [])))
    ∧ (admits interfStatusCmd q s = true → exec (.interfStatus q) s = .next (interfStatusCmd.answer q s
        (.ok ((s.nav.interf.map fun i => u8 i.level ++ u8 i.cause).flatten))))
    ∧ (admits spoofCfgCmd q s = true → exec (.spoofCfg q) s = .next (spoofCfgCmd.answer q
        { s with nav := { s.nav with spoof := { s.nav.spoof with cfg := s.nav.spoof.cfg.commit (spoofCfgOf q) } } } (.ok [])))
    ∧ (admits spoofStatusCmd q s = true → exec (.spoofStatus q) s = .next (spoofStatusCmd.answer q s
        (.ok (spoofBody s ++ u8 (min 255 s.nav.spoof.tested) ++ u8 (min 255 s.nav.spoof.failing) ++ u8 (boolBits (s.nav.spoof.pairs.map (·.collapse))) ++ rsv 1))))
    ∧ (admits osnmaKeyCmd q s = true → exec (.osnmaKey q) s = .next (osnmaKeyCmd.answer q
        { s with nv := { s.nv with osnma := storeKey { algo := q.u 1 1, pkid := q.u 2 1, data := fieldB q.payload 8 (q.u 4 2) } s.nv.osnma } } (.ok [])))
    ∧ (admits osnmaCfgCmd q s = true → ∀ c, c = OsnmaCfg.mk (q.u 0 1 == 1) (q.u 1 1 == 1) (q.u 2 1 == 1) (q.u 4 2) (q.u 6 2) →
      exec (.osnmaCfg q) s = .next (osnmaCfgCmd.answer q { s with nav := { s.nav with osnma := { s.nav.osnma with cfg := s.nav.osnma.cfg.commit c } } } (.ok [])))
    ∧ (admits osnmaStatusCmd q s = true → exec (.osnmaStatus q) s = .next (osnmaStatusCmd.answer q s
        (.ok (u8 s.nav.osnma.state ++ u8 s.nav.osnma.nmas ++ u8 s.nav.osnma.pkid ++ u8 s.nav.osnma.cid ++ u32 s.nav.osnma.ok ++ u32 s.nav.osnma.fail
          ++ u32 s.nav.osnma.lastKey ++ (s.nav.osnma.sats.map (OsnmaSat.byte s.nav.osnma.state)).flatten)))))
  ∧ (∀ (f : Interf) (cause over_ : Nat),
    (f.level < interfLevel cause → (f.next cause over_).level = interfLevel cause ∧ (f.next cause over_).clear = 0)
    ∧ (interfLevel cause ≤ f.level → f.level ≤ (f.next cause over_).level + 1 ∧ (f.next cause over_).level ≤ f.level)
    ∧ (interfLevel cause ≤ f.level → f.clear + 1 < 1000 → (f.next cause over_).level = f.level)
    ∧ (interfLevel cause < f.level → levelHolds cause f.level = false → 1000 ≤ f.clear + 1 → (f.next cause over_).level = f.level - 1))
  ∧ (∀ (c : SpoofCfg) (ms : List Nat),
    (c.weights.sum = 256 → c.weights.length = 5 → ms.length = 5 → (∀ m ∈ ms, m ≤ 255) → spoofScore c ms ≤ 255)
    ∧ (∀ n, ms[n]? = some 255 → bitOf c.hard n = true → spoofScore c ms = 255))
  ∧ (∀ (c : SpoofCfg) (state fall score : Nat),
    (state < spoofTarget c score → spoofNext c state fall score = (spoofTarget c score, 0))
    ∧ (spoofTarget c score ≤ state → state ≠ 0 → ∀ thr, thr = (if state = 1 then c.warn else c.alarm) →
      (thr ≤ score + c.hyst → spoofNext c state fall score = (state, 0))
      ∧ (score + c.hyst < thr → fall + 1 < c.clearEvals → spoofNext c state fall score = (state, fall + 1))
      ∧ (score + c.hyst < thr → c.clearEvals ≤ fall + 1 → spoofNext c state fall score = (spoofTarget c score, 0))))
  ∧ (∀ s : State,
    (¬(s.navRuns = true ∧ s.time.tick = 0 ∧ s.time.beat % 100 = 0) → exec .spoofEvaluation s = .next s)
    ∧ (s.navRuns = true → s.time.tick = 0 → s.time.beat % 100 = 0 → ∀ (ms : List (Option Nat)) (score state fall : Nat) (u : State),
      ms = [pwrMetric s, uniMetric s, aoaMetric s.nav.spoof, jumpMetric s.nav.spoof, osnmaMetric s] → score = spoofScore s.nav.spoof.cfg.inForce (ms.map fun m => m.getD 0) →
      (state, fall) = spoofNext s.nav.spoof.cfg.inForce s.nav.spoof.state s.nav.spoof.fall score →
      u = { s with nav := { s.nav with spoof := { s.nav.spoof with
        state := state, score := score, na := boolBits (ms.map Option.isNone), metrics := ms.map fun m => m.getD 0, fall := fall
        jump := ((ms.map fun m => m.getD 0)[3]?).getD 0 } } } →
      (state = s.nav.spoof.state → exec .spoofEvaluation s = .next u)
      ∧ (state ≠ s.nav.spoof.state → ∃ v w, v = (if bitOf (spoofMask s.nav.spoof.cfg.inForce s.nav.spoof.state) 0 || bitOf (spoofMask s.nav.spoof.cfg.inForce state) 0
            then u.notify 0x8660 (spoofBody u) else u)
          ∧ w = (if state ≠ 0 ∧ bitOf (spoofMask s.nav.spoof.cfg.inForce state) 1 = true then v.carafeTrigger 2 (dtAt v.time.beat 0) else v)
          ∧ exec .spoofEvaluation s = .next (refreshFlags false w))))

/-- Group 0x07: the whole next state of its commands. -/
def Obligations.NavigationCommands : Prop :=
  (∀ (q : Qcp) (s : State),
    (admits navCfgCmd q s = true → exec (.navCfg q) s = .next (navCfgCmd.answer q { s with nav := { s.nav with cfg := s.nav.cfg.commit (navCfgOf q) } } (.ok [])))
    ∧ (admits navStatusCmd q s = true → ∀ sys excl eph, sys = firstSystem s.nav.cfg.inForce.systems →
      excl = ((List.range 32).map fun i => if s.nav.excluded.any fun e => e.sat == 64 * sys + i + 1 then 2 ^ i else 0).sum →
      eph = s.nav.sets.countP (fun d => (d.2.map (dataValid s)).getD false) →
      exec (.navStatus q) s = .next (navStatusCmd.answer q s (.ok (u8 s.nav.mode ++ u8 s.nav.active ++ u8 s.nav.svUsed ++ u8 eph ++ u32 s.nav.overruns
        ++ u32 s.nav.late ++ u32 excl ++ u16 s.nav.states ++ rsv 14))))
    ∧ (admits navResetCmd q s = true → exec (.navReset q) s = .next (navResetCmd.answer q { s with nav := { s.nav with resetDue := some (q.u 0 1) } } (.ok [])))
    ∧ (admits antCfgCmd q s = true → ∀ a, a = AntCfg.mk (q.u 1 1 == 1) (armOf q) (q.i 16 2) →
      exec (.antCfg q) s = .next (antCfgCmd.answer q { s with nav := { s.nav with ants := { s.nav.ants with
        committed := modAt s.nav.ants.committed (q.u 0 1) fun _ => a } } } (.ok [])))
    ∧ (admits pairCfgCmd q s = true → exec (.pairCfg q) s = .next (pairCfgCmd.answer q { s with nav := { s.nav with pairs := s.nav.pairs.commit (pairsOf q) } } (.ok [])))
    ∧ (admits fusionCfgCmd q s = true → exec (.fusionCfg q) s = .next (fusionCfgCmd.answer q
        { s with nav := { s.nav with fusion := s.nav.fusion.commit (fusionCfgOf q) } } (.ok [])))
    ∧ (∀ info, admits (ephLoadCmd info) q s = true → exec (.ephLoad q info) s = .next ((ephLoadCmd info).answer q
        ((info.flatMap (·.sets)).foldl (fun s d => putData true d s) s) (.ok [])))
    ∧ (∀ pages got, admits (almLoadCmd pages) q s = true →
      got = ((pages.take (q.u 1 1)).zipIdx).filterMap (fun (x : Option Nat × Nat) => x.1.map fun k => (k, fieldB q.payload (4 + 40 * x.2) 40)) →
      exec (.almLoad q pages) s = .next ((almLoadCmd pages).answer q (got.foldl (fun s b => putAlmanac (q.u 0 1) b.1 b.2 s) s) (.ok (u8 got.length ++ rsv 3))))
    ∧ (admits pvtReadCmd q s = true → ∀ r, s.nav.record (q.u 0 1) = some r → exec (.pvtRead q) s = .next (pvtReadCmd.answer q s (.ok r.bytes)))
    ∧ (admits measReadCmd q s = true → ∀ m, s.nav.meas = some m → exec (.measRead q) s = .next (measReadCmd.answer q s (.ok (m.part (q.u 0 1)))))
    ∧ (∀ sys n block, s.nav.almanac.contains (65536 * sys + n, block) = false → putAlmanac sys n block s = { s with nav := { s.nav with
        almanac := (s.nav.almanac.filter fun b => b.1 != 65536 * sys + n) ++ [(65536 * sys + n, block)], saveDue := true } }))
  ∧ (∀ r : NavRec, r.pos.length = 3 → r.vel.length = 3 → r.posSig.length = 3 → r.bytes.length = 96)
  ∧ (∀ m : MeasRec, m.bytes.length = 40)
  ∧ (∀ (m : MeasEpoch) (k : Nat), (m.part k).length = 32 + 40 * ((m.recs.drop (101 * (k - 1))).take 101).length)

/-- What the navigation cores do, event by event. -/
def Obligations.NavigationEvents : Prop :=
  (∀ (x : NavInput) (s : State),
    (¬(s.navRuns = true ∧ s.time.tick = 0 ∧ 2 ≤ s.time.beat ∧ (s.time.beat - 2) % measBeats s.nav.cfg.inForce.rate = 0) → exec (.navEpoch x) s = .next s)
    ∧ (s.navRuns = true → s.time.tick = 0 → 2 ≤ s.time.beat → (s.time.beat - 2) % measBeats s.nav.cfg.inForce.rate = 0 → ∀ (k : Nat) (u : State), k = s.time.beat - 2 →
      u = latchEpoch s → k % measBeats u.nav.cfg.inForce.rate = 0 →
      ∀ (v w : State) (rx : Option Nat) (rs : List MeasRec), (u.nav.resetDue = none → v = u) → (∀ kind, u.nav.resetDue = some kind → v = navReset kind u) → rx = rxTimeAt v k x.obs →
      (w, rs) = measureAll k (((rx.getD 0 : Nat)) : Rat) x.obs v →
      ∀ (a b c : State) (m : MeasEpoch), a = refreshFlags true (testPairs k x.aoa (w.modNav fun v => { v with rxTime := rx })) →
      m = MeasEpoch.mk k a.nv.epoch (a.clock.genAt (dtAt k 0)) (bit8 a.clock.valid 0 + bit8 a.nav.skip 1) (a.clock.uncField (dtAt k 0)) (rx.getD 0) rs →
      b = sendMeas (a.modNav fun v => { v with meas := some m }) m → c = updateOsnma b.nav.osnma.lastKey b →
      (c.nav.skip = true → exec (.navEpoch x) s = .next (checkpoint (saveNav (c.modNav fun v => { v with skip := false }))))
      ∧ (c.nav.skip = false → exec (.navEpoch x) s = .next (checkpoint (saveNav (updateEpoch k x rs c))))))
  ∧ (∀ (kind : Nat) (s : State), (navReset kind s).nav.resetDue = none ∧ (navReset kind s).nav.mode = 0 ∧ (navReset kind s).nav.inputs = []
    ∧ (1 ≤ kind → (navReset kind s).nav.sets = []) ∧ (2 ≤ kind → (navReset kind s).nav.almanac = [] ∧ (navReset kind s).nav.pvt = none))
  ∧ (∀ s : State,
    (¬(s.live = true ∧ s.on 9 = true) → exec .navDeadline s = .next s)
    ∧ (s.live = true → s.on 9 = true →
      exec .navDeadline s = .next (({ s with nav := { s.nav with skip := true, overruns := sat32 (s.nav.overruns + 1) } } : State).navEvent 1 0 none))
    ∧ (s.live = true → bitOf s.nav.fusion.inForce.enable 0 = true → s.nav.imu.lost = false → s.passedMs s.nav.imu.lastValid 20 = true →
      exec .imuLost s = .next (({ s with nav := { s.nav with imu := { s.nav.imu with lost := true, back := 0 } } } : State).navEvent 5 0 none))
    ∧ (¬(s.live = true ∧ bitOf s.nav.fusion.inForce.enable 0 = true ∧ s.nav.imu.lost = false ∧ s.passedMs s.nav.imu.lastValid 20 = true) → exec .imuLost s = .next s)
    ∧ (∀ t, s.nav.canUsed = true → s.nav.canAt = some t → (s.passedMs t 100 = true → exec .canStale s = .next { s with nav := { s.nav with canUsed := false } })
        ∧ (s.passedMs t 100 = false → exec .canStale s = .next s))
    ∧ (s.nav.canUsed = false ∨ s.nav.canAt = none → exec .canStale s = .next s))
  ∧ (∀ (x : FusedFix) (s : State),
    (¬(s.navRuns = true ∧ fuseBeats s.nav.cfg.inForce.fuse ≠ 0 ∧ s.nav.fusion.inForce.enable ≠ 0 ∧ s.time.tick = 0 ∧ s.nav.fusion.inForce.fuseWait ≤ s.time.beat
        ∧ (s.time.beat - s.nav.fusion.inForce.fuseWait) % fuseBeats s.nav.cfg.inForce.fuse = 0) → exec (.fusedEpoch x) s = .next s)
    ∧ (s.navRuns = true → fuseBeats s.nav.cfg.inForce.fuse ≠ 0 → s.nav.fusion.inForce.enable ≠ 0 → s.time.tick = 0 → s.nav.fusion.inForce.fuseWait ≤ s.time.beat →
        (s.time.beat - s.nav.fusion.inForce.fuseWait) % fuseBeats s.nav.cfg.inForce.fuse = 0 →
        ∃ (u : State) (r : NavRec), r.mode = x.mode ∧ r.pos = x.pos ∧ r.vel = x.vel ∧ r.dt = BitVec.ofNat 64 (dtAt (s.time.beat - s.nav.fusion.inForce.fuseWait) 0)
          ∧ (∃ n, u = { s with freeCtr := n })
          ∧ exec (.fusedEpoch x) s = .next (autoSeal 1 r ((u.modNav fun v =>
            { v with fused := some r, lastFix := if r.mode = 0 then v.lastFix else some r }).notify 0x8730 r.bytes))))
  ∧ (∀ (m : NavMsg) (s : State),
    (s.navRuns = false → exec (.navMessage m) s = .next s)
    ∧ (s.navRuns = true → exec (.navMessage .failed) s = .next s
      ∧ (∀ d, exec (.navMessage (.data d)) s = .next (putData false d s))
      ∧ (∀ sys k b, exec (.navMessage (.almanac sys k b)) s = .next (putAlmanac sys k b s))
      ∧ (∀ leap delta to_, exec (.navMessage (.utc leap delta to_)) s = .next (s.setUtc leap delta to_))
      ∧ (∀ i delta, i < 4 → exec (.navMessage (.offset i delta)) s = .next (s.setDelta i delta))
      ∧ (∀ n inv, (s.chan n).idle = false → exec (.navMessage (.frameWord n inv)) s = .next (frameWord n inv s))
      ∧ (∀ f, exec (.navMessage (.osnma f)) s = .next (osnmaSubframe f s))
      ∧ (∀ id size page data dec, exec (.navMessage (.has id size page data dec)) s = .next (hasPage id size page data dec s))
      ∧ (∀ sat type time sets cs, exec (.navMessage (.sbas sat type time sets cs)) s = .next (sbasMessage sat type time sets cs s))))
  ∧ (∀ (miso : List Byte) (b : Bool) (s : State),
    (s.periph.imuCfg = none → exec (.imuRead miso b) s = .next s)
    ∧ (∀ c, s.periph.imuCfg = some c →
      (¬(s.live = true ∧ s.on 14 = true ∧ bitOf s.nav.fusion.inForce.enable 0 = true ∧ s.time.tick = s.nav.fusion.inForce.imuTick
          ∧ s.time.beat % imuPeriod s.nav.fusion.inForce.imuRate = 0) → exec (.imuRead miso b) s = .next s)
      ∧ (s.live = true → s.on 14 = true → bitOf s.nav.fusion.inForce.enable 0 = true → s.time.tick = s.nav.fusion.inForce.imuTick →
          s.time.beat % imuPeriod s.nav.fusion.inForce.imuRate = 0 → ∀ v at_, v = imuAxes (c.endian == 1) miso c.gyroOff ++ imuAxes (c.endian == 1) miso c.accOff →
          at_ = s.now - s.nav.fusion.inForce.imuLatency * 64000 →
          exec (.imuRead miso b) s = .next (imuSample v at_ { s with periph := { s.periph with imuSample := some (v, at_) } }))))
  ∧ (∀ (i : FuseInput) (s : State),
    (s.now < i.at_ → putInput i s = s)
    ∧ (i.at_ ≤ s.now → i.at_ < histStart s → putInput i s = { s with nav := { s.nav with late := sat32 (s.nav.late + 1) } })
    ∧ (i.at_ ≤ s.now → histStart s ≤ i.at_ → putInput i s = { s with nav := { s.nav with
        inputs := (s.nav.inputs.filter fun x => decide (histStart s ≤ x.at_)) ++ [i] } }))

/-- Groups 0x0801 to 0x0810 and 0x0840, and the timeouts of R216, R219 and R221. -/
def Obligations.CorrectionsAndStation : Prop :=
  (∀ (q : Qcp) (s : State),
    (admits corrCfgCmd q s = true → exec (.corrCfg q) s = .next (corrCfgCmd.answer q { s with corr := { s.corr with cfg := s.corr.cfg.commit (corrCfgOf q) } } (.ok [])))
    ∧ (admits corrStatusCmd q s = true → ∀ rtk, rtk = (s.corr.stations.findIdx? fun t => s.corr.rtk == some (t.source, t.node, t.id)).getD 0xFF →
      exec (.corrStatus q) s = .next (corrStatusCmd.answer q s (.ok (u8 s.corr.orbSource ++ u8 rtk ++ u8 s.corr.sbasNow ++ u8 s.corr.hasState
        ++ u8 s.corr.stations.length ++ rsv 3 ++ u32 s.corr.framesOk ++ u32 s.corr.crcFail ++ u32 s.corr.rangeFail ++ u32 s.corr.hasMsg ++ u32 s.corr.stale ++ rsv 4
        ++ (s.corr.stations.map (stationBytes s)).flatten))))
    ∧ (∀ info u rs, admits (corrPushCmd info) q s = true → (u, rs) = applyFrames (q.u 0 1) 0 ((okFrames (corrPushFrames q)).map (·.2)) info s →
      exec (.corrPush q info) s = .next ((corrPushCmd info).answer q u
        (.ok (u8 (rs.count .accepted) ++ u8 (rs.count .badCrc) ++ u8 (rs.count .unsupported) ++ u8 (rs.count .stale)))))
    ∧ (admits refstnCfgCmd q s = true → exec (.refstnCfg q) s = .next (refstnCfgCmd.answer q
        { s with corr := { s.corr with ref := { s.corr.ref with
            stop := refStopOf q, saved := if refStopOf q = s.corr.ref.stop ∨ s.corr.ref.stop = RefStn.reset.stop then s.corr.ref.saved else none
            epoch := s.corr.ref.epoch.commit (q.u 0 1 == 1, q.u 32 1, q.u 33 1, q.u 34 1), state := if s.corr.ref.state = 3 then 0 else s.corr.ref.state } } } (.ok [])))
    ∧ (admits refstnStatusCmd q s = true → exec (.refstnStatus q) s = .next (refstnStatusCmd.answer q s
        (.ok (u8 s.corr.ref.state ++ rsv 3 ++ (s.corr.ref.arp.map i64).flatten
          ++ u32 (if s.corr.ref.state = 1 then (s.now - s.corr.ref.since) / (1000 * msUnits) else 0) ++ u32 (if s.corr.ref.state = 1 then s.corr.ref.sigma else 0))))))
  ∧ (∀ (src node : Nat) (f : List Byte) (i : RtcmInfo) (s : State),
    (frameCrcOk f = false → applyFrame src node f i s = ({ s with corr := { s.corr with crcFail := sat32 (s.corr.crcFail + 1) } }, .badCrc))
    ∧ (frameCrcOk f = true → rtcmKind (rtcmNumber f) = .other →
        applyFrame src node f i s = ({ s with corr := { s.corr with unsupported := s.corr.unsupported + 1 } }, .unsupported))
    ∧ (frameCrcOk f = true → rtcmKind (rtcmNumber f) = .ssr → sourceOn s 1 = false →
        applyFrame src node f i s = ({ s with corr := { s.corr with dropped := s.corr.dropped + 1 } }, .off)))
  ∧ (∀ (src time : Nat) (c : SatCorr) (s : State), corrInRange c = false → (putCorr src time c s).corr.corrs = s.corr.corrs)
  ∧ (∀ (src node id : Nat) (s : State), s.corr.stations.length ≤ 8 → (holdStation src node id s).corr.stations.length ≤ 8
    ∧ ∃ t ∈ (holdStation src node id s).corr.stations, t.is src node id = true)
  ∧ (∀ s : State,
    (∃ ts, exec .msmEpochTimeout s = .next { s with corr := { s.corr with stations := ts } } ∧ ts.length = s.corr.stations.length
      ∧ ∀ (n : Nat) (t : Station), s.corr.stations[n]? = some t →
        (t.open_ = none → ts[n]? = some t)
        ∧ (∀ o, t.open_ = some o → (s.passedMs o.since 500 = false → ts[n]? = some t) ∧ (s.passedMs o.since 500 = true → ts[n]? = some (t.close s.now))))
    ∧ (∃ ts, exec .arpWaitTimeout s = .next { s with corr := { s.corr with stations := ts } } ∧ ts.length = s.corr.stations.length
      ∧ ∀ (n : Nat) (t : Station), s.corr.stations[n]? = some t →
        (∀ w, t.waitSince = some w → t.arp = none → s.passedMs w 30000 = true → ts[n]? = some { t with obs := none, waitSince := none })
        ∧ (t.waitSince = none ∨ t.arp ≠ none → ts[n]? = some t))
    ∧ exec .hasPageTimeout s = .next { s with corr := { s.corr with has := s.corr.has.filter fun h => !s.passedMs h.since 60000 } }
    ∧ exec .sbasUnusableEnd s = .next { s with corr := { s.corr with sbas := s.corr.sbas.map fun b => { b with unusable := b.unusable.filter fun t => decide (s.now < t) } } })

/-- QDP (R224 to R233) and R265. -/
def Obligations.DomainAndReceivedFrames : Prop :=
  (∀ (q : Qcp) (s : State),
    (admits domainCfgCmd q s = true → ∀ c d, c = domainCfgOf q → d = s.domain →
      exec (.domainCfg q) s = .next (domainCfgCmd.answer q { s with corr := { s.corr with domain := { s.corr.domain with
        cfg := c, helloDue := if c.enable && !d.cfg.enable then s.now else d.helloDue
        gm := if c.enable then d.gm else none, silent := if c.enable then d.silent else none } } } (.ok [])))
    ∧ (admits domainStatusCmd q s = true → exec (.domainStatus q) s = .next (domainStatusCmd.answer q s
        (.ok (u8 (domainState s) ++ rsv 1 ++ u16 (s.domain.gm.getD 0xFFFF) ++ u16 s.domain.peers.length ++ u32 s.domain.macFail ++ u32 s.domain.replay ++ rsv 2
          ++ (s.domain.peers.map (peerBytes s)).flatten))))
    ∧ (∀ info, admits (qdpTunnelCmd info) q s = true →
      exec (.qdpTunnelIn q info) s = .next ((qdpTunnelCmd info).answer q (qdpReceive 2 none q.payload info s) (.ok []))))
  ∧ (∀ (port stamp : Nat) (d : List Byte) (info : List RtcmInfo) (s : State),
    (s.portUp port = true → port < 2 → exec (.qdpDatagramRx port stamp d info) s = .next
      (qdpReceive port (some (((stamp : Int) - (s.port port).lat.committed.2).toNat)) d info s))
    ∧ (¬(s.portUp port = true ∧ port < 2) → exec (.qdpDatagramRx port stamp d info) s = .next s))
  ∧ (∀ (from_ : Nat) (rx : Option Nat) (d : List Byte) (info : List RtcmInfo) (s : State),
    (s.qdpOn = false ∨ bitOf s.domain.cfg.transport from_ = false → qdpReceive from_ rx d info s = s)
    ∧ (s.qdpOn = true → bitOf s.domain.cfg.transport from_ = true → qdpHeaderOk s d = false →
        qdpReceive from_ rx d info s = { s with corr := { s.corr with domain := { s.corr.domain with discarded := s.corr.domain.discarded + 1 } } })
    ∧ (s.qdpOn = true → bitOf s.domain.cfg.transport from_ = true → qdpHeaderOk s d = true → macKey s = none →
        qdpReceive from_ rx d info s = macFailed (qField d 6 2) s)
    ∧ (∀ key, s.qdpOn = true → bitOf s.domain.cfg.transport from_ = true → qdpHeaderOk s d = true → macKey s = some key →
        qdpMac key (d.take (d.length - 8)) ≠ d.drop (d.length - 8) → qdpReceive from_ rx d info s = macFailed (qField d 6 2) s))
  ∧ (∀ (p p' : Peer) (e q : BitVec 32),
    (e.toNat < p.epoch.toNat → replayStep p e q = none)
    ∧ (replayStep p e q = some p' → replayStep p' e q = none)
    ∧ (replayStep p e q = some p' → p.epoch.toNat ≤ p'.epoch.toNat ∧ p'.epoch = e ∧ (e = p.epoch → p.highest.toNat ≤ p'.highest.toNat)))
  ∧ (∀ s : State,
    (s.qdpOn = false ∨ s.domain.sends = false ∨ s.now < s.domain.helloDue → exec .helloSend s = .next s)
    ∧ (s.qdpOn = true → s.domain.sends = true → s.domain.helloDue ≤ s.now → ∀ u v w,
      u = qdpSend 1 0xFFFF (fun _ => helloBody (s.modDomain fun d => { d with helloDue := s.now + d.cfg.helloInt * msUnits })) none
        (s.modDomain fun d => { d with helloDue := s.now + d.cfg.helloInt * msUnits }) →
      v = (if u.domain.role 0 then electGm u else u) →
      w = (if v.domain.role 0 && v.domain.gm == some v.nodeId then
          qdpSend 2 0xFFFF (fun t => timeBody v (if t = 2 then v.now else v.now + timeLead)) (some (v.now + timeLead)) v else v) →
      exec .helloSend s = .next (sendAlert w))
    ∧ (∀ ps, ps = s.domain.peers.map (fun p => if p.alert != 0 && s.passedMs p.alertAt (3 * s.domain.cfg.helloInt) then { p with alert := 0 } else p) →
      exec .alertExpiry s = .next { s with corr := { s.corr with domain := { s.corr.domain with peers := ps } } })
    ∧ (∀ old, old = s.domain.peers.filter (fun p => !p.timedOut && bitOf p.roles 0 && s.passedMs p.hello (3 * s.domain.cfg.helloInt)) →
      (old = [] → exec .peerTimeout s = .next s)
      ∧ (∀ u, u = old.foldl (fun s p => s.domainEvent 2 p.node 0)
          (s.modDomain fun d => { d with peers := d.peers.map fun p => if old.contains p then { p with timedOut := true } else p }) →
        old ≠ [] → exec .peerTimeout s = .next (if u.qdpOn && u.domain.role 0 then electGm u else u)))
    ∧ exec .conflictSilenceEnd s = .next { s with corr := { s.corr with domain := { s.corr.domain with silent := s.corr.domain.silent.filter fun t => decide (s.now < t) } } })
  ∧ (∀ (n stamp : Nat) (ok : Bool) (f : List Byte) (info : List RtcmInfo) (s : State),
    (s.portUp n = false ∨ 1 < n → exec (.ethFrameRx n stamp ok f info) s = .next s)
    ∧ (s.portUp n = true → n ≤ 1 →
      (ok = false → exec (.ethFrameRx n stamp ok f info) s = .next (s.modPort n fun p => { p with rxFcs := sat32 (p.rxFcs + 1) }))
      ∧ (ok = true → f.length < 60 ∨ 1518 < f.length ∨ macAccepted s n (f.take 6) = false → exec (.ethFrameRx n stamp ok f info) s = .next (dropRx n s))
      ∧ (ok = true → 60 ≤ f.length → f.length ≤ 1518 → macAccepted s n (f.take 6) = true → (s.port n).cfg.vlan = 0 → beField f 12 2 = 0x0806 →
          exec (.ethFrameRx n stamp ok f info) s = .next (arpReceive n (f.drop 14) s))
      ∧ (ok = true → 60 ≤ f.length → f.length ≤ 1518 → macAccepted s n (f.take 6) = true → (s.port n).cfg.vlan = 0 → beField f 12 2 = 0x0800 →
          exec (.ethFrameRx n stamp ok f info) s = .next (ipReceive n (((stamp : Int) - (s.port n).lat.committed.2).toNat) (fieldB f 6 6) (f.drop 14) info s))))
  ∧ (∀ (n : Nat) (p : List Byte) (s : State),
    (p.take 8 = [0, 1, 8, 0, 6, 4, 0, 1] → beField p 24 4 = (s.port n).cfg.ipv4 → arpReceive n p s = sendOwn n (s.ethFrame n (fieldB p 8 6) 0x0806
        ([0, 1, 8, 0, 6, 4, 0, 2] ++ s.macOf n ++ be 4 (s.port n).cfg.ipv4 ++ fieldB p 8 6 ++ fieldB p 14 4)) false 0 0 none (goodRx n s))
    ∧ (p.take 8 ≠ [0, 1, 8, 0, 6, 4, 0, 1] → arpReceive n p s = dropRx n s))

/-- Group 0x09 and what time drives. -/
def Obligations.TimeCommandsAndPulses : Prop :=
  (∀ (q : Qcp) (s : State),
    (admits timeConfigCmd q s = true → exec (.timeConfig q) s = .next (timeConfigCmd.answer q (s.modClock fun c => { c with cfg := c.cfg.commit (timeCfgOf q) }) (.ok [])))
    ∧ (admits timeStatusCmd q s = true → exec (.timeStatus q) s = .next (timeStatusCmd.answer q s (.ok (timeStatusBytes s))))
    ∧ (admits tpConfigCmd q s = true → ∀ p on, p = TpPulse.mk (q.u 4 1) (q.u 8 4) (q.i 12 4) → on = (q.u 1 1 == 1) →
      exec (.tpConfig q) s = .next (tpConfigCmd.answer q (s.modTp (q.u 0 1) fun t =>
        { t with enable := on, scale := q.u 2 1, period := q.u 3 1, offset := q.i 16 4, pulse := if t.enable && on then t.pulse.commit p else .at p
                 enabledAt := if on && !t.enable then s.now else t.enabledAt, pulseEnd := if on then t.pulseEnd else none }) (.ok [])))
    ∧ (admits foutConfigCmd q s = true → ∀ p on, p = (q.u 2 1 == 1, q.i 8 4) → on = (q.u 0 1 == 1) →
      exec (.foutConfig q) s = .next (foutConfigCmd.answer q (s.modFout fun f =>
        { f with enable := on, scale := q.u 1 1, freq := q.u 4 4, pulse := if f.enable && on then f.pulse.commit p else .at p
                 level := if on then f.level else false, waiting := if on && !f.enable then true else f.waiting
                 lastEdge := if on && f.enable then f.lastEdge else none }) (.ok [])))
    ∧ (admits evConfigCmd q s = true → exec (.evConfig q) s = .next (evConfigCmd.answer q (s.modEv (q.u 0 1) fun e =>
        { e with edge := q.u 1 1, owner := q.u 2 1, notify := q.u 3 1 == 1, minWidth := q.u 4 2, cable := q.i 8 4 }) (.ok [])))
    ∧ (admits evReadCmd q s = true → ∀ rs, rs = ((s.ev (q.u 0 1)).ring.filter fun r => decide (q.u 4 4 ≤ r.seq)).take (q.u 1 1) →
      exec (.evRead q) s = .next (evReadCmd.answer q s (.ok (u8 rs.length ++ rsv 3 ++ (rs.map EvRec.bytes).flatten)))))
  ∧ (∀ d : Int, placeEdge d % 16 = 0 ∧ d - 16 < placeEdge d ∧ placeEdge d < d + 17)
  ∧ (∀ g : Nat, g ≤ 0xFFFF → 1 ≤ nextGen g ∧ nextGen g ≤ 0xFFFF)
  ∧ (∀ (n grid : Nat) (b : Bool) (s : State) (t : TpOut) (e : Int), t = { s.tp n with pulse := (s.tp n).pulse.latch } → e = placeEdge ((grid : Int) - t.pulse.inForce.cable) →
    (¬(s.live = true ∧ s.on 13 = true ∧ t.enable = true ∧ n ≤ 3 ∧ s.inTick e = true ∧ t.enabledAt + halfSecond ≤ grid) ∨ tpGrid s.clock t grid = none →
      exec (.timePulseEdge n grid b) s = .next s)
    ∧ (s.live = true → s.on 13 = true → t.enable = true → n ≤ 3 → s.inTick e = true → t.enabledAt + halfSecond ≤ grid →
      ∀ time k u, tpGrid s.clock t grid = some time → k = tpQuality s.clock t.scale grid →
      (tooClose t.lastEdge e = true → u = (s.modTp n fun _ => { t with omitted := sat32 (t.omitted + 1) }) →
        exec (.timePulseEdge n grid b) s = .next (if bitOf t.pulse.inForce.policy 2 then u.tpMark n e grid time k 1 b false else u))
      ∧ (tooClose t.lastEdge e = false → k = 2 → bitOf t.pulse.inForce.policy 0 = true → u = (s.modTp n fun _ => t) →
        exec (.timePulseEdge n grid b) s = .next (if bitOf t.pulse.inForce.policy 2 then u.tpMark n e grid time k 2 b false else u))
      ∧ (tooClose t.lastEdge e = false → ¬(k = 2 ∧ bitOf t.pulse.inForce.policy 0 = true) → u = (s.modTp n fun _ => { t with
          lastEdge := some e.toNat, pulseEnd := some (e.toNat + t.pulse.inForce.width * 64000 * (if bitOf t.pulse.inForce.policy 1 then k + 1 else 1))
          markGen := if bitOf t.pulse.inForce.policy 2 then some (s.clock.genAt grid) else t.markGen }) →
        exec (.timePulseEdge n grid b) s = .next (if bitOf t.pulse.inForce.policy 2 then u.tpMark n e grid time k 0 b (t.markGen != some (s.clock.genAt grid)) else u))))
  ∧ (∀ (grid : Nat) (s : State) (f : FoutOut) (e : Int), f = { s.timeSys.fout with pulse := s.timeSys.fout.pulse.latch } → e = placeEdge ((grid : Int) - f.pulse.inForce.2) →
    (¬(s.live = true ∧ s.on 13 = true ∧ f.enable = true ∧ s.inTick e = true) ∨ foutGrid s.clock f grid = none → exec (.foutEdge grid) s = .next s)
    ∧ (∀ k, s.live = true → s.on 13 = true → f.enable = true → s.inTick e = true → foutGrid s.clock f grid = some k → ¬(f.waiting = true ∧ k % (2 * f.freq : Nat) ≠ 0) →
        ¬(f.pulse.inForce.1 = true ∧ s.clock.effective = 5) → (∀ l, f.lastEdge = some l → (64000000000 : Int) ≤ (e - (l : Int) + 16) * (2 * f.freq : Nat)) →
        exec (.foutEdge grid) s = .next (s.modFout fun _ => { f with level := decide (k % 2 = 0), lastEdge := some e.toNat, waiting := false })))
  ∧ (∀ s : State,
    (s.clock.step = none ∨ s.clock.state ≠ 4 ∨ s.on 13 = false → exec .stepInstant s = .next s)
    ∧ (∀ sec g dt u kind, s.clock.step = some sec → s.clock.seg s.now = some g → s.clock.state = 4 → s.on 13 = true → dt = g.dtOf (seconds 0 + (sec : Int) * nsUnit) →
        dt < (dtAt s.time.beat (s.time.tick + 1) : Nat) → kind = (if (s.clock.from_ = 1 ∨ s.clock.from_ = 3) ∧ (s.clock.source = 2 ∨ s.clock.source = 3) then 2 else 0) →
        u = (s.modClock fun c => { c.newSeg dt.toNat (-c.y) (-(roundRat (c.e * 4294967296))) (nextGen c.gen) with
          state := 1, step := none, next := none, e := 0, steps := (c.steps + 1) % 65536, big := 0, lastValid := s.now }) →
        exec .stepInstant s = .next ((({ u with eth := u.eth.map (EthPort.withdraw u.now) } : State).timeStep dt.toNat (-(roundRat (s.clock.e * 1000))) kind 0xFF).timeState 4))
    ∧ (s.clock.leapNext = none ∨ s.on 13 = false → exec .leapSecond s = .next s)
    ∧ (∀ at_ leap g dt u, s.clock.leapNext = some (at_, leap) → s.clock.seg s.now = some g → s.on 13 = true → dt = g.dtOf ((at_ : Int) * nsUnit) →
        dt < (dtAt s.time.beat (s.time.tick + 1) : Nat) →
        u = (s.modClock fun c => { c.newSeg dt.toNat g.slope 0 (nextGen c.gen) with
          leaps := (dt.toNat, leap) :: c.leaps, leapNext := none, steps := (c.steps + 1) % 65536 }) →
        ∃ v, exec .leapSecond s = .next (({ u with freeCtr := u.freeCtr + 1 } : State).timeStep dt.toNat
          ((((s.clock.leapAt s.now).getD leap : Nat) : Int) * 1000000000000 - (leap : Int) * 1000000000000) 1 (v % 256)))
    ∧ (s.clock.state = 2 → s.clock.pastLimit s.now = true → exec .holdoverLimit s = .next ((s.modClock fun c => { c with state := 5 }).timeState 2))
    ∧ (¬(s.clock.state = 2 ∧ s.clock.pastLimit s.now = true) → exec .holdoverLimit s = .next s))
  ∧ (∀ (n : Nat) (up : Bool) (pin : Nat) (b : Bool) (s : State),
    ((s.ev n).selects up = false → capture n up pin b s = s)
    ∧ ((s.ev n).selects up = true → (s.ev n).beat = s.time.beat → 8 ≤ (s.ev n).count → capture n up pin b s = s.modEv n fun e => { e with dropped := true }))

/-- Group 0x0B: the whole next state of its commands and events. -/
def Obligations.CarafeCommandsAndEvents : Prop :=
  (∀ (q : Qcp) (s : State),
    (admits carafeCfgCmd q s = true → ∀ (c : CarafeCfg) (arm : Bool) (u v : State), c = carafeOf q → arm = (q.u 0 1 == 1) →
      u = (if s.carafe.placed && !c.sameStop s.carafe.cfg then
          (s.freeBanks s.carafe.cfg.first s.carafe.cfg.banks).modCarafe fun k => { k with placed := false, slots := [], mixes := [] } else s) →
      v = (if arm && !u.carafe.placed then u.giveBanks c.first c.banks 0x16 .carafe else u) →
      exec (.carafeCfg q) s = .next (carafeCfgCmd.answer q (v.modCarafe fun k => { k with
        cfg := c, arm := k.arm.commit arm, placed := k.placed || arm, freeReq := !arm
        rates := if arm && !k.arm.committed && !k.anyHeld then c.streams.map fun n => (v.subband n).cfg.committed.rate else k.rates }) (.ok [])))
    ∧ (admits carafeStatusCmd q s = true → exec (.carafeStatus q) s = .next (carafeStatusCmd.answer q s
        (.ok (ub s.carafe.arm.inForce ++ u16 (if s.carafe.placed then min 65535 (histDepth s) else 0) ++ rsv 1 ++ u32 (freeSlots s)
          ++ (s.carafe.windows.map HistWindow.bytes).flatten))))
    ∧ (admits carafeTriggerCmd q s = true → exec (.carafeTrigger q) s = .next (carafeTriggerCmd.answer q (s.carafeTrigger 0 s.now) (.ok [])))
    ∧ (admits carafeReleaseCmd q s = true →
      ((s.window (q.u 0 1)).held = true → exec (.carafeRelease q) s = .next (carafeReleaseCmd.answer q (s.modWindow (q.u 0 1) fun w => { w with release := true }) (.ok [])))
      ∧ ((s.window (q.u 0 1)).held = false → exec (.carafeRelease q) s = .next (carafeReleaseCmd.answer q s (.ok []))))
    ∧ (admits carafeReadCmd q s = true → ∀ k, histSlotOf s (q.u 4 8) = some k →
      exec (.carafeRead q) s = .next (carafeReadCmd.answer q s (.ok (s.memRead (histTagAddr s k (q.u 1 1)) 16
        ++ s.memRead (histDataAddr s k (q.u 1 1) + q.u 12 4) (min 4000 (histStreamBytes s (q.u 1 1) - q.u 12 4))))))
    ∧ (∀ plans u ns, admits (carafeReplayCmd plans) q s = true → (u, ns) = placeEntries (q.u 0 1) (s.window (q.u 0 1)).first (BitVec.ofNat 32 (q.u 4 4)) plans s →
      exec (.carafeReplay q plans) s = .next ((carafeReplayCmd plans).answer q
        ((u.modWindow (q.u 0 1) fun v => { v with state := .replaying }).modCarafe fun c => { c with replay := some (Replay.mk (q.u 0 1) (q.u 1 1 == 1)
          (BitVec.ofNat 32 (q.u 4 4)) (((u.time.beat + q.u 2 2 : Nat) : Int) - (s.window (q.u 0 1)).first) ns) }) (.ok []))))
  ∧ (∀ (s : State) (bit at_ : Nat),
    (s.carafe.arm.inForce = false ∨ bitOf s.carafe.cfg.mask bit = false → s.carafeTrigger bit at_ = s)
    ∧ (∀ bt, (∀ w, w < 8 → (s.window w).held = true) → openWindow s bit at_ bt = s.carafeEvent 0xFF 4 (some bit))
    ∧ (∀ bt w, ((List.range 8).find? fun w => !(s.window w).held) = some w → slotsLeft s (bt + s.carafe.cfg.post + 1 - windowStart s bt) = false →
        openWindow s bit at_ bt = s.carafeEvent 0xFF 4 (some bit))
    ∧ (∀ w, s.carafe.arm.inForce = true → bitOf s.carafe.cfg.mask bit = true → (∀ w, w < 8 → ¬((s.window w).state = .filling ∧ (s.window w).trigNow = s.now)) →
        ((List.range 8).find? fun w => decide ((s.window w).state = .filling) && (s.window w).has (at_ / beatUnits)) = some w →
        ∀ last, last = max (s.window w).last (at_ / beatUnits + s.carafe.cfg.post) → (s.window w).triggers.length < 8 → last + 1 - (s.window w).first ≤ 60000 →
        slotsLeft s (last - (s.window w).last) = true →
        s.carafeTrigger bit at_ = (s.modWindow w fun v => { v with last := last, triggers := v.triggers ++ [bit] }).carafeEvent w 2 (some bit))
    ∧ (∀ w kind src, ∃ ss ts, s.carafeEvent w kind (some src) = { s with sessions := ss, transports := ts }))
  ∧ (∀ (s : State) (w : Nat),
    (s.live = true → (s.window w).state = .filling → (s.window w).last < s.time.beat →
      exec (.windowFrozen w) s = .next ((s.modWindow w fun v => { v with state := .frozen }).carafeEvent w 3 none))
    ∧ (¬(s.live = true ∧ (s.window w).state = .filling ∧ (s.window w).last < s.time.beat) → exec (.windowFrozen w) s = .next s)
    ∧ (s.live = true → s.time.tick = 0 → (s.window w).held = true → (s.window w).release = true → (s.window w).state ≠ .replaying →
      exec (.windowRelease w) s = .next (((failWindow w s).modWindow w fun _ => HistWindow.reset).carafeEvent w 5 none))
    ∧ (¬(s.live = true ∧ s.time.tick = 0 ∧ (s.window w).held = true ∧ (s.window w).release = true ∧ (s.window w).state ≠ .replaying) →
      exec (.windowRelease w) s = .next s))
  ∧ (∀ (fix : Option NavFix) (n : Nat) (s : State),
    (s.carafe.replay = none ∨ s.live = false → exec (.replayDone fix n) s = .next s)
    ∧ (∀ r, s.carafe.replay = some r → s.live = true →
      (replayOver r s = false → exec (.replayDone fix n) s = .next s)
      ∧ (replayOver r s = true → ∀ u, u = stopWindow r.window s →
        (fix = none → exec (.replayDone fix n) s = .next (replayNone r 1 u))
        ∧ (∀ f, fix = some f → enoughSats f.used = false → exec (.replayDone fix n) s = .next (replayNone r 1 u))
        ∧ (∀ f v rec old, fix = some f → enoughSats f.used = true → (v, rec) = resolvedRecord ((u.window r.window).trigBeat + 1) f n u →
          (v.window r.window).live = some old → r.sealIt = false →
          exec (.replayDone fix n) s = .next ((endReplay r.window v).notify 0x8B20 (replayHead v r.window 0 f.used.length
            (agrees (horizDist rec.pos (propagated old (dtAt ((u.window r.window).trigBeat + 1) 0))) old rec)
            (min 0xFFFFFFFF (roundRat (horizDist rec.pos (propagated old (dtAt ((u.window r.window).trigBeat + 1) 0)) / 100)).toNat) 0 ++ rec.bytes))))))
  ∧ (∀ (n : Nat) (up : Bool) (pin : Nat) (b : Bool) (s : State),
    (¬(s.live = true ∧ s.on 13 = true) → exec (.eventCapture n up pin b) s = .next s)
    ∧ (s.live = true → s.on 13 = true →
      ((n = s.carafe.cfg.evSel ∧ bitOf s.carafe.cfg.evEdge (if up then 0 else 1) = true) →
        exec (.eventCapture n up pin b) s = .next (capture n up pin b (s.carafeTrigger 1 ((pin : Int) - (s.ev n).cable).toNat)))
      ∧ (¬(n = s.carafe.cfg.evSel ∧ bitOf s.carafe.cfg.evEdge (if up then 0 else 1) = true) →
        exec (.eventCapture n up pin b) s = .next (capture n up pin b s))))

/-- Group 0x0A and the line of the Ethernet ports. -/
def Obligations.EthernetCommandsAndLine : Prop :=
  (∀ (q : Qcp) (s : State) (n : Nat), n = q.u 0 1 →
    (admits epCfgCmd q s = true → ∀ (c : EpCfg) (l : Int × Int) (u : State), c = epCfgOf q → l = (q.i 24 4, q.i 28 4) →
      u = (s.modPort n fun p =>
        { p with cfg := c, lat := if p.line.isSome || !p.queue.isEmpty then p.lat.commit l else .at l, link := if c.enable && s.on 12 then p.link else 0
                 linkUpAt := if c.enable then p.linkUpAt else none, queue := if c.enable then p.queue else [], frags := if c.enable then p.frags else [] }) →
      ((s.port n).cfg.enable = false ∨ c.enable = true → exec (.epCfg q) s = .next (epCfgCmd.answer q u (.ok [])))
      ∧ ((s.port n).cfg.enable = true → c.enable = false → exec (.epCfg q) s = .next (epCfgCmd.answer q ((u.port n).queue.foldl (fun s f => dropFrame n 1 f s) u) (.ok []))))
    ∧ (admits epStatusCmd q s = true → ∀ p, p = s.port n → exec (.epStatus q) s = .next (epStatusCmd.answer q s
        (.ok (u8 p.link ++ rsv 3 ++ u32 p.rxOk ++ u32 p.txOk ++ u32 p.rxFcs ++ u32 p.rxDrop ++ u32 p.tsLost ++ u32 p.skip ++ u32 p.launchDrop))))
    ∧ (admits ethTxCmd q s = true → ∀ (fl : Nat) (f : TxFrame), fl = q.u 1 1 →
      f = ⟨lineBytes (fieldB q.payload 16 (q.u 4 2)), if bitOf fl 0 then some (q.u 2 2) else none, if bitOf fl 1 then some (launchAt s (q.u 8 8)) else none, false, 0, 0, s.clock.gen⟩ →
      exec (.ethTx q) s = .next (ethTxCmd.answer q (s.modPort n fun p =>
        { p with entries := if bitOf fl 0 then p.entries ++ [⟨q.u 2 2, bitOf fl 2, none⟩] else p.entries
                 launches := if bitOf fl 1 then p.launches ++ [f] else p.launches
                 queue := if bitOf fl 1 then p.queue else p.queue ++ [f] }) (.ok [])))
    ∧ (admits ethTsReadCmd q s = true → ∀ ready, ready = ((s.port n).entries.filter fun e => e.done.isSome && decide (e.id < 0xF000)).take (q.u 1 1) →
      exec (.ethTsRead q) s = .next (ethTsReadCmd.answer q (s.modPort n fun p => { p with entries := p.entries.filter fun e => !ready.contains e })
        (.ok (u8 ready.length ++ rsv 3 ++ (ready.map (tsBytes s n)).flatten))))
    ∧ (admits ptpCfgCmd q s = true → ∀ (u v : State), u = (s.modPtp n fun p => { p with enable := q.u 1 1 == 1, stop := ptpStopOf q, cfg := .at (ptpFrameOf q) }) →
      v = (u.modPtp n fun p => { p.restart with foreign := [], untrusted := [], asCapable := false, parent := none }) →
      ((q.u 1 1 == 1) = (s.ptp n).enable → exec (.ptpCfg q) s = .next (ptpCfgCmd.answer q u (.ok [])))
      ∧ (q.u 1 1 = 1 → (s.ptp n).enable = false → v.portUp n = true →
          exec (.ptpCfg q) s = .next (ptpCfgCmd.answer q (runBmca n false (setPtpState n ptpListening none v)) (.ok [])))
      ∧ (q.u 1 1 = 1 → (s.ptp n).enable = false → v.portUp n = false → exec (.ptpCfg q) s = .next (ptpCfgCmd.answer q (setPtpState n ptpFaulty none v) (.ok [])))
      ∧ (q.u 1 1 ≠ 1 → (s.ptp n).enable = true → exec (.ptpCfg q) s = .next (ptpCfgCmd.answer q (setPtpState n ptpDisabled none u) (.ok []))))
    ∧ (admits ptpStatusCmd q s = true → ∀ (p : Ptp) (sub : Nat), p = s.ptp n →
      sub = (if p.locked then 1 else 0) + (if p.suspect.isSome then 2 else 0) + (if p.window.isSome then 4 else 0) + (if p.untrusted.isEmpty then 0 else 8) + (if p.asCapable then 16 else 0) →
      exec (.ptpStatus q) s = .next (ptpStatusCmd.answer q s
        (.ok (u8 p.state ++ u8 sub ++ u16 ((p.parent.map fun m => m.steps + 1).getD 0) ++ ((p.parent.map (·.identity)).getD (rsv 8)) ++ psField p.offset
        ++ psField (p.path.getD 0) ++ psField p.asym ++ psFieldU p.asymBound ++ psFieldU (rmsOf p.residuals) ++ u32 p.syncOk ++ u32 p.discarded
        ++ u32 p.outliers ++ rsv 4))))
    ∧ (admits ptpTrustCmd q s = true →
      exec (.ptpTrust q) s = .next (ptpTrustCmd.answer q (runBmca n false (s.modPtp n fun p => { p with untrusted := [] })) (.ok []))))
  ∧ (∀ (n : Nat) (s : State) (due : List TxFrame),
    due = (s.port n).launches.filter (fun f => (f.launch.map fun l => decide (l ≤ s.now + ((s.port n).lat.inForce.1.toNat) + 4925)).getD false) →
    (due = [] → exec (.ethLaunch n) s = .next s)
    ∧ (∀ f r u, due = f :: r → u = (s.modPort n fun p => { p with launches := p.launches.erase f }) →
      (u.portUp n = true → ¬(f.own = true ∧ f.gen ≠ s.clock.gen) → exec (.ethLaunch n) s = .next (u.modPort n fun p => { p with line := some f }))
      ∧ (u.portUp n = true → f.own = true ∧ f.gen ≠ s.clock.gen →
          exec (.ethLaunch n) s = .next ((dropFrame n 3 f u).modPort n fun p => { p with launchDrop := sat32 (p.launchDrop + 1) }))
      ∧ (u.portUp n = false → exec (.ethLaunch n) s = .next ((dropFrame n 1 f u).modPort n fun p => { p with launchDrop := sat32 (p.launchDrop + 1) }))))
  ∧ (∀ (n : Nat) (s : State), ∃ old : TsEntry → Bool, (∀ e, old e = true ↔ ∃ a b c d, e.done = some (a, b, c, d) ∧ s.passedMs d 10000 = true)
    ∧ exec (.tsEntryTimeout n) s = .next (s.modPort n fun p =>
        { p with entries := p.entries.filter (fun e => !old e), tsLost := sat32 (p.tsLost + (p.entries.filter old).length) }))
  ∧ (∀ (n stamp : Nat) (b : Bool) (s d : State), d = drainEth s →
    (d.portUp n = false ∨ ((d.port n).line = none ∧ (d.port n).queue = []) → exec (.ethTxDone n stamp b) s = .next d)
    ∧ (d.portUp n = true → ∀ f dt u, dt = ((stamp : Int) + (d.port n).lat.inForce.1).toNat →
      (d.port n).line = some f ∨ ((d.port n).line = none ∧ (d.port n).queue.head? = some f) →
      u = (d.modPort n fun p => { p with line := none, queue := if p.line.isSome then p.queue else p.queue.drop 1, txOk := sat32 (p.txOk + 1), lat := p.lat.latch }) →
      exec (.ethTxDone n stamp b) s = .next (afterOwn n dt f ((f.id.map fun i => completeTs n i 0 dt b u).getD u))))
  ∧ (∀ (n : Nat) (s : State),
    ((s.port n).link = 0 → exec (.linkDown n) s = .next s)
    ∧ ((s.port n).link ≠ 0 → ∀ u, u = dropAll n (s.modPort n fun p => { p with link := 0, linkUpAt := none }) →
        exec (.linkDown n) s = .next (if (u.ptp n).enable then setPtpState n ptpFaulty none u else u)))
  ∧ (∀ (n sp : Nat) (s : State),
    (¬(s.live = true ∧ s.on 12 = true ∧ (s.port n).cfg.enable = true ∧ 1 ≤ sp ∧ sp ≤ 3) → exec (.linkUp n sp) s = .next s)
    ∧ (s.live = true → s.on 12 = true → (s.port n).cfg.enable = true → 1 ≤ sp → sp ≤ 3 →
      ((s.port n).link = 0 → exec (.linkUp n sp) s = .next (s.modPort n fun p => { p with link := sp, linkUpAt := some (s.now + 1000 * msUnits) }))
      ∧ ((s.port n).link ≠ 0 → (∀ t, (s.port n).linkUpAt = some t → s.now < t) → exec (.linkUp n sp) s = .next s)
      ∧ (∀ t u, (s.port n).link ≠ 0 → (s.port n).linkUpAt = some t → t ≤ s.now → u = (s.modPort n fun p => { p with linkUpAt := none }) →
          exec (.linkUp n sp) s = .next (if (u.ptp n).enable && (u.ptp n).state == ptpFaulty then runBmca n false (setPtpState n ptpListening none u) else u))))

/-- What a PTP port does with messages and at its timeouts. -/
def Obligations.PtpMessagesAndTimers : Prop :=
  (∀ (n dt : Nat) (m : List Byte) (s : State) (type : Nat), type = beField m 0 1 % 16 →
    exec (.syncRx n dt m) s = .next (if type = 0 ∨ type = 8 then ptpReceive n dt m s else s)
    ∧ exec (.delayRespRx n dt m) s = .next (if type = 9 then ptpReceive n dt m s else s)
    ∧ exec (.pdelayRx n dt m) s = .next (if type = 2 ∨ type = 3 ∨ type = 10 then ptpReceive n dt m s else s)
    ∧ exec (.announceRx n dt m) s = .next (if type = 11 then ptpReceive n dt m s else s)
    ∧ ((s.ptp n).enable = false ∨ s.portUp n = false → ptpReceive n dt m s = s)
    ∧ ((s.ptp n).enable = true → s.portUp n = true →
      (ptpHeaderOk s n m = false → ptpReceive n dt m s = s.modPtp n fun p => { p with discarded := sat32 (p.discarded + 1) })
      ∧ (ptpHeaderOk s n m = true → (ptpSource m).take 8 = s.clockId → ∀ t, (s.ptp n).loopAt = some t → s.passedMs t 60000 = false →
          ptpReceive n dt m s = s.modPtp n fun p => { p with discarded := sat32 (p.discarded + 1) })
      ∧ (ptpHeaderOk s n m = true → (ptpSource m).take 8 = s.clockId → (s.ptp n).loopAt = none → ∀ u, u = discardPtp n s →
          ptpReceive n dt m s = (u.modPtp n fun p => { p with loopAt := some u.now }).ptpEvent n 9 0)
      ∧ (ptpHeaderOk s n m = true → (ptpSource m).take 8 ≠ s.clockId → ∀ u ok, ptpRate n type (ptpSource m) s = (u, ok) →
          (ok = false ∨ ptpCorrOk m = false → ptpReceive n dt m s = u.modPtp n fun p => { p with discarded := sat32 (p.discarded + 1) })
          ∧ (ok = true → ptpCorrOk m = true →
            (type = 0 ∨ type = 8 → ptpReceive n dt m s = ptpSync n dt m u)
            ∧ (type = 1 → ptpReceive n dt m s = ptpDelayReq n dt m u)
            ∧ (type = 9 → ptpReceive n dt m s = ptpDelayResp n m u)
            ∧ (type = 2 ∨ type = 3 ∨ type = 10 → ptpReceive n dt m s = ptpPeer n dt m u)
            ∧ (type = 11 → ptpReceive n dt m s = ptpAnnounce n m u))))
    ∧ ((s.ptp n).state ≠ 8 ∨ ((s.ptp n).parent.map (·.port)) ≠ some (ptpSource m) →
        ptpSync n dt m s = s.modPtp n fun p => { p with discarded := sat32 (p.discarded + 1) })
    ∧ ((s.ptp n).state = 8 → ((s.ptp n).parent.map (·.port)) = some (ptpSource m) → type ≠ 8 → ptpTwoStep m = true →
        1 ≤ (ptpSeq m + 65536 - (s.ptp n).syncSeq.getD (ptpSeq m + 65535)) % 65536 → (ptpSeq m + 65536 - (s.ptp n).syncSeq.getD (ptpSeq m + 65535)) % 65536 < 32768 →
        ptpSync n dt m s = s.modPtp n fun p => { p with syncSeq := some (ptpSeq m), wait := some (ptpSeq m, dt, ptpCorr m) })
    ∧ ((s.ptp n).state = 8 → ((s.ptp n).parent.map (·.port)) = some (ptpSource m) → type = 8 → ∀ t2 c, (s.ptp n).wait = some (ptpSeq m, t2, c) →
        s.now ≤ t2 + logUnits (s.ptp n).stop.logSync → beField m 40 4 < 1000000000 → ptpSync n dt m s = syncPair n t2 (ptpStampOf m 34) (c + ptpCorr m) s))
  ∧ (∀ (n dt : Nat) (fwd : Rat) (s : State) (p : Ptp), p = s.ptp n →
    (p.path = none → takeSample n dt fwd s = s)
    ∧ (∀ d o, p.path = some d → o = fwd - d - p.asym →
      (∀ g, p.window.isSome = true → s.gnssFix = some g → takeSample n dt fwd s = s.modPtp n fun p =>
          { p with gnssSum := p.gnssSum + (fwd - p.asym - g.e), gnssCount := p.gnssCount + 1 })
      ∧ (p.window = none → predictedOffset s n dt = none → takeSample n dt fwd s = useSample n dt o s)
      ∧ (∀ pred, p.window = none → predictedOffset s n dt = some pred →
        (p.suspect.isSome = true → takeSample n dt fwd s = s.modPtp n fun p => { p with kept := (o, pred) :: p.kept })
        ∧ (p.suspect = none → (p.cfg.inForce.jumpThr : Rat) < absRat (o - pred) →
            takeSample n dt fwd s = (s.modPtp n fun p => { p with suspect := some (s.now, 0), kept := [(o, pred)] }).ptpEvent n 4 (roundRat (o - pred)))
        ∧ (p.suspect = none → ¬(p.cfg.inForce.jumpThr : Rat) < absRat (o - pred) →
            4 * rmsOf p.residuals < absRat (o - pred) → 4 * (p.cfg.inForce.lockThr : Rat) < absRat (o - pred) →
            takeSample n dt fwd s = s.modPtp n fun p => { p with outliers := sat32 (p.outliers + 1) })
        ∧ (p.suspect = none → ¬(p.cfg.inForce.jumpThr : Rat) < absRat (o - pred) →
            ¬(4 * rmsOf p.residuals < absRat (o - pred) ∧ 4 * (p.cfg.inForce.lockThr : Rat) < absRat (o - pred)) → takeSample n dt fwd s = useSample n dt o s))))
  ∧ (∀ i now : Nat, 0 < i → nextGrid i now % i = 0 ∧ now < nextGrid i now ∧ nextGrid i now ≤ now + i)
  ∧ (∀ (n : Nat) (s : State) (p : Ptp) (u : State), p = s.ptp n → u = (s.modPtp n fun p => { p with txSeq := (p.txSeq + 1) % 65536 }) →
    (¬(p.state = 5 ∧ s.portUp n = true) → exec (.syncSend n) s = .next s ∧ exec (.announceSend n) s = .next s)
    ∧ (p.state = 5 → s.portUp n = true → exec (.syncSend n) s = .next (sendPtp n 0 (ptpMessage s n 0 p.txSeq 0x0200 0 p.stop.logSync (rsv 10)) true 1 p.txSeq
        (some (nextGrid (logUnits p.stop.logSync) s.now)) u))
    ∧ (∀ c, p.state = 5 → s.portUp n = true → c = announcedSet s n → exec (.announceSend n) s = .next (sendPtp n 11
        (ptpMessage s n 11 p.txSeq c.flags 0 p.stop.logAnnounce (rsv 10 ++ (leBytesI 2 c.utcOffset).reverse ++ [0] ++ be 1 c.priority1 ++ be 1 c.clockClass
          ++ be 1 c.accuracy ++ be 2 c.variance ++ be 1 c.priority2 ++ c.identity ++ be 2 c.steps ++ be 1 c.timeSource)) false 0 p.txSeq none u))
    ∧ (p.enable = false ∨ s.portUp n = false ∨ (p.stop.profile < 2 ∧ p.state ≠ 8) → exec (.delayReqSend n) s = .next s)
    ∧ (∀ v, v = (s.modPtp n fun r => { r with txSeq := (r.txSeq + 1) % 65536, req := some (p.txSeq, none), responders := [], pdelay := none }) →
      (p.enable = true → s.portUp n = true → 2 ≤ p.stop.profile → exec (.delayReqSend n) s = .next (sendPtp n 2 (ptpMessage s n 2 p.txSeq 0 0 0x7F (rsv 20)) true 3 p.txSeq none v))
      ∧ (p.enable = true → s.portUp n = true → p.stop.profile < 2 → p.state = 8 →
          exec (.delayReqSend n) s = .next (sendPtp n 1 (ptpMessage s n 1 p.txSeq 0 0 0x7F (rsv 10)) true 2 p.txSeq none v))))
  ∧ (∀ (n : Nat) (s : State) (p : Ptp), p = s.ptp n →
    (p.suspect = none → exec (.suspectMasterEnd n) s = .next s)
    ∧ (∀ since r, p.suspect = some (since, r) →
      (s.now < since + 4 * logUnits p.stop.logSync → exec (.suspectMasterEnd n) s = .next s)
      ∧ (since + 4 * logUnits p.stop.logSync ≤ s.now → p.kept ≠ [] → s.gnssFix = none →
        ∀ (diffs : List Rat) (j sp : Rat), diffs = p.kept.map (fun x => x.1 - x.2) → j = diffs.sum / (p.kept.length : Nat) →
          sp = diffs.foldl (fun a b => if a < b then b else a) j - diffs.foldl (fun a b => if b < a then b else a) j →
          (sp ≤ (p.cfg.inForce.jumpThr : Rat) / 4 → exec (.suspectMasterEnd n) s = .next ((reanchor n j s).ptpEvent n 5 (roundRat j)))
          ∧ (¬sp ≤ (p.cfg.inForce.jumpThr : Rat) / 4 → 2 ≤ r → exec (.suspectMasterEnd n) s = .next (distrust n s))
          ∧ (¬sp ≤ (p.cfg.inForce.jumpThr : Rat) / 4 → r < 2 → exec (.suspectMasterEnd n) s = .next (s.modPtp n fun p => { p with suspect := some (s.now, r + 1), kept := [] })))
      ∧ (∀ g, since + 4 * logUnits p.stop.logSync ≤ s.now → p.kept ≠ [] → s.gnssFix = some g →
          ((p.cfg.inForce.jumpThr : Rat) < absRat (g.e - (p.kept.map (·.1)).sum / (p.kept.length : Nat)) → exec (.suspectMasterEnd n) s = .next (distrust n s))
          ∧ (¬(p.cfg.inForce.jumpThr : Rat) < absRat (g.e - (p.kept.map (·.1)).sum / (p.kept.length : Nat)) →
              exec (.suspectMasterEnd n) s = .next (reanchor n ((p.kept.map fun x => x.1 - x.2).sum / (p.kept.length : Nat)) s))))
    ∧ (p.window = none → exec (.pathWindowEnd n) s = .next s)
    ∧ (∀ since m0 held, p.window = some (since, m0, held) →
      (s.passedMs since (1000 * p.cfg.inForce.stabWindow) = false → exec (.pathWindowEnd n) s = .next s)
      ∧ (s.passedMs since (1000 * p.cfg.inForce.stabWindow) = true → ∀ d, d = meanDelay p →
        (p.gnssOk = true → 0 < p.gnssCount → ∀ c, c = p.gnssSum / p.gnssCount - d → exec (.pathWindowEnd n) s = .next ((s.modPtp n fun p =>
            { p with path := some d, window := none, asym := p.asym + c, asymBound := p.asymBound, anchor := none, used := p.used }).ptpEvent n 8 (roundRat c)))
        ∧ (p.gnssOk = false ∨ p.gnssCount = 0 → exec (.pathWindowEnd n) s = .next ((s.modPtp n fun p =>
            { p with path := some d, window := none, asym := p.asym + 0, asymBound := p.asymBound + absRat (d - held), anchor := none, used := p.used }).ptpEvent n 8
              (roundRat (absRat (d - held)))))))
    ∧ (∀ keep, keep = p.untrusted.filter (fun u => (u.2.map fun t => decide (s.now < t)).getD true) →
      (keep.length = p.untrusted.length → exec (.untrustHoldEnd n) s = .next s)
      ∧ (keep.length ≠ p.untrusted.length → exec (.untrustHoldEnd n) s = .next (runBmca n false (s.modPtp n fun p => { p with untrusted := keep }))))
    ∧ (¬(p.state = 8 ∧ p.locked = true ∧ p.lastSync + 3 * logUnits p.stop.logSync ≤ s.now) → exec (.syncReceiptTimeout n) s = .next s)
    ∧ (p.state = 8 → p.locked = true → p.lastSync + 3 * logUnits p.stop.logSync ≤ s.now →
        exec (.syncReceiptTimeout n) s = .next ((s.modPtp n fun p => { p with locked := false }).ptpEvent n 3 0))
    ∧ (p.enable = false ∨ s.portUp n = false → exec (.announceTimeout n) s = .next s)
    ∧ (∀ u stale, stale = (fun c : ClockSet => decide (c.heard + p.stop.annTimeout * logUnits p.stop.logAnnounce ≤ s.now)) →
        u = (s.modPtp n fun p => { p with foreign := p.foreign.filter fun c => !stale c }) → p.enable = true → s.portUp n = true →
        (p.parent = none → exec (.announceTimeout n) s = .next (runBmca n true u))
        ∧ (∀ m, p.parent = some m → exec (.announceTimeout n) s = .next
            (if (p.foreign.any fun c => c.identity == m.identity && stale c) then runBmca n true u else s))))
  ∧ (∀ a b : ClockSet, betterSet a a = false ∧ (betterSet a b = true → betterSet b a = false))

/-- Group 0x0C without sealing, and what the cipher units and key slots do by themselves. -/
def Obligations.CipherUnitsAndKeySlots : Prop :=
  (∀ (q : Qcp) (s : State),
    (admits cuStatusCmd q s = true → exec (.cuStatus q) s = .next (cuStatusCmd.answer q s (.ok (((List.range 8).map fun n =>
      u8 (if (s.unit n).disabled then 2 else if (s.unit n).running.isSome then 1 else 0) ++ u8 (s.holder n) ++ u8 (s.unit n).queue.length
        ++ u8 (min 255 (recentMismatches s n)) ++ u32 (s.unit n).ops).flatten))))
    ∧ (admits keyDeriveCmd q s = true →
      (∀ t, s.cipher.trngFail = some t → exec (.keyDerive q) s = .next (keyDeriveCmd.answer q (s.cuFault (s.deviceUnit.getD 0xFF) 4 0) ⟨stFault, []⟩))
      ∧ (s.cipher.trngFail = none → ∃ root, s.rootKey (q.u 1 1) = some root ∧ ∀ label pol k, label = fieldB q.payload 24 (q.u 20 1) → pol = q.u 2 2 % 8192 →
        k = SlotKey.mk ((deriveKey root (label.map (·.toNat)) pol).map (BitVec.ofNat 8)) (BitVec.ofNat 16 pol) (q.u 1 1) (q.u 20 1) (crc32c label)
          (BitVec.ofNat 32 (q.u 4 4)) (if q.u 8 4 = 0 then 0xFFFFFFFF else q.u 8 4) (BitVec.ofNat 64 (q.u 12 8)) →
        exec (.keyDerive q) s = .next (keyDeriveCmd.answer q (installKey (q.u 0 1) k (deviceOp s)) (.ok []))))
    ∧ (admits keySlotReadCmd q s = true → exec (.keySlotRead q) s = .next (keySlotReadCmd.answer q s (.ok (((List.range (q.u 1 1)).map fun i =>
      let n := q.u 0 1 + i
      let k := s.slot n
      if k.state = .empty then u8 n ++ rsv 31
      else u8 n ++ u8 k.state.code ++ u16 k.cur.policy.toNat ++ u32 k.cur.masters.toNat ++ u32 k.cur.uses ++ u16 k.inUse ++ u8 k.cur.root
        ++ u8 k.cur.labelLen ++ leBytes 8 k.cur.expiry.toNat ++ u32 k.cur.labelCrc ++ rsv 4).flatten))))
    ∧ (admits cipherRunCmd q s = true → ∀ r, r = reqOf q.payload 0x14 (some (q.origin 0x0C20)) 0 s.now →
      ∃ n, placeReq s r = .inl n ∧ exec (.cipherRun q) s = .next (cipherRunCmd.answer q (acceptOn n r s) ⟨stAccepted, []⟩))
    ∧ (admits (keyEraseCmd failSeals) q s = true → ∀ n, n = q.u 0 1 →
      (q.u 1 1 = 1 → (s.slot n).state ≠ .empty → exec (.keyErase q) s = .next ((keyEraseCmd failSeals).answer q (failSeals n (eraseNow n s)) (.ok [])))
      ∧ (q.u 1 1 = 0 → (s.slot n).state = .active →
          exec (.keyErase q) s = .next ((keyEraseCmd failSeals).answer q (drainSlot n (s.modSlot n fun k => { k with state := .erasePending, erase := true })) (.ok [])))
      ∧ ((s.slot n).state = .empty ∨ (q.u 1 1 = 0 ∧ (s.slot n).state = .erasePending) → exec (.keyErase q) s = .next ((keyEraseCmd failSeals).answer q s (.ok [])))))
  ∧ (∀ (n lease : Nat) (s : State),
    (s.cipherOn = false → exec (.cuLockAcquire n lease) s = .next s ∧ exec (.cuLockRelease n lease) s = .next s ∧ exec (.leaseExpiry n) s = .next s
      ∧ exec (.cuEvtClear) s = .next s ∧ exec (.keyExpired n) s = .next s ∧ exec (.slotDrained n) s = .next s ∧ exec (.trngHealthFail) s = .next s
      ∧ exec (.trngHealthPass) s = .next s ∧ exec (.cipherOpStart n) s = .next s)
    ∧ (s.cipherOn = true →
      exec .cuEvtClear s = .next { s with cipher := { s.cipher with evtDone := false } }
      ∧ exec .trngHealthPass s = .next { s with cipher := { s.cipher with trngFail := none } }
      ∧ (s.cipher.trngFail = none → exec .trngHealthFail s = .next { s with cipher := { s.cipher with trngFail := some s.now } })
      ∧ (∀ t, s.cipher.trngFail = some t → exec .trngHealthFail s = .next s)
      ∧ (∀ u, n < 7 → u = (s.modUnit n fun u => { u with lease := lease % 256 }) →
          exec (.cuLockAcquire n lease) s = .next (if u.holder n = 0xFF then takeLease u n 7 else u)
          ∧ exec (.cuLockRelease n lease) s = .next (if u.holder n = 7 then settleRelease n (u.modUnit n fun u => { u with releasing := true }) else u))
      ∧ (7 ≤ n → exec (.cuLockAcquire n lease) s = .next s ∧ exec (.cuLockRelease n lease) s = .next s)
      ∧ (¬(n < 7 ∧ leaseOver s (s.unit n) = true) → exec (.leaseExpiry n) s = .next s)
      ∧ (n < 7 → leaseOver s (s.unit n) = true → exec (.leaseExpiry n) s = .next (s.modUnit n fun u => { u with holder := 0xFF }))
      ∧ (7 ≤ n → exec (.cipherOpStart n) s = .next s)
      ∧ (n < 7 → exec (.cipherOpStart n) s = .next (s.modUnit n fun u => match u.running, u.queue with
          | none, r :: rs => if u.disabled then u else { u with running := some r, queue := rs }
          | _, _ => u))
      ∧ exec (.slotDrained n) s = .next (drainSlot n s) ∧ exec (.keyExpired n) s = .next (expireSlot n s))
    ∧ ((s.slot n).inUse ≠ 0 ∨ (s.slot n).state = .active ∨ (s.slot n).state = .empty → drainSlot n s = s)
    ∧ ((s.slot n).inUse = 0 → (s.slot n).state = .erasePending → drainSlot n s = if (s.slot n).erase then (s.modSlot n fun _ => KeySlot.reset).keyEvent n 3 none else s.modSlot n fun _ => KeySlot.reset)
    ∧ (∀ k, (s.slot n).inUse = 0 → (s.slot n).state = .rewritePending → (s.slot n).shadow = some k →
        drainSlot n s = expireSlot n ((s.modSlot n fun v => { v with state := .active, cur := v.shadow.getD SlotKey.reset, shadow := none }).keyEvent n 2 none))
    ∧ (¬((s.slot n).state = .active ∧ (s.slot n).cur.expired s.time.dt = true) → expireSlot n s = s)
    ∧ ((s.slot n).state = .active → (s.slot n).cur.expired s.time.dt = true → (s.slot n).inUse = 0 → expireSlot n s = (s.modSlot n fun _ => KeySlot.reset).keyEvent n 4 none)
    ∧ ((s.slot n).state = .active → (s.slot n).cur.expired s.time.dt = true → (s.slot n).inUse ≠ 0 →
        expireSlot n s = (s.modSlot n fun k => { k with state := .erasePending }).keyEvent n 4 none)
    ∧ (∀ k, (s.slot n).state ≠ .active ∨ (s.slot n).inUse = 0 → installKey n k s = (s.modSlot n fun _ => ⟨.active, k, none, 0, false⟩).keyEvent n 1 none)
    ∧ (∀ k, (s.slot n).state = .active → (s.slot n).inUse ≠ 0 →
        installKey n k s = (s.modSlot n fun v => { v with state := .rewritePending, shadow := some k }).keyEvent n 1 none))
  ∧ (∀ (n : Nat) (how : CipherEnd) (s : State),
    (s.cipherOn = false ∨ (s.unit n).running = none → exec (.cipherOpComplete n how) s = .next s)
    ∧ (∀ r, s.cipherOn = true → (s.unit n).running = some r → how.mismatches = [] →
      (∀ b u, how.failed = some b → u = (s.modUnit n fun u => { u with mismatches := s.now :: u.mismatches }).cuFault n 1 b →
        exec (.cipherOpComplete n how) s = .next (if 3 ≤ recentMismatches u n then failOp n r stFault how.progress (disableUnit n u) else failOp n r stFault how.progress u))
      ∧ (how.failed = none → recentMismatches s n < 3 →
        (∀ st, ¬(r.length ≤ how.progress ∧ r.length ≠ 0) → r.abort = some st → exec (.cipherOpComplete n how) s = .next (failOp n r st how.progress s))
        ∧ (∀ u bad, ((r.length ≤ how.progress ∧ r.length ≠ 0) ∨ r.abort = none) → (u, bad) = (if r.length = 0 then (s, none) else s.eccRead r.master r.src r.length) →
          (∀ a, (runtimeBad u r).or bad = some a → exec (.cipherOpComplete n how) s = .next (failOp n r stFault how.progress (u.cuFault n 3 a)))
          ∧ ((runtimeBad u r).or bad = none → ∀ o v w, o = compute (r.key.map (·.toNat)) (memNat u r.src r.length) (r.iv.map (·.toNat))
              (if r.aead then memNat u r.aad r.aadLen else []) (if r.tagged then memNat u r.tag r.tagLen else []) r →
            v = o.writes.foldl (fun s w => putOut ioWrite w s) u → w = freeUnit n r (if o.status = stTagFail ∧ r.single = true then scrub r r.length v else v) →
            exec (.cipherOpComplete n how) s = .next (leaveSlot r (reportReq n r o.status o.outLen (if o.badPad then 1 else 0) o.blocks o.ivOut w))))))
    ∧ (∀ progress, ∀ r t, s.cipher.trngFail = some t → (s.unit n).running = some r →
      (s.cipherOn = true → s.passedMs (max t r.accepted) 10 = true →
        exec (.trngStallTimeout n progress) s = .next (failOp n r stFault progress (s.cuFault n 4 (progress / 16))))
      ∧ (s.cipherOn = false ∨ s.passedMs (max t r.accepted) 10 = false → exec (.trngStallTimeout n progress) s = .next s))
    ∧ (∀ progress, s.cipher.trngFail = none ∨ (s.unit n).running = none → exec (.trngStallTimeout n progress) s = .next s))

/-- Group 0x0C, sealing. -/
def Obligations.SealsAndTheirCounter : Prop :=
  (∀ (q : Qcp) (s : State),
    (admits sealCfgCmd q s = true → ∀ c u, c = sealCfgOf q s.sealing.cfg →
      u = (s.modSeal fun v => { v with cfg := c, count := if c.enable && !s.sealing.cfg.enable then 0 else v.count }) →
      (c.enable = false ∨ sealKeyHeld c u = true → exec (.sealCfg q) s = .next (sealCfgCmd.answer q u (.ok [])))
      ∧ (∀ t, c.enable = true → sealKeyHeld c u = false → s.cipher.trngFail = some t →
          exec (.sealCfg q) s = .next (sealCfgCmd.answer q (u.cuFault (u.deviceUnit.getD 0xFF) 4 0) ⟨stFault, []⟩))
      ∧ (c.enable = true → sealKeyHeld c u = false → s.cipher.trngFail = none → exec (.sealCfg q) s = .next (sealCfgCmd.answer q (deriveSeal c u) (.ok []))))
    ∧ (admits sealNowCmd q s = true → ∃ r, s.nav.record (q.u 0 1) = some r ∧ ∀ v ctr, (v, ctr) = assignSeal r false (completeSeals s) →
      (v.cipher.trngFail = none → ∀ w, w = completeSeal false v →
          exec (.sealNow q) s = .next (sealNowCmd.answer q w (.ok (sealBody r false ctr ++ sealTag w (sealBody r false ctr)))))
      ∧ (∀ t, v.cipher.trngFail = some t →
          exec (.sealNow q) s = .next (sealNowCmd.answer q (completeSeal true (v.cuFault (v.deviceUnit.getD 0xFF) 4 0)) ⟨stFault, []⟩)))
    ∧ (admits sealReadCmd q s = true → exec (.sealRead q) s = .next (sealReadCmd.answer q s
        (.ok ((((s.sealing.log.filter fun x => decide (q.u 0 8 ≤ x.1)).take (q.u 8 1)).map (·.2)).flatten))))
    ∧ (admits sealVerifyCmd q s = true →
      (∀ t, s.cipher.trngFail = some t → exec (.sealVerify q) s = .next (sealVerifyCmd.answer q (s.cuFault (s.deviceUnit.getD 0xFF) 4 0) ⟨stFault, []⟩))
      ∧ (s.cipher.trngFail = none → ∀ u, u = deviceOp s →
        (sealTag u (q.payload.take 48) ≠ q.payload.drop 48 → exec (.sealVerify q) s = .next (sealVerifyCmd.answer q u ⟨stTagFail, []⟩))
        ∧ (sealTag u (q.payload.take 48) = q.payload.drop 48 → exec (.sealVerify q) s = .next (sealVerifyCmd.answer q u
            (.ok (ub (q.u 24 4 == s.nv.epoch.toNat) ++ ub (u.sealing.any && decide (q.u 16 8 ≤ u.sealing.last)) ++ rsv 2)))))))
  ∧ (∀ (r : NavRec) (b : Bool) (s : State), s.sealing.next < 0xFFFFFFFFFFFFFFFF → s.nv.ceil ≤ 0xFFFFFFFFFFFFFFFF → ∀ t v, (t, v) = assignSeal r b s →
    v = s.sealing.next ∧ t.sealing.next = v + 1 ∧ v < t.nv.ceil ∧ s.nv.ceil ≤ t.nv.ceil ∧ t.sealing.jobs = s.sealing.jobs ++ [⟨v, sealBody r b v⟩])
  ∧ (∀ (r : NavRec) (b : Bool) (n : Nat), (sealBody r b n).length = 48)
  ∧ (∀ (f : Bool) (s : State),
    (s.cipherOn = false ∨ s.sealing.jobs = [] → exec (.sealComplete f) s = .next s)
    ∧ (∀ j js u, s.cipherOn = true → s.sealing.jobs = j :: js → u = (s.modSeal fun k => { k with jobs := js }) →
      (f = true ∨ sealSlotActive u = false → exec (.sealComplete f) s = .next (u.keyEvent u.sealing.cfg.slot 7 (some (j.ctr % 2 ^ 32))))
      ∧ (f = false → sealSlotActive u = true → ∀ x, x = j.body ++ sealTag u j.body →
          exec (.sealComplete f) s = .next (((deviceOp u).modSeal fun k => { k with log := pushCap 256 k.log (j.ctr, x) }).notify 0x8C10 x))))
  ∧ (∀ (l : List (Nat × List Byte)) (x : Nat × List Byte), l.length ≤ 256 → (pushCap 256 l x).length ≤ 256 ∧ (pushCap 256 l x).getLast? = some x)

/-- UARTs and card mode. -/
def Obligations.UartsAndCards : Prop :=
  (∀ (q : Qcp) (s : State) (n : Nat), n = q.u 0 1 →
    (admits uartCfgCmd q s = true → ∀ (f : UartFraming) (u : State), f = ⟨q.u 2 1, q.u 4 4⟩ →
      (q.transport = n + 2 → u = (s.modUart n fun u => { u with owner := q.u 1 1, tx := u.tx.commit f, rx := u.rx.commit f, afterReply := true })) →
      (q.transport ≠ n + 2 → u = (s.modUart n fun u =>
        { u with owner := q.u 1 1, tx := if u.shift.isNone then (u.tx.commit f).latch else u.tx.commit f, rx := u.rx.commit f })) →
      (q.u 1 1 ≠ 0 → exec (.uartCfg q) s = .next (uartCfgCmd.answer q u (.ok [])))
      ∧ (q.u 1 1 = 0 → exec (.uartCfg q) s = .next (uartCfgCmd.answer q { u with nv := { u.nv with uarts := modAt u.nv.uarts n fun _ => (f.frame, f.div) } } (.ok []))))
    ∧ (admits periphStatusCmd q s = true → exec (.periphStatus q) s = .next (periphStatusCmd.answer q s
        (.ok ((s.periph.uarts.map fun u => u16 u.errors).flatten ++ (s.periph.cans.map CanPort.bytes).flatten ++ (s.periph.wheels.map fun w => u32 w.count).flatten
          ++ u32 s.periph.wtFast ++ u32 s.periph.i2cNack ++ u32 s.periph.imuTimeout))))
    ∧ (admits cardCfgCmd q s = true → exec (.cardCfg q) s = .next (cardCfgCmd.answer q (s.modUart n fun u => u.modCard fun k =>
        { k with enable := q.u 1 1 == 1, clkdiv := q.u 2 2, protocol := q.u 4 1, cfgConv := q.u 5 1, pps := q.u 6 1 == 1 }.setCh fun h => { h with guard := q.u 7 1 }) (.ok [])))
    ∧ (∀ atr, admits (cardResetCmd atr) q s = true → ∀ u, u = (s.modUart n fun u => u.modCard fun k =>
        { k with rst := true, clken := true, active := false }.setCh fun h => { h with card := true }) →
      (q.u 1 1 = 2 → exec (.cardReset q atr) s = .next ((cardResetCmd atr).answer q (deactivate n s) (.ok (rsv 4))))
      ∧ (q.u 1 1 ≠ 2 → atr = none → exec (.cardReset q atr) s = .next ((cardResetCmd atr).answer q (deactivate n u) ⟨stTimeout, []⟩))
      ∧ (∀ a r v, q.u 1 1 ≠ 2 → atr = some a → r = parseAtr (u.uart n).card a →
          v = (u.modUart n fun u => u.modCard fun k => { k with active := true, running := r.protocol }.setCh fun h =>
            { h with t1 := r.protocol == 1, conv := r.inverse, etu := r.etu, guard := (r.guard).getD h.guard }).cardEvent n 1 →
          exec (.cardReset q atr) s = .next ((cardResetCmd atr).answer q (if r.pps then v.cardEvent n 2 else v)
            (.ok (u8 (if r.inverse then 2 else 1) ++ u8 r.protocol ++ u8 a.bytes.length ++ u8 (boolBits [r.pps, r.tck]) ++ (if r.inverse then 0x3F else 0x3B) :: a.bytes.drop 1)))))
    ∧ (admits cardApduCmd q s = true →
      exec (.cardApdu q) s = .next (cardApduCmd.answer q (s.modUart n fun u => u.modCard fun k => { k with apdu := some (q.origin 0x0D12) }) ⟨stAccepted, []⟩)))
  ∧ (∀ (n : Nat) (w : Word) (s : State) (u : Uart), u = s.uart n →
    (s.ucUart n = false → exec (.uaTxWrite n w) s = .next s ∧ exec (.uaRxRead n) s = .next s)
    ∧ (s.ucUart n = true →
      exec (.uaTxWrite n w) s = .next (s.modUart n fun u => u.putTx (w.setWidth 8))
      ∧ exec (.uaRxRead n) s = .next (s.modUart n fun u => { u with rxHold := none }))
    ∧ (∀ (x : Uart) (c : Byte),
      (x.hold.isSome = true → x.putTx c = { x with status := x.status ||| 0x1000#32 })
      ∧ (x.hold = none → x.txen = false ∨ x.shift.isSome = true → x.putTx c = { x with hold := some c })
      ∧ (x.hold = none → x.txen = true → x.shift = none → (x.putTx c).shift = some c ∧ (x.putTx c).hold = none ∧ (x.putTx c).status = x.status)))
  ∧ (∀ (n : Nat) (l : RxLine) (s v : State), v = (if l.held || (s.uart n).afterReply then s else s.modUart n Uart.latchRx) →
    (¬(s.periphOn = true ∧ n ≤ 5) → exec (.uartRxChar n l) s = .next s)
    ∧ (∀ w, s.periphOn = true → n ≤ 5 →
      ((v.uart n).owner = 0 → v.transportUp (n + 2) = true →
        w = { uartErrors n (framedChar (v.uart n).rx.inForce.frame l) false v with
          transports := modAt v.transports (n + 2) fun t => { t with rx := delimit t.rx (framedChar (v.uart n).rx.inForce.frame l).data } }) →
      ((v.uart n).owner = 0 → v.transportUp (n + 2) = false → w = v) →
      ((v.uart n).owner = 1 → (v.uart n).rxen = false → w = v) →
      ((v.uart n).owner = 1 → (v.uart n).rxen = true → (v.uart n).ch.card = false → w = deliver n (framedChar (v.uart n).rx.inForce.frame l) v) →
      ((v.uart n).owner = 1 → (v.uart n).rxen = true → (v.uart n).ch.card = true → w = cardReceive n l v) →
      (2 ≤ (v.uart n).owner → w = uartErrors n (cardChar (v.uart n).ch.conv l) false v) →
      exec (.uartRxChar n l) s = .next (if (w.uart n).afterReply then w else w.modUart n Uart.latchRx))
    ∧ (∀ c, (s.uart n).rxHold.isSome = true → deliver n c s = uartErrors n { c with ferr := false, perr := false, brk := false } true s)
    ∧ (∀ c, (s.uart n).rxHold = none → deliver n c s = (uartErrors n c false s).modUart n fun u => { u with rxHold := some c })
    ∧ framedChar 0 l = ⟨l.data, l.data == 0#8 && !l.stop, !l.stop, false⟩
    ∧ (framedChar 16 l).data = revByte l.data ∧ revByte (revByte l.data) = l.data)
  ∧ (∀ (n : Nat) (low : Bool) (s : State) (u : Uart), u = s.uart n →
    (¬(s.periphOn = true ∧ n ≤ 5) ∨ u.shift = none → exec (.uartCharSent n low) s = .next s)
    ∧ (s.periphOn = true → n ≤ 5 → u.shift.isSome = true → u.ch.card = true → u.ch.t1 = false → low = true → u.card.txReps < min 4 u.ch.repeats →
        exec (.uartCharSent n low) s = .next (s.modUart n fun u => u.modCard fun k => { k with txReps := k.txReps + 1 }))
    ∧ (s.periphOn = true → n ≤ 5 → u.shift.isSome = true → u.ch.card = false →
        exec (.uartCharSent n low) s = .next (feedUart n (s.modUart n fun u =>
          let u := { u with shift := none, status := u.status ||| 0#32 }.modCard fun k => { k with txReps := 0 }
          if u.owner == 0 || u.txen then u.load else u))))
  ∧ (∀ (n : Nat) (how : CardEnd) (s : State),
    (s.periphOn = false ∨ (s.uart n).card.apdu = none → exec (.cardApduComplete n how) s = .next s)
    ∧ (∀ o u, s.periphOn = true → (s.uart n).card.apdu = some o → u = (s.modUart n fun u => u.modCard fun k => { k with apdu := none }) →
      (∀ bs, how = .response bs → exec (.cardApduComplete n how) s = .next (u.complete o stOk bs))
      ∧ (how = .repeatFail → exec (.cardApduComplete n how) s = .next ((u.cardEvent n 3).complete o stTimeout []))
      ∧ (how = .waitTimeout → exec (.cardApduComplete n how) s = .next ((u.cardEvent n 4).complete o stTimeout []))
      ∧ (how = .resynch → exec (.cardApduComplete n how) s = .next ((u.cardEvent n 5).complete o stTimeout [])))
    ∧ (s.periphOn = true → n = 4 ∨ n = 5 → (s.uart n).ch.card = true → (s.uart n).card.wt ≠ 0 →
        exec (.cardWaitTimeout n) s = .next (s.modUart n fun u => { u with status := u.status ||| 0x10000#32 }))
    ∧ (¬(s.periphOn = true ∧ (n = 4 ∨ n = 5) ∧ (s.uart n).ch.card = true ∧ (s.uart n).card.wt ≠ 0) → exec (.cardWaitTimeout n) s = .next s))

/-- Groups 0x0D20 to 0x0D62 and the events of their blocks. -/
def Obligations.BusesWheelsAndPins : Prop :=
  (∀ (q : Qcp) (s : State),
    (admits imuCfgCmd q s = true → exec (.imuCfg q) s = .next (imuCfgCmd.answer q { s with periph := { s.periph with imuCfg := some (imuCfgOf q) } } (.ok [])))
    ∧ (∀ bs, admits (imuXferCmd (some bs)) q s = true → exec (.imuXfer q (some bs)) s = .next ((imuXferCmd (some bs)).answer q s (.ok ((bs ++ rsv 64).take (q.u 0 2)))))
    ∧ (admits (imuXferCmd none) q s = true → exec (.imuXfer q none) s = .next ((imuXferCmd none).answer q
        { s with periph := { s.periph with imuTimeout := sat32 (s.periph.imuTimeout + 1) } } ⟨stTimeout, []⟩))
    ∧ (∀ how, admits (i2cXferCmd how) q s = true →
      (∀ bs, how = .read bs → exec (.i2cXfer q how) s = .next ((i2cXferCmd how).answer q s (.ok ((bs ++ rsv 256).take (q.u 4 2)))))
      ∧ (how = .nack → exec (.i2cXfer q how) s = .next ((i2cXferCmd how).answer q
          (({ s with periph := { s.periph with i2cNack := sat32 (s.periph.i2cNack + 1) } } : State).periphCheck 24 8 1) ⟨stTimeout, []⟩))
      ∧ (how = .stretch → exec (.i2cXfer q how) s = .next ((i2cXferCmd how).answer q (s.periphCheck 24 9 1) ⟨stTimeout, []⟩))
      ∧ (how = .stuck → exec (.i2cXfer q how) s = .next ((i2cXferCmd how).answer q (s.periphCheck 24 10 1) ⟨stTimeout, []⟩)))
    ∧ (admits canCfgCmd q s = true → exec (.canCfg q) s = .next (canCfgCmd.answer q (s.modCan (q.u 0 1) fun c => { c with cfg := canCfgOf q }) (.ok [])))
    ∧ (admits canMapCmd q s = true →
      exec (.canMap q) s = .next (canMapCmd.answer q { s with periph := { s.periph with canMap := canMapAfter q s.periph.canMap } } (.ok [])))
    ∧ (∀ how u, admits (canTxCmd how) q s = true → u = canSettle (q.u 0 1) (s.modCan (q.u 0 1) fun c =>
        { c with tec := c.tec + 8 * how.errors - (if how.acked then 1 else 0), err := sat32 (c.err + how.errors) }) →
      exec (.canTx q how) s = .next ((canTxCmd how).answer q u (if how.acked then .ok [] else ⟨stTimeout, []⟩)))
    ∧ (admits wtCfgCmd q s = true → exec (.wtCfg q) s = .next (wtCfgCmd.answer q { s with periph := { s.periph with wtCfg := wtCfgOf q } } (.ok [])))
    ∧ (admits gpioCfgCmd q s = true → exec (.gpioCfg q) s = .next (gpioCfgCmd.answer q (s.modGpio (q.u 0 1) fun g =>
        { g with owner := q.u 1 1, dir := q.u 2 1, pull := q.u 3 1, edge := q.u 4 1, notify := q.u 5 1 == 1, minWidth := q.u 6 2 }) (.ok [])))
    ∧ (admits gpioWriteCmd q s = true → exec (.gpioWrite q) s = .next (gpioWriteCmd.answer q
        ((List.range 8).foldl (fun s n => if bitOf (q.u 0 1) n then s.modGpio n fun g => { g with out := bitOf (q.u 1 1) n } else s) s) (.ok [])))
    ∧ (admits gpioReadCmd q s = true → exec (.gpioRead q) s = .next (gpioReadCmd.answer q s
        (.ok (u8 (gpioBits s (·.level)) ++ u8 (gpioBits s (·.out)) ++ u8 (gpioBits s fun g => g.owner == 1) ++ rsv 1)))))
  ∧ (∀ (f : CanFrame) (b : Bool) (s : State) (n : Nat), n = f.port →
    (¬(s.periphOn = true ∧ n ≤ 1 ∧ (s.can n).cfg.enable = true ∧ (s.can n).state ≠ 2) →
      exec (.canFrameRx f b) s = .next s ∧ ∀ t h, exec (.canBusError n t h) s = .next s)
    ∧ (s.periphOn = true → n ≤ 1 → (s.can n).cfg.enable = true → (s.can n).state ≠ 2 →
      (∀ v u, s.openVal 91 = (v, u) → ∀ w x, w = canSettle n (v.modCan n fun c => { c with recv := min 255 (c.recv + f.errors), err := sat32 (c.err + f.errors) }) →
        x = (List.range 64).foldl (fun s i => canSignal f i s) (canSettle n (w.modCan n fun c => { c with recv := recvAfter u c.recv, rxOk := sat32 (c.rxOk + 1) })) →
        exec (.canFrameRx f b) s = .next (if (x.can n).cfg.rxNotify && canPasses (x.can n).cfg f then x.notify 0x8D40 (canRxBytes f b x) else x))
      ∧ (∀ h, exec (.canBusError n true h) s = .next (canSettle n (s.modCan n fun c => { c with tec := c.tec + 8, err := sat32 (c.err + 1) })))
      ∧ (∀ h, exec (.canBusError n false h) s = .next (canSettle n (s.modCan n fun c => { c with recv := min 255 (c.recv + (if h then 8 else 1)), err := sat32 (c.err + 1) }))))
    ∧ (s.periphOn = true → (s.can n).state = 2 → exec (.busOffRecovery n) s = .next (s.modCan n fun c => { c with state := 0, tec := 0, recv := 0 }))
    ∧ (s.periphOn = false ∨ (s.can n).state ≠ 2 → exec (.busOffRecovery n) s = .next s)
    ∧ (n < s.periph.cans.length → (∃ st, ((canSettle n s).can n) = { s.can n with state := st }
        ∧ ((s.can n).state = 2 → st = 2) ∧ ((s.can n).state ≠ 2 → (s.can n).tec ≤ 127 → (s.can n).recv ≤ 127 → st = 0)
        ∧ (255 < (s.can n).tec → st = 2)))
    ∧ (∀ m st len, (signalBits m st len).length = len)
    ∧ (∀ o k, 127 < k → 119 ≤ recvAfter o k ∧ recvAfter o k ≤ 127) ∧ (∀ o k, k ≤ 127 → recvAfter o k = k - 1))
  ∧ wheelGap = 20 * 64000 ∧ (∀ (w : WheelIn) (pin : Nat), w.fast pin = true ↔ ∃ t, w.last = some t ∧ pin < t + wheelGap)
  ∧ (∀ (n : Nat) (r : Bool) (pin : Nat) (s : State),
    (¬(s.periphOn = true ∧ n ≤ 3 ∧ bitOf s.periph.wtCfg.enable n = true) → exec (.wheelTick n r pin) s = .next s)
    ∧ (s.periphOn = true → n ≤ 3 → bitOf s.periph.wtCfg.enable n = true → ∀ mode u, mode = (s.periph.wtCfg.mode[n]?).getD 0 → u = (s.modWheel n fun w => { w with level := r }) →
      (mode = 2 ∨ (mode = 0 ∧ r = false) → exec (.wheelTick n r pin) s = .next u)
      ∧ (¬(mode = 2 ∨ (mode = 0 ∧ r = false)) → (s.wheel n).fast pin = false →
          exec (.wheelTick n r pin) s = .next (wheelInput n pin (wheelDir u n) (u.modWheel n fun w => { w with last := some pin, count := (w.count + 1) % 2 ^ 32 })))
      ∧ (∀ v, ¬(mode = 2 ∨ (mode = 0 ∧ r = false)) → (s.wheel n).fast pin = true →
          v = { u with periph := { u.periph with wtFast := sat32 (u.periph.wtFast + 1) } } →
          ((s.wheel n).fastSecond = some v.second → exec (.wheelTick n r pin) s = .next (v.modWheel n fun w => { w with fastSince := w.fastSince + 1 }))
          ∧ ((s.wheel n).fastSecond ≠ some v.second →
              exec (.wheelTick n r pin) s = .next ((v.modWheel n fun w => { w with fastSecond := some v.second, fastSince := 0 }).periphCheck (16 + n) 7 ((s.wheel n).fastSince + 1))))))
  ∧ (∀ (n : Nat) (r b : Bool) (s : State) (g : GpioPin) (u : State), g = s.gpio n → u = (s.modGpio n fun g => { g with level := r }) →
    (¬(s.periphOn = true ∧ n ≤ 7) → exec (.gpioEdge n r b) s = .next s)
    ∧ (s.periphOn = true → n ≤ 7 →
      (bitOf g.edge (if r then 0 else 1) = false → exec (.gpioEdge n r b) s = .next u)
      ∧ (∀ v, bitOf g.edge (if r then 0 else 1) = true → v = (u.modGpio n fun g => { g with evt := true }) →
        (g.owner ≠ 0 ∨ g.notify = false → exec (.gpioEdge n r b) s = .next v)
        ∧ (g.owner = 0 → g.notify = true → exec (.gpioEdge n r b) s = .next ((v.modGpio n fun g => { g with seq := (g.seq + 1) % 2 ^ 32 }).notifyF 0x8D60 b
            (v.dtBytes ++ u8 n ++ ub r ++ u8 (if b then 1 else 0) ++ rsv 1 ++ u32 g.seq))))))
  ∧ (∀ (w : Word) (s : State),
    (s.periphOn = false → exec (.gpSet w) s = .next s ∧ exec (.gpClr w) s = .next s)
    ∧ (s.periphOn = true → s.periph.gpio.length = 8 →
      ∃ t u, exec (.gpSet w) s = .next t ∧ exec (.gpClr w) s = .next u
        ∧ t = { s with periph := { s.periph with gpio := t.periph.gpio } } ∧ u = { s with periph := { s.periph with gpio := u.periph.gpio } }
        ∧ ∀ n, n < 8 →
          (t.gpio n) = (if w.getLsbD n && (s.gpio n).owner == 1 then { s.gpio n with out := true } else s.gpio n)
          ∧ (u.gpio n) = (if w.getLsbD n && (s.gpio n).owner == 1 then { s.gpio n with out := false } else s.gpio n)))

/-- Group 0x0E and the customer core's own blocks. -/
def Obligations.CustomerCoreCommandsAndBlocks : Prop :=
  (∀ (q : Qcp) (s : State),
    (admits ucCfgCmd q s = true → exec (.ucCfg q) s = .next (ucCfgCmd.answer q { s with uc := { s.uc with
        wdog := q.u 0 2, svcMask := BitVec.ofNat 16 (q.u 2 2), bankLimit := q.u 4 1, wdogLeft := if s.uc.wdog = q.u 0 2 then s.uc.wdogLeft else q.u 0 2 * 26000 } } (.ok [])))
    ∧ (admits ucStatusCmd q s = true → exec (.ucStatus q) s = .next (ucStatusCmd.answer q s
        (.ok (u8 s.uc.state.code ++ rsv 3 ++ u32 (s.core 7).pc.toNat ++ u32 s.uc.entry.toNat ++ u8 s.ucBanks ++ u8 (ucChannels s).length ++ rsv 2
          ++ u32 s.uc.svcCount ++ u32 ((s.uc.wdogLeft + 25999) / 26000) ++ u32 s.uc.swaps ++ u32 s.uc.freezes ++ u32 s.uc.evcDropped ++ rsv 12))))
    ∧ (admits ucLoadCmd q s = true → exec (.ucLoad q) s = .next (ucLoadCmd.answer q (s.memWrite (q.u 0 4) (q.payload.drop 8)) (.ok [])))
    ∧ (admits ucStartCmd q s = true → ∀ entry c u, entry = BitVec.ofNat 32 (q.u 0 4) → c = startCore 7 entry 0 s →
        u = { c with uc := { c.uc with state := .running, entry := entry, wdogLeft := c.uc.wdog * 26000 } } →
        s.uc.state = .stopped ∧ exec (.ucStart q) s = .next (ucStartCmd.answer q (u.ucEvent 1 none) (.ok [])))
    ∧ (admits ucStopCmd q s = true → (s.uc.state = .running ∨ s.uc.state = .suspending) ∧ exec (.ucStop q) s = .next (ucStopCmd.answer q ((stopUc s).ucEvent 2 none) (.ok [])))
    ∧ (admits ucSwapCmd q s = true → ∀ w, w = UcSwap.mk (BitVec.ofNat 32 (q.u 0 4)) (s.now + q.u 4 2 * msUnits) s.now (q.origin 0x0E13) none 0 →
        s.uc.state = .running ∧ exec (.ucSwap q) s = .next (ucSwapCmd.answer q { s with uc := { s.uc with state := .suspending, swap := some w } } ⟨stAccepted, []⟩)))
  ∧ (∀ (n v : Nat) (s : State),
    (¬(s.live = true ∧ s.on 10 = true) → exec (.ucTimerExpiry n) s = .next s ∧ exec (.ucTmrCtrlWrite n v) s = .next s ∧ exec (.evcPop v) s = .next s
      ∧ exec (.s15Txdata v) s = .next s ∧ exec .s15Rxdata s = .next s ∧ exec .ucWatchdog s = .next s)
    ∧ (s.live = true → s.on 10 = true →
      exec (.ucTimerExpiry n) s = .next (s.modTimer n fun t => if t.en && !t.armed && decide (t.count ≤ 1) then t.expire else t)
      ∧ (2 ≤ n → exec (.ucTmrCtrlWrite n v) s = .next s)
      ∧ (n ≤ 1 → exec (.ucTmrCtrlWrite n v) s = .next (s.modTimer n fun t =>
          { t with beatPend := t.beatPend && !(n == 0 && bitOf v 4), pend := t.pend && !bitOf v 3, beat := bitOf v 2, periodic := bitOf v 1, en := bitOf v 0
                   armed := if bitOf v 0 && !t.en then bitOf v 2 else t.armed && bitOf v 0
                   count := if bitOf v 0 && !t.en && !bitOf v 2 then t.load else t.count }))
      ∧ (bitOf v 0 = true → exec (.evcPop v) s = .next { s with uc := { s.uc with evc := s.uc.evc.drop 1 } })
      ∧ (bitOf v 0 = false → exec (.evcPop v) s = .next s)
      ∧ (s.uc.tx.length + 4 ≤ 4096 → exec (.s15Txdata v) s = .next { s with uc := { s.uc with tx := s.uc.tx ++ u32 v } })
      ∧ (4096 < s.uc.tx.length + 4 → exec (.s15Txdata v) s = .next { s with uc := { s.uc with txOvf := true } })
      ∧ exec .s15Rxdata s = .next { s with uc := { s.uc with rx := s.uc.rx.drop 4 } }
      ∧ (s.uc.state = .running → s.uc.wdog ≠ 0 → s.uc.wdogLeft = 0 → exec .ucWatchdog s = .next ((stopUc s).ucEvent 4 none))
      ∧ (s.uc.state ≠ .running ∨ s.uc.wdog = 0 ∨ s.uc.wdogLeft ≠ 0 → exec .ucWatchdog s = .next s))
    ∧ (∀ w, s.uc.swap = some w → s.live = true → s.uc.state = .suspending → w.handed = none → w.graceEnd ≤ s.now → exec .swapForced s = .next (swapProgram 0 true s))
    ∧ (s.live = false ∨ s.uc.swap = none ∨ s.uc.state ≠ .suspending → exec .swapForced s = .next s)
    ∧ (∀ w, s.uc.swap = some w → w.handed ≠ none ∨ s.now < w.graceEnd → exec .swapForced s = .next s)
    ∧ (∀ w word forced u, s.uc.swap = some w → w.handed = some (word, forced) → w.handBeat < s.time.beat → s.live = true → s.time.tick = 0 →
        u = ((s.modCore 7 fun c => { c with mode := .running }).modUc fun u => { u with state := .running, swap := none, swaps := sat32 (u.swaps + 1), wdogLeft := u.wdog * 26000 }) →
        exec .ucSwapResume s = .next ((u.ucEvent 5 none).complete w.origin stOk (ub forced ++ rsv 3 ++ u32 (sat32 ((s.now - w.start) / 64000)))))
    ∧ (∀ w, s.uc.swap = some w → s.live = false ∨ s.time.tick ≠ 0 ∨ w.handed = none ∨ s.time.beat ≤ w.handBeat → exec .ucSwapResume s = .next s)
    ∧ (s.uc.swap = none → exec .ucSwapResume s = .next s))
  ∧ (∀ (t : UcTimer) (a b : Nat),
    UcTimer.ticks (a + b) t = UcTimer.ticks b (UcTimer.ticks a t)
    ∧ (t.en = false ∨ t.armed = true → UcTimer.ticks a t = t)
    ∧ (t.en = true → t.armed = false → 2 ≤ t.count → UcTimer.ticks 1 t = { t with count := t.count - 1 })
    ∧ (t.en = true → t.armed = false → t.count ≤ 1 → 1 ≤ t.load → UcTimer.ticks 1 t = t.expire))

/-- Register ALU instructions (Tables 16.3, 16.4, 16.7): the whole next state, so what is not named in it is unchanged. -/
def Obligations.TorpinAluRegister : Prop :=
  ∀ (x : Fetch) (d : Dec) (s u : State), fetches x d s = true → u = s.fetched x d →
    (d.key = 0x10 → exec (.mov x) s = .next (u.result x d (u.g x.core d.b)))
    ∧ (d.key = 0x11 → exec (.add x) s = .next (u.result x d (u.g x.core d.a + u.g x.core d.b)))
    ∧ (d.key = 0x12 → exec (.sub x) s = .next (u.result x d (u.g x.core d.a - u.g x.core d.b)))
    ∧ (d.key = 0x15 → exec (.and x) s = .next (u.result x d (u.g x.core d.a &&& u.g x.core d.b)))
    ∧ (d.key = 0x16 → exec (.or x) s = .next (u.result x d (u.g x.core d.a ||| u.g x.core d.b)))
    ∧ (d.key = 0x17 → exec (.xor x) s = .next (u.result x d (u.g x.core d.a ^^^ u.g x.core d.b)))
    ∧ (d.key = 0x18 → exec (.shl x) s = .next (u.result x d (u.g x.core d.a <<< ((u.g x.core d.b).toNat % 256))))
    ∧ (d.key = 0x19 → exec (.shr x) s = .next (u.result x d (u.g x.core d.a >>> ((u.g x.core d.b).toNat % 256))))
    ∧ (d.key = 0x1A → exec (.sar x) s = .next (u.result x d ((u.g x.core d.a).sshiftRight ((u.g x.core d.b).toNat % 256))))
    ∧ (d.key = 0x1B → exec (.rol x) s = .next (u.result x d ((u.g x.core d.a).rotateLeft ((u.g x.core d.b).toNat % 256))))
    ∧ (d.key = 0x1C → exec (.ror x) s = .next (u.result x d ((u.g x.core d.a).rotateRight ((u.g x.core d.b).toNat % 256))))
    ∧ (d.key = 0x1D → exec (.mul x) s = .next (u.result x d (u.g x.core d.a * u.g x.core d.b)))
    ∧ (d.key = 0x1E → exec (.mulh x) s = .next (u.result x d (BitVec.ofInt 32 ((u.g x.core d.a).toInt * (u.g x.core d.b).toInt / 4294967296))))
    ∧ (d.key = 0x1F → exec (.mulhu x) s = .next (u.result x d (BitVec.ofNat 32 ((u.g x.core d.a).toNat * (u.g x.core d.b).toNat / 4294967296))))
    ∧ (d.key = 0x28 → exec (.neg x) s = .next (u.result x d (-(u.g x.core d.b))))
    ∧ (d.key = 0x29 → exec (.not x) s = .next (u.result x d (~~~(u.g x.core d.b))))
    ∧ (d.key = 0x2A → exec (.sexb x) s = .next (u.result x d (((u.g x.core d.b).setWidth 8).signExtend 32)))
    ∧ (d.key = 0x2B → exec (.sexh x) s = .next (u.result x d (((u.g x.core d.b).setWidth 16).signExtend 32)))
    ∧ (d.key = 0x2C → exec (.zexb x) s = .next (u.result x d (u.g x.core d.b &&& 0xFF)))
    ∧ (d.key = 0x2D → exec (.zexh x) s = .next (u.result x d (u.g x.core d.b &&& 0xFFFF)))
    ∧ (d.key = 0x2E → exec (.clz x) s = .next (u.result x d (clz (u.g x.core d.b))))
    ∧ (d.key = 0x2F → exec (.popc x) s = .next (u.result x d (BitVec.ofNat 32 ((List.range 32).countP fun i => (u.g x.core d.b).getLsbD i))))
    ∧ (d.key = 0x30 → exec (.slt x) s = .next (u.result x d (if (u.g x.core d.a).toInt < (u.g x.core d.b).toInt then 1 else 0)))
    ∧ (d.key = 0x31 → exec (.sltu x) s = .next (u.result x d (if (u.g x.core d.a).toNat < (u.g x.core d.b).toNat then 1 else 0)))

/-- Immediate ALU instructions (Table 16.4): the whole next state. -/
def Obligations.TorpinAluImmediate : Prop :=
  ∀ (x : Fetch) (d : Dec) (s u : State), fetches x d s = true → u = s.fetched x d →
    (d.key = 0x40 → exec (.movi x) s = .next (u.result x d d.imm))
    ∧ (d.key = 0x41 → exec (.addi x) s = .next (u.result x d (u.g x.core d.a + d.imm)))
    ∧ (d.key = 0x42 → exec (.subi x) s = .next (u.result x d (u.g x.core d.a - d.imm)))
    ∧ (d.key = 0x45 → exec (.andi x) s = .next (u.result x d (u.g x.core d.a &&& d.imm)))
    ∧ (d.key = 0x46 → exec (.ori x) s = .next (u.result x d (u.g x.core d.a ||| d.imm)))
    ∧ (d.key = 0x47 → exec (.xori x) s = .next (u.result x d (u.g x.core d.a ^^^ d.imm)))
    ∧ (d.key = 0x48 → exec (.shli x) s = .next (u.result x d (u.g x.core d.a <<< (d.imm.toNat % 256))))
    ∧ (d.key = 0x49 → exec (.shri x) s = .next (u.result x d (u.g x.core d.a >>> (d.imm.toNat % 256))))
    ∧ (d.key = 0x4A → exec (.sari x) s = .next (u.result x d ((u.g x.core d.a).sshiftRight (d.imm.toNat % 256))))
    ∧ (d.key = 0x4B → exec (.roli x) s = .next (u.result x d ((u.g x.core d.a).rotateLeft (d.imm.toNat % 256))))
    ∧ (d.key = 0x4C → exec (.rori x) s = .next (u.result x d ((u.g x.core d.a).rotateRight (d.imm.toNat % 256))))
    ∧ (d.key = 0x4D → exec (.muli x) s = .next (u.result x d (u.g x.core d.a * d.imm)))

/-- Trapping addition and subtraction, and division (Table 16.7), where the instruction does not raise ARITH. -/
def Obligations.TorpinDivideOverflow : Prop :=
  ∀ (x : Fetch) (d : Dec) (s u : State) (a b : Word), fetches x d s = true → u = s.fetched x d → a = u.g x.core d.a → b = u.g x.core d.b →
    (d.key = 0x13 → -2147483648 ≤ a.toInt + b.toInt → a.toInt + b.toInt ≤ 2147483647 → exec (.addv x) s = .next (u.result x d (a + b)))
    ∧ (d.key = 0x43 → -2147483648 ≤ a.toInt + d.imm.toInt → a.toInt + d.imm.toInt ≤ 2147483647 → exec (.addvi x) s = .next (u.result x d (a + d.imm)))
    ∧ (d.key = 0x14 → -2147483648 ≤ a.toInt - b.toInt → a.toInt - b.toInt ≤ 2147483647 → exec (.subv x) s = .next (u.result x d (a - b)))
    ∧ (d.key = 0x44 → -2147483648 ≤ a.toInt - d.imm.toInt → a.toInt - d.imm.toInt ≤ 2147483647 → exec (.subvi x) s = .next (u.result x d (a - d.imm)))
    ∧ (d.key = 0x20 → b ≠ 0 → exec (.div x) s = .next (u.result x d (BitVec.ofInt 32 (a.toInt.tdiv b.toInt))))
    ∧ (d.key = 0x21 → b ≠ 0 → exec (.divu x) s = .next (u.result x d (BitVec.ofNat 32 (a.toNat / b.toNat))))
    ∧ (d.key = 0x22 → exec (.divz x) s = .next (u.result x d (if b = 0 then 0 else BitVec.ofInt 32 (a.toInt.tdiv b.toInt))))
    ∧ (d.key = 0x23 → exec (.divzu x) s = .next (u.result x d (if b = 0 then 0 else BitVec.ofNat 32 (a.toNat / b.toNat))))
    ∧ (d.key = 0x24 → b ≠ 0 → exec (.rem x) s = .next (u.result x d (BitVec.ofInt 32 (a.toInt.tmod b.toInt))))
    ∧ (d.key = 0x25 → b ≠ 0 → exec (.remu x) s = .next (u.result x d (BitVec.ofNat 32 (a.toNat % b.toNat))))
    ∧ (d.key = 0x26 → exec (.remz x) s = .next (u.result x d (if b = 0 then a else BitVec.ofInt 32 (a.toInt.tmod b.toInt))))
    ∧ (d.key = 0x27 → exec (.remzu x) s = .next (u.result x d (if b = 0 then a else BitVec.ofNat 32 (a.toNat % b.toNat))))

/-- ARITH (Table 16.7): the whole next state is the exception entry. -/
def Obligations.TorpinArithTraps : Prop :=
  ∀ (x : Fetch) (d : Dec) (s u : State) (a b : Word), fetches x d s = true → u = s.fetched x d → a = u.g x.core d.a → b = u.g x.core d.b →
    (d.key = 0x13 → a.toInt + b.toInt < -2147483648 ∨ 2147483647 < a.toInt + b.toInt → exec (.addv x) s = .next (u.trapped x d 3 (u.core x.core).pc 0))
    ∧ (d.key = 0x43 → a.toInt + d.imm.toInt < -2147483648 ∨ 2147483647 < a.toInt + d.imm.toInt → exec (.addvi x) s = .next (u.trapped x d 3 (u.core x.core).pc 0))
    ∧ (d.key = 0x14 → a.toInt - b.toInt < -2147483648 ∨ 2147483647 < a.toInt - b.toInt → exec (.subv x) s = .next (u.trapped x d 3 (u.core x.core).pc 0))
    ∧ (d.key = 0x44 → a.toInt - d.imm.toInt < -2147483648 ∨ 2147483647 < a.toInt - d.imm.toInt → exec (.subvi x) s = .next (u.trapped x d 3 (u.core x.core).pc 0))
    ∧ (d.key = 0x20 → b = 0 → exec (.div x) s = .next (u.trapped x d 3 (u.core x.core).pc 0))
    ∧ (d.key = 0x21 → b = 0 → exec (.divu x) s = .next (u.trapped x d 3 (u.core x.core).pc 0))
    ∧ (d.key = 0x24 → b = 0 → exec (.rem x) s = .next (u.trapped x d 3 (u.core x.core).pc 0))
    ∧ (d.key = 0x25 → b = 0 → exec (.remu x) s = .next (u.trapped x d 3 (u.core x.core).pc 0))

/-- Exception entry: the whole next state. -/
def Obligations.TorpinExceptionEntry : Prop :=
  ∀ (c : Ctx) (cause elen a : Nat) (epc eaddr : Word) (s : State),
    a = ((s.core c.n).rsp - 8).toNat → (stackJudge s c.n a 8 true).1 = .ok →
      takeException c cause epc eaddr elen s
        = (s.memWrite a (leBytes 4 epc.toNat ++ leBytes 4 (if (s.core c.n).ie then 1 else 0))).modCore c.n fun k =>
            { k with rsp := BitVec.ofNat 32 a, ecause := BitVec.ofNat 8 cause, eaddr := eaddr, elen := elen % 16, ie := false, ieNext := false
                     mode := .running, pc := k.evb + BitVec.ofNat 32 (32 * cause) }

/-- Branches (Table 16.6): the whole next state. -/
def Obligations.TorpinBranches : Prop :=
  ∀ (x : Fetch) (d : Dec) (s u : State), fetches x d s = true → u = s.fetched x d →
    (d.key = 0x68 → exec (.beq x) s = .next (u.goto x.core (if (u.g x.core d.a) = (u.g x.core d.b) then u.after x.core d + d.off else u.after x.core d)))
    ∧ (d.key = 0x69 → exec (.bne x) s = .next (u.goto x.core (if (u.g x.core d.a) ≠ (u.g x.core d.b) then u.after x.core d + d.off else u.after x.core d)))
    ∧ (d.key = 0x6A → exec (.blt x) s = .next (u.goto x.core (if (u.g x.core d.a).toInt < (u.g x.core d.b).toInt then u.after x.core d + d.off else u.after x.core d)))
    ∧ (d.key = 0x6B → exec (.bge x) s = .next (u.goto x.core (if (u.g x.core d.b).toInt ≤ (u.g x.core d.a).toInt then u.after x.core d + d.off else u.after x.core d)))
    ∧ (d.key = 0x6C → exec (.bltu x) s = .next (u.goto x.core (if (u.g x.core d.a).toNat < (u.g x.core d.b).toNat then u.after x.core d + d.off else u.after x.core d)))
    ∧ (d.key = 0x6D → exec (.bgeu x) s = .next (u.goto x.core (if (u.g x.core d.b).toNat ≤ (u.g x.core d.a).toNat then u.after x.core d + d.off else u.after x.core d)))
    ∧ (d.key = 0x70 → exec (.beqi x) s = .next (u.goto x.core (if (u.g x.core d.a) = d.imm then u.after x.core d + d.off else u.after x.core d)))
    ∧ (d.key = 0x71 → exec (.bnei x) s = .next (u.goto x.core (if (u.g x.core d.a) ≠ d.imm then u.after x.core d + d.off else u.after x.core d)))
    ∧ (d.key = 0x72 → exec (.blti x) s = .next (u.goto x.core (if (u.g x.core d.a).toInt < d.imm.toInt then u.after x.core d + d.off else u.after x.core d)))
    ∧ (d.key = 0x73 → exec (.bgei x) s = .next (u.goto x.core (if d.imm.toInt ≤ (u.g x.core d.a).toInt then u.after x.core d + d.off else u.after x.core d)))
    ∧ (d.key = 0x74 → exec (.bltui x) s = .next (u.goto x.core (if (u.g x.core d.a).toNat < d.imm.toNat then u.after x.core d + d.off else u.after x.core d)))
    ∧ (d.key = 0x75 → exec (.bgeui x) s = .next (u.goto x.core (if d.imm.toNat ≤ (u.g x.core d.a).toNat then u.after x.core d + d.off else u.after x.core d)))
    ∧ (d.key = 0x76 → exec (.bgti x) s = .next (u.goto x.core (if d.imm.toInt < (u.g x.core d.a).toInt then u.after x.core d + d.off else u.after x.core d)))
    ∧ (d.key = 0x77 → exec (.blei x) s = .next (u.goto x.core (if (u.g x.core d.a).toInt ≤ d.imm.toInt then u.after x.core d + d.off else u.after x.core d)))
    ∧ (d.key = 0x78 → exec (.bgtui x) s = .next (u.goto x.core (if d.imm.toNat < (u.g x.core d.a).toNat then u.after x.core d + d.off else u.after x.core d)))
    ∧ (d.key = 0x79 → exec (.bleui x) s = .next (u.goto x.core (if (u.g x.core d.a).toNat ≤ d.imm.toNat then u.after x.core d + d.off else u.after x.core d)))
    ∧ (d.key = 0x7A → exec (.dbnz x) s = .next ((u.setG x.core d.a (u.g x.core d.a - 1)).goto x.core (if u.g x.core d.a - 1 = 0 then u.after x.core d else u.after x.core d + d.off)))
    ∧ (d.key = 0x60 → exec (.jmp x) s = .next (u.goto x.core (u.after x.core d + d.off)))
    ∧ (d.key = 0x62 → exec (.jmpr x) s = .next (u.goto x.core (u.g x.core d.b)))

/-- Calls, returns, NOP, FENCE, WAIT, BRK and the customer extension: the whole next state. -/
def Obligations.TorpinCallsAndStack : Prop :=
  ∀ (x : Fetch) (d : Dec) (s u : State) (top : Nat), fetches x d s = true → u = s.fetched x d → top = ((u.core x.core).rsp - 4).toNat →
    (d.key = 0x61 → (stackJudge u x.core top 4 true).1 = .ok →
      exec (.call x) s = .next (((u.memWrite top (leBytes 4 (u.after x.core d).toNat)).modCore x.core fun k => { k with rsp := BitVec.ofNat 32 top }).goto
        x.core (u.after x.core d + d.off)))
    ∧ (d.key = 0x63 → (stackJudge u x.core top 4 true).1 = .ok →
      exec (.callr x) s = .next (((u.memWrite top (leBytes 4 (u.after x.core d).toNat)).modCore x.core fun k => { k with rsp := BitVec.ofNat 32 top }).goto
        x.core (u.g x.core d.b)))
    ∧ (d.key = 0x02 → ∀ r v, r = ((u.core x.core).rsp).toNat → (stackJudge u x.core r 4 false).1 = .ok → u.eccRead x.core r 4 = (v, none) →
      exec (.ret x) s = .next ((v.modCore x.core fun k => { k with rsp := k.rsp + 4 }).goto x.core (BitVec.ofNat 32 (leNat (u.memRead r 4)))))
    ∧ (d.key = 0x03 → ∀ r v, r = ((u.core x.core).rsp).toNat → (stackJudge u x.core r 8 false).1 = .ok → u.eccRead x.core r 8 = (v, none) →
      exec (.reti x) s = .next (((v.modCore x.core fun k => { k with rsp := k.rsp + 8 }).modCore x.core fun k =>
        { k with ie := bitOf (fieldU (u.memRead r 8) 4 4) 0, ieNext := false }).goto x.core (BitVec.ofNat 32 (fieldU (u.memRead r 8) 0 4))))
    ∧ (d.key = 0x00 → exec (.nop x) s = .next (u.goto x.core (u.after x.core d)))
    ∧ (d.key = 0x06 → exec (.fence x) s = .next (u.goto x.core (u.after x.core d)))
    ∧ (d.key = 0x01 → exec (.wait x) s = .next ((u.modCore x.core fun k =>
        { k with mode := if (u.dueLine x.core).isSome then .running else .waiting }).goto x.core (u.after x.core d)))
    ∧ (d.key = 0x05 → exec (.brk x) s = .next (u.trapped x d 5 (u.after x.core d) 0))
    ∧ (d.key = 0xE8 → exec (.customerExtension x) s
        = .next (u.trapped x d 6 (u.core x.core).pc (uncheckedWord u x.core (u.core x.core).pc x.bytes)))

/-- Loads and stores without REP: the whole next state. The address stored to is the effective address in the state in which the instruction begins. -/
def Obligations.TorpinLoadsAndStores : Prop :=
  ∀ (x : Fetch) (d : Dec) (s u : State) (c : Ctx), fetches x d s = true → u = s.fetched x d → c = x.ctx d u → d.rep = false →
    (d.key = 0x50 → ∀ v bs, granted c .load (c.ea d.b u) d.size false u = true → readBytes c (c.ea d.b u) d.size u = .ok (v, bs) →
      exec (.ld x) s = .next (((c.bump d.b v).setG x.core d.a (extend d.sx bs)).goto x.core (u.after x.core d)))
    ∧ (d.key = 0x51 → granted c .store (c.ea d.b u) d.size false u = true →
      exec (.st x) s = .next ((c.bump d.b (writeBytes c (c.ea d.b u) (leBytes d.size (u.g x.core d.a).toNat) u)).goto x.core (u.after x.core d)))
    ∧ (d.key = 0x58 → granted c .store (c.ea d.b u) d.size false u = true →
      exec (.sti x) s = .next ((c.bump d.b (writeBytes c (c.ea d.b u) (leBytes d.size d.imm.toNat) u)).goto x.core (u.after x.core d)))
    ∧ (d.key = 0x53 → ∀ v bs, granted c .load (c.ea d.b u) d.size false u = true → granted c .store (c.ea d.a u) d.size false u = true →
      readBytes c (c.ea d.b u) d.size u = .ok (v, bs) →
      exec (.mvm x) s = .next ((c.bump d.a (c.bump d.b (writeBytes c (c.ea d.a u) bs v))).goto x.core (u.after x.core d)))
    ∧ (d.key = 0x52 → exec (.lea x) s = .next (u.result x d (BitVec.ofNat 32 (c.ea d.b u))))

/-- REP (R380): the iterations are those of the instruction without REP, each followed by c := c − 1. -/
def Obligations.TorpinRepeated : Prop :=
  ∀ (x : Fetch) (d : Dec) (s u : State) (c : Ctx) (k : Nat), fetches x d s = true → u = s.fetched x d → c = x.ctx d u → d.rep = true → x.upTo = none →
    k = (u.g x.core 13).toNat →
    (∀ t, d.key = 0x50 → repLoop x.core (loadIter c) k u = .ok t → exec (.ld x) s = .next (t.goto x.core (u.after x.core d)))
    ∧ (∀ t, d.key = 0x51 → repLoop x.core (fun w => c.storeOp (w.g x.core d.a) w) k u = .ok t → exec (.st x) s = .next (t.goto x.core (u.after x.core d)))
    ∧ (∀ t, d.key = 0x58 → repLoop x.core (c.storeOp d.imm) k u = .ok t → exec (.sti x) s = .next (t.goto x.core (u.after x.core d)))
    ∧ (∀ t, d.key = 0x53 → repLoop x.core (moveIter c) k u = .ok t → exec (.mvm x) s = .next (t.goto x.core (u.after x.core d)))
    ∧ (k = 0 → d.key = 0x50 → exec (.ld x) s = .next (u.goto x.core (u.after x.core d)))
    ∧ (k = 0 → d.key = 0x51 → exec (.st x) s = .next (u.goto x.core (u.after x.core d)))
    ∧ (k = 0 → d.key = 0x58 → exec (.sti x) s = .next (u.goto x.core (u.after x.core d)))
    ∧ (k = 0 → d.key = 0x53 → exec (.mvm x) s = .next (u.goto x.core (u.after x.core d)))

/-- Read-modify-write (R376): the whole next state. -/
def Obligations.TorpinReadModifyWrite : Prop :=
  ∀ (x : Fetch) (d : Dec) (s u v : State) (c : Ctx) (a : Nat) (bs : List Byte) (m : Word),
    fetches x d s = true → u = s.fetched x d → c = x.ctx d u → a = c.ea d.b u → readBytes c a d.size u = .ok (v, bs) → m = extend false bs →
    (d.key = 0x54 → granted c .load a d.size true u = true → granted c .store a d.size true u = true →
      exec (.xchg x) s = .next (((c.bump d.b (writeBytes c a (leBytes d.size (u.g x.core d.a).toNat) v)).setG x.core d.a m).goto x.core (u.after x.core d)))
    ∧ (granted c .load a d.size d.lock u = true → granted c .store a d.size d.lock u = true →
      (d.key = 0x59 → exec (.addm x) s = .next ((c.bump d.b (writeBytes c a (leBytes d.size (m + d.imm).toNat) v)).goto x.core (u.after x.core d)))
      ∧ (d.key = 0x5A → exec (.andm x) s = .next ((c.bump d.b (writeBytes c a (leBytes d.size (m &&& d.imm).toNat) v)).goto x.core (u.after x.core d)))
      ∧ (d.key = 0x5B → exec (.orm x) s = .next ((c.bump d.b (writeBytes c a (leBytes d.size (m ||| d.imm).toNat) v)).goto x.core (u.after x.core d)))
      ∧ (d.key = 0x5C → exec (.xorm x) s = .next ((c.bump d.b (writeBytes c a (leBytes d.size (m ^^^ d.imm).toNat) v)).goto x.core (u.after x.core d)))
      ∧ (d.key = 0x5D → exec (.addmr x) s
          = .next ((c.bump d.b (writeBytes c a (leBytes d.size (m + u.g x.core d.a).toNat) v)).goto x.core (u.after x.core d))))

/-- Addressing (R370). -/
def Obligations.TorpinAddressing : Prop :=
  ∀ (c : Ctx) (b : Nat) (s : State),
    (c.d.mode = 0 → c.ea b s = (s.g c.n b).toNat ∧ c.bump b s = s)
    ∧ (c.d.mode = 1 → c.ea b s = (s.g c.n b).toNat ∧ c.bump b s = s.setG c.n b (s.g c.n b + BitVec.ofNat 32 c.d.size))
    ∧ (c.d.mode = 2 → c.ea b s = (s.g c.n b - BitVec.ofNat 32 c.d.size).toNat ∧ c.bump b s = s.setG c.n b (BitVec.ofNat 32 (c.ea b s)))
    ∧ (c.d.mode = 3 → c.bump b s = s ∧ (c.d.index = none → c.ea b s = (s.g c.n b + c.d.disp).toNat)
      ∧ ∀ i k, c.d.index = some (i, k) → c.ea b s = (s.g c.n b + s.g c.n i * BitVec.ofNat 32 k + c.d.disp).toNat)

/-- CP2 and CP3 (R387, R388): the whole next state. -/
def Obligations.TorpinTimeAndCipher : Prop :=
  ∀ (x : Fetch) (d : Dec) (s u : State), fetches x d s = true → u = s.fetched x d →
    (d.key = 0x1E200 → exec (.snap x) s = .next (((u.modCore x.core fun k => { k with latch :=
        [BitVec.ofNat 32 u.time.dt.toNat, BitVec.ofNat 32 (u.time.dt.toNat / 2 ^ 32), BitVec.ofNat 32 u.time.beat, BitVec.ofNat 32 (u.time.beat / 2 ^ 32),
          BitVec.ofNat 32 u.time.tick] }).setG x.core d.a (BitVec.ofNat 32 u.time.dt.toNat)).goto x.core (u.after x.core d)))
    ∧ (d.key = 0x1E201 → exec (.mfc x) s = .next (u.result x d (((u.core x.core).latch[d.b]?).getD 0)))
    ∧ (d.key = 0x1E202 → exec (.mtc x) s
        = .next ((u.modCore x.core fun k => { k with latch := k.latch.set d.b (u.g x.core d.a) }).goto x.core (u.after x.core d)))
    ∧ (d.key = 0x1E203 → exec (.epoch x) s = .next (u.result x d u.nv.epoch))
    ∧ (d.key = 0x1E301 → exec (.status x) s = .next (u.result x d (BitVec.ofNat 32 u.cipher.ucStatus)))
    ∧ (d.key = 0x1E302 → exec (.cancel x) s
        = .next (((cipherCancel u).1.setG x.core d.a (BitVec.ofNat 32 (cipherCancel u).2)).goto x.core (u.after x.core d)))
    ∧ (d.key = 0x1E300 → ∀ v bs, checkRun (x.ctx d u) .load (u.g x.core d.a).toNat 4 12 u = .ok () →
        readBytes (x.ctx d u) (u.g x.core d.a).toNat 48 u = .ok (v, bs) →
        exec (.submit x) s = .next (((cipherSubmit (u.g x.core d.a).toNat v).1.setG x.core d.a
          (BitVec.ofNat 32 (cipherSubmit (u.g x.core d.a).toNat v).2)).goto x.core (u.after x.core d)))

/-- CP0 (R389): the whole next state.  The free payload of a NaN is whatever the open word is. -/
def Obligations.TorpinFloat : Prop :=
  ∀ (x : Fetch) (d : Dec) (s u : State) (a b : BitVec 64), fetches x d s = true → u = s.fetched x d → a = u.f x.core d.a → b = u.f x.core d.b →
    (d.key = 0x1E002 → exec (.fmov x) s = .next (u.floatResult x d fun _ => (b, 0)))
    ∧ (d.key = 0x1E003 → exec (.fadd x) s = .next (u.floatResult x d fun r => f64Add r a b))
    ∧ (d.key = 0x1E004 → exec (.fsub x) s = .next (u.floatResult x d fun r => f64Sub r a b))
    ∧ (d.key = 0x1E005 → exec (.fmul x) s = .next (u.floatResult x d fun r => f64Mul r a b))
    ∧ (d.key = 0x1E006 → exec (.fdiv x) s = .next (u.floatResult x d fun r => f64Div r a b))
    ∧ (d.key = 0x1E007 → exec (.fsqrt x) s = .next (u.floatResult x d fun r => f64Sqrt r b))
    ∧ (d.key = 0x1E008 → exec (.fneg x) s = .next (u.floatResult x d fun _ => (f64Flip b, 0)))
    ∧ (d.key = 0x1E000 → ∀ p v bs, p = (u.g x.core d.a).toNat → granted (x.ctx d u) .load p 8 false u = true → readBytes (x.ctx d u) p 8 u = .ok (v, bs) →
      exec (.fld x) s = .next ((v.setF x.core d.b (BitVec.ofNat 64 (leNat bs))).goto x.core (u.after x.core d)))
    ∧ (d.key = 0x1E001 → ∀ p, p = (u.g x.core d.a).toNat → granted (x.ctx d u) .store p 8 false u = true →
      exec (.fst x) s = .next ((writeBytes (x.ctx d u) p (leBytes 8 b.toNat) u).goto x.core (u.after x.core d)))
    ∧ (d.key = 0x1E009 → exec (.fcvtif x) s = .next ((u.setF x.core d.b (f64OfRat ((u.g x.core d.a).toInt : Rat))).goto x.core (u.after x.core d)))
    ∧ (d.key = 0x1E00A → exec (.fcvtfi x) s
        = .next (((u.setG x.core d.a (BitVec.ofInt 32 (f64ToInt b).1)).stick x.core (f64ToInt b).2).goto x.core (u.after x.core d)))
    ∧ (d.key = 0x1E00B → exec (.fcmp x) s = .next ((u.modCore x.core fun k =>
        { k with fstat := (k.fstat &&& 0x7C) ||| BitVec.ofNat 7 (f64Cmp a b) ||| nanFlag a b }).goto x.core (u.after x.core d)))
    ∧ (d.key = 0x1E00C → exec (.fstat x) s = .next (u.result x d ((u.core x.core).fstat.setWidth 32)))
    ∧ (d.key = 0x1E00D → exec (.fclr x) s = .next ((u.modCore x.core fun k => { k with fstat := k.fstat &&& 0x03 }).goto x.core (u.after x.core d)))

/-- CP1 (R389): the whole next state.  The angle rests on the real function that the device computes, a constant of the part. -/
def Obligations.TorpinComplex : Prop :=
  ∀ (x : Fetch) (d : Dec) (s u : State) (i q k r : Int) (p : Nat), fetches x d s = true → u = s.fetched x d →
    i = (u.g x.core d.a).toInt → q = (u.g x.core (d.a + 1)).toInt → k = (u.g x.core d.b).toInt → r = (u.g x.core (d.b + 1)).toInt → p = (k * k + r * r).toNat →
    (d.key = 0x1E100 → exec (.cmul x) s = .next (u.pairResult x d (sat32s (roundDiv (i * k - q * r) (2 ^ (d.imm.toNat % 32))))
        (sat32s (roundDiv (i * r + q * k) (2 ^ (d.imm.toNat % 32))))))
    ∧ (d.key = 0x1E101 → exec (.cmulc x) s = .next (u.pairResult x d (sat32s (roundDiv (i * k + q * r) (2 ^ (d.imm.toNat % 32))))
        (sat32s (roundDiv (q * k - i * r) (2 ^ (d.imm.toNat % 32))))))
    ∧ (d.key = 0x1E102 → exec (.cpow x) s = .next (u.pairResult x d (BitVec.ofNat 32 p) (BitVec.ofNat 32 (p / 2 ^ 32))))
    ∧ (d.key = 0x1E103 → exec (.cmag x) s = .next (u.result x d (sat32s (nearRoot p))))
    ∧ (d.key = 0x1E104 → exec (.catan x) s = .next (u.result x d (sat32s (roundRat (Config.atan2 (r : Rat) (k : Rat) * 4294967296)))))
    ∧ (d.key = 0x1E105 → exec (.cnorm x) s
        = .next (u.result x d (if i + k = 0 then 0 else sat32s (roundRat (((i - k : Int) : Rat) / ((i + k : Int) : Rat) * 2147483648)))))

/-- MXRUN (R389): the whole next state; the out-of-range descriptor is the model's choice. -/
def Obligations.TorpinMatrix : Prop :=
  ∀ (x : Fetch) (d : Dec) (s u w : State) (c : Ctx) (at_ : Nat) (desc : List Byte) (m : Mx), fetches x d s = true → u = s.fetched x d → c = x.ctx d u →
    d.key = 0x1E010 → at_ = (u.g x.core d.a).toNat → checkRun c .load at_ 8 4 u = .ok () → readBytes c at_ 32 u = .ok (w, desc) → m = mxOf desc →
    (([m.m, m.k, m.n].any fun v => v == 0 || decide (64 < v)) = true → exec (.mxrun x) s = .next (w.goto x.core (u.after x.core d)))
    ∧ (([m.m, m.k, m.n].any fun v => v == 0 || decide (64 < v)) = false → ∀ w1 w2 w3 a b old,
        mxLoad c m.a (m.m * m.k) w = .ok (w1, a) → mxLoad c m.b (m.k * m.n) w1 = .ok (w2, b) →
        (m.acc = true → mxLoad c m.c (m.m * m.n) w2 = .ok (w3, old)) → (m.acc = false → w3 = w2 ∧ old = []) →
        checkRun c .store m.c 8 (m.m * m.n) (w3.openVal 92).1 = .ok () →
        ∀ out, out = mxCompute (BitVec.ofNat 64 (w3.openVal 92).2) m a b old →
          exec (.mxrun x) s = .next (((writeBytes c m.c (out.flatMap fun e => leBytes 8 e.1.toNat) (w3.openVal 92).1).stick x.core
            (out.foldl (fun f e => f ||| e.2) 0)).goto x.core (u.after x.core d)))

/-- Services that are not masked (Table 17.7): the whole next state. -/
def Obligations.TorpinServices : Prop :=
  ∀ (x : Fetch) (d : Dec) (s u w : State), fetches x d s = true → u = s.fetched x d → w = u.counted x.core → (∀ k, svcMasked x.core k w = false) →
    (d.key = 0x400 → exec (.info x) s = .next ((((w.setG x.core 1 (BitVec.ofNat 32 w.nodeId)).setG x.core 2 w.nv.epoch).setG x.core 3
        (BitVec.ofNat 32 w.boot.fwCc)).serviced x stOk (u.after x.core d)))
    ∧ (d.key = 0x401 → ∀ dt t, dt = w.now / 2 ^ 64 * 2 ^ 64 + (w.g x.core 2).toNat * 2 ^ 32 + (w.g x.core 1).toNat → t = w.clock.gpsNs dt →
      exec (.time x) s = .next ((((w.setG x.core 1 (BitVec.ofNat 32 t)).setG x.core 2 (BitVec.ofNat 32 (t / 2 ^ 32))).setG x.core 3
        (BitVec.ofNat 32 (w.clock.genAt dt + if w.clock.valid && (w.clock.seg dt).isSome then 2 ^ 31 else 0))).serviced x stOk (u.after x.core d)))
    ∧ (d.key = 0x402 → ∀ a r, a = (w.g x.core 1).toNat → (((w.g x.core 2).toNat = 0 ∧ w.nav.pvt = some r) ∨ ((w.g x.core 2).toNat = 1 ∧ w.nav.fused = some r)) →
      inIo a = false → (w.judgeCore 7 .store a r.bytes.length).1 = .ok →
      exec (.pvtCopy x) s = .next ((storeAs x.clash 7 a r.bytes w).serviced x stOk (u.after x.core d)))
    ∧ (d.key = 0x403 → exec (.wdog x) s
        = .next ((w.modUc fun k => { k with wdogLeft := if x.core = 7 then w.wdogReload else k.wdogLeft }).serviced x stOk (u.after x.core d)))
    ∧ (d.key = 0x404 → exec (.log x) s
        = .next (((w.ucEvent 6 (some (w.g x.core 1).toNat)).logTrip 5 none (some (w.g x.core 1).toInt)).serviced x stOk (u.after x.core d)))
    ∧ (d.key = 0x405 → exec (.nextBeat x) s = .next ((w.modCore x.core fun k => { k with mode := .svcBeat }).serviced x stOk (u.after x.core d)))
    ∧ (d.key = 0x406 → x.core = 7 → u.uc.state = .suspending → (u.uc.swap.any fun p => p.handed.isNone) = true →
      exec (.swapReady x) s = .next ((swapProgram (u.g 7 1) false w).goto 7 ((swapProgram (u.g 7 1) false w).core 7).pc))
    ∧ (d.key = 0x406 → ¬(x.core = 7 ∧ u.uc.state = .suspending ∧ (u.uc.swap.any fun p => p.handed.isNone) = true) →
      exec (.swapReady x) s = .next (w.serviced x stState (u.after x.core d)))

/-- Services that answer without an effect, and undefined services (Table 17.7). -/
def Obligations.TorpinServiceRefusals : Prop :=
  ∀ (x : Fetch) (d : Dec) (s u w : State), fetches x d s = true → u = s.fetched x d → w = u.counted x.core →
    (0x407 ≤ d.key → d.key ≤ 0x4FF → exec (.undefinedService x) s = .next (w.serviced x stBadOpcode (u.after x.core d)))
    ∧ (d.key = 0x400 → svcMasked x.core 0 w = true → exec (.info x) s = .next (w.serviced x stBadOpcode (u.after x.core d)))
    ∧ (d.key = 0x405 → svcMasked x.core 5 w = true → exec (.nextBeat x) s = .next (w.serviced x stBadOpcode (u.after x.core d)))
    ∧ (d.key = 0x402 → svcMasked x.core 2 w = false → 1 < (w.g x.core 2).toNat → exec (.pvtCopy x) s = .next (w.serviced x stRange (u.after x.core d)))
    ∧ (d.key = 0x402 → svcMasked x.core 2 w = false → (w.g x.core 2).toNat = 0 → w.nav.pvt = none →
      exec (.pvtCopy x) s = .next (w.serviced x stState (u.after x.core d)))
    ∧ (d.key = 0x402 → svcMasked x.core 2 w = false → (w.g x.core 2).toNat = 0 → w.nav.pvt.isSome = true → inIo (w.g x.core 1).toNat = true →
      exec (.pvtCopy x) s = .next (w.serviced x stFault (u.after x.core d)))

/-- MFS, MTS, ILLEGAL and interrupt entry: the whole next state. -/
def Obligations.TorpinSpecialRegisters : Prop :=
  (∀ (x : Fetch) (d : Dec) (s u : State) (k : Core), fetches x d s = true → u = s.fetched x d → k = u.core x.core →
    (d.key = 0x80 → d.sreg = 0 → exec (.mfs x) s = .next (u.result x d k.evb))
    ∧ (d.key = 0x80 → d.sreg = 1 → exec (.mfs x) s = .next (u.result x d (if k.ie then 1 else 0)))
    ∧ (d.key = 0x80 → d.sreg = 2 → exec (.mfs x) s = .next (u.result x d (k.ecause.setWidth 32)))
    ∧ (d.key = 0x80 → d.sreg = 3 → ∀ v, (u.judgeBanks x.core k.rsp.toNat 4 false).1 = .ok → u.eccRead x.core k.rsp.toNat 4 = (v, none) →
      exec (.mfs x) s = .next ((v.setG x.core d.a (BitVec.ofNat 32 (leNat (u.memRead k.rsp.toNat 4)))).goto x.core (u.after x.core d)))
    ∧ (d.key = 0x80 → d.sreg = 4 → exec (.mfs x) s = .next (u.result x d k.eaddr))
    ∧ (d.key = 0x80 → d.sreg = 5 → exec (.mfs x) s = .next (u.result x d k.rsp))
    ∧ (d.key = 0x80 → d.sreg = 6 → exec (.mfs x) s = .next (u.result x d (k.imask.setWidth 32)))
    ∧ (d.key = 0x80 → d.sreg = 7 → exec (.mfs x) s = .next (u.result x d ((u.linesOf x.core).setWidth 32)))
    ∧ (d.key = 0x80 → d.sreg = 8 → exec (.mfs x) s = .next (u.result x d (BitVec.ofNat 32 x.core)))
    ∧ (d.key = 0x80 → d.sreg = 9 → exec (.mfs x) s = .next (u.result x d (BitVec.ofNat 32 k.elen)))
    ∧ (d.key = 0x81 → d.sreg = 0 → exec (.mts x) s
        = .next ((u.modCore x.core fun k => { k with evb := u.g x.core d.a &&& 0xFFFFFC00 }).goto x.core (u.after x.core d)))
    ∧ (d.key = 0x81 → d.sreg = 1 → exec (.mts x) s = .next ((u.modCore x.core fun k =>
        if (u.g x.core d.a).getLsbD 0 then { k with ieNext := !k.ie } else { k with ie := false, ieNext := false }).goto x.core (u.after x.core d)))
    ∧ (d.key = 0x81 → d.sreg = 6 → exec (.mts x) s
        = .next ((u.modCore x.core fun k => { k with imask := (u.g x.core d.a).setWidth 16 }).goto x.core (u.after x.core d)))
    ∧ (d.key = 0x81 → d.sreg = 3 → (u.judgeBanks x.core k.rsp.toNat 4 true).1 = .ok →
      exec (.mts x) s = .next ((u.memWrite k.rsp.toNat (leBytes 4 (u.g x.core d.a).toNat)).goto x.core (u.after x.core d))))
  ∧ (∀ (x : Fetch) (s u v : State) (key len : Nat) (pc : Word), pc = (s.core x.core).pc → coreReady s x.core = true → interruptDue s x.core = false →
      decodeInsn x.core x.bytes = .illegal key len → (fetchJudge s x.core pc len).1 = .ok → s.eccRead x.core pc.toNat len = (v, none) →
      u = v.modCore x.core (fun k => { k with ie := k.ie || k.ieNext, ieNext := false, mode := .running }) → (v.core x.core).pc = pc →
      exec (.illegalInstruction x) s = .next (takeException { n := x.core, d := Dec.of 0 len, pc := pc, next := pc + BitVec.ofNat 32 len, x := x } 1 pc
        (firstWord x.bytes len) len u))
  ∧ (∀ (core i : Nat) (same : Bool) (s : State) (pc : Word), coreReady s core = true → (s.core core).ie = true → s.dueLine core = some i →
      pc = (s.core core).pc →
      exec (.interruptEntry core same) s = .next (takeException { n := core, d := Dec.of 0 0, pc := pc, next := pc, x := { core := core, bytes := [], sameTick := same, upTo := none, clash := none } }
        (0x10 + i) pc 0 (s.core core).elen s))

/-- R304, its parameters, its check value and its storage. -/
def Obligations.FrameChecksum : Prop :=
  (∀ bs : List Byte, crc32c bs = (bs.foldl (fun c b => (List.range 8).foldl (fun c _ => if c % 2 = 1 then c / 2 ^^^ 0x82F63B78 else c / 2) (c ^^^ b.toNat)) 0xFFFFFFFF) ^^^ 0xFFFFFFFF)
  ∧ crc32c [0x31, 0x32, 0x33, 0x34, 0x35, 0x36, 0x37, 0x38, 0x39] = 0xE3069283
  ∧ (∀ bs : List Byte, crc32c bs < 2 ^ 32)
  ∧ (∀ f : Frame, f.bytes.length = 16 + f.payload.length
    ∧ fieldU f.bytes (12 + f.payload.length) 4 = crc32c (fieldB f.bytes 4 (8 + f.payload.length))
    ∧ f.bytes.drop (12 + f.payload.length) = u32 (crc32c (fieldB f.bytes 4 (8 + f.payload.length))))

/-- Table 13.1, the delimiting rule of Table 13.3, and signed fields (R7). -/
def Obligations.FrameLayoutAndDelimiting : Prop :=
  (∀ f : Frame, f.sess < 16 → f.opc < 2 ^ 16 → f.stat < 2 ^ 8 → f.payload.length ≤ 4080 →
    fieldU f.bytes 0 2 = 0xFECA ∧ fieldU f.bytes 2 2 = 8 + f.payload.length ∧ fieldU f.bytes 4 1 = 1
    ∧ fieldU f.bytes 5 1 = (match f.kind with | .reply => 16 | .notice => 32) + f.sess ∧ fieldU f.bytes 6 2 = f.seq.toNat ∧ fieldU f.bytes 8 2 = f.opc
    ∧ fieldU f.bytes 10 1 = f.flg.toNat ∧ fieldU f.bytes 11 1 = f.stat ∧ fieldB f.bytes 12 f.payload.length = f.payload
    ∧ f.bytes.foldl delimit [] = []
    ∧ ∀ k, k < f.bytes.length → (f.bytes.take k).foldl delimit [] = f.bytes.take k)
  ∧ (∀ bs : List Byte, 0xCA ∉ bs → bs.foldl delimit [] = [])
  ∧ (∀ (n : Nat) (v : Int), 1 ≤ n → -((2 : Int) ^ (8 * n - 1)) ≤ v → v < (2 : Int) ^ (8 * n - 1) → toSigned n (leNat (leBytesI n v)) = v)

/-- The state right after power is applied, before the BOOT row; its own choices are log entries 3, 4 and 5. -/
def Obligations.ResetValues : Prop :=
  State.reset.pending = []
  ∧ (State.reset.time.dt = 0 ∧ State.reset.time.acc = 0 ∧ State.reset.time.beat = 0 ∧ State.reset.time.tick = 0 ∧ State.reset.time.running = false)
  ∧ (State.reset.sessions.length = 16 ∧ ∀ e ∈ State.reset.sessions, e.binding = none ∧ e.history = 0)
  ∧ State.reset.transports.map (fun t => (t.enable, t.ceiling)) = [(true, 2), (true, 1), (true, 2), (false, 1), (false, 1), (false, 1), (false, 1), (false, 1),
      (false, 1), (false, 1), (true, 1)]
  ∧ (State.reset.periph.uarts.length = 6 ∧ ∀ u ∈ State.reset.periph.uarts, u.owner = 0 ∧ u.rx.inForce = ⟨0, 13542⟩ ∧ u.tx.inForce = ⟨0, 13542⟩)
  ∧ State.reset.fabric.binding = (List.range 32).map (· / 8)
  ∧ (State.reset.cores.length = 8 ∧ ∀ c ∈ State.reset.cores, c.g = List.replicate 16 0 ∧ c.evb = 0 ∧ c.ie = false ∧ c.imask = 0 ∧ c.latch = List.replicate 5 0
      ∧ c.f = List.replicate 16 0 ∧ c.mode = .stopped)
  ∧ (State.reset.uc.state = .stopped ∧ State.reset.uc.wdog = 0 ∧ State.reset.uc.svcMask = 0x7F ∧ State.reset.uc.bankLimit = 16)
  ∧ (State.reset.cipher.slots.length = 32 ∧ ∀ k ∈ State.reset.cipher.slots, k.state = .empty)
  ∧ (State.reset.nv.rk1 = 0 ∧ State.reset.nv.rk1Done = false ∧ State.reset.nv.rollback = 0 ∧ State.reset.nv.epoch = 0)
  ∧ (State.reset.mem.cells = [] ∧ Memory.wf State.reset.mem = true ∧ State.reset.mem.banks.length = 128)
end

