-- ==== Sys2Proof/Laws/Bytes.lean ====
section
/-! SUPPORT. Little-endian fields: their length and their round trips (R6, R7). -/

namespace Sys2Proof.Machine
open Sys2Proof

@[simp] theorem leBytes_length (n v : Nat) : (leBytes n v).length = n := by
  induction n generalizing v with
  | zero => rfl
  | succ n ih => simp [leBytes, ih]

@[simp] theorem u8_length (v : Nat) : (u8 v).length = 1 := leBytes_length ..
@[simp] theorem u16_length (v : Nat) : (u16 v).length = 2 := leBytes_length ..
@[simp] theorem u32_length (v : Nat) : (u32 v).length = 4 := leBytes_length ..
@[simp] theorem u64_length (v : Nat) : (u64 v).length = 8 := leBytes_length ..
@[simp] theorem i16_length (v : Int) : (i16 v).length = 2 := leBytes_length ..
@[simp] theorem i32_length (v : Int) : (i32 v).length = 4 := leBytes_length ..
@[simp] theorem i64_length (v : Int) : (i64 v).length = 8 := leBytes_length ..
@[simp] theorem rsv_length (n : Nat) : (rsv n).length = n := by simp [rsv]

theorem leNat_lt (l : List Byte) : leNat l < 2 ^ (8 * l.length) := by
  induction l with
  | nil => decide
  | cons b l ih =>
    have hb := b.isLt
    have : 2 ^ (8 * (b :: l).length) = 256 * 2 ^ (8 * l.length) := by
      rw [List.length_cons, Nat.mul_add, Nat.pow_add, Nat.mul_comm]
    rw [this]
    simp only [leNat]
    omega

/-- Reading back what was written: the value modulo the field. -/
theorem leNat_leBytes (n v : Nat) : leNat (leBytes n v) = v % 2 ^ (8 * n) := by
  induction n generalizing v with
  | zero => simp [leBytes, leNat, Nat.mod_one]
  | succ n ih =>
    simp only [leBytes, leNat, ih, BitVec.toNat_ofNat]
    rw [show 8 * (n + 1) = 8 + 8 * n by omega, Nat.pow_add, Nat.mod_mul]

/-- Writing back what was read gives the same bytes. -/
theorem leBytes_leNat (l : List Byte) : leBytes l.length (leNat l) = l := by
  induction l with
  | nil => rfl
  | cons b l ih =>
    have hb := b.isLt
    simp only [List.length_cons, leBytes, leNat]
    congr 1
    · apply BitVec.eq_of_toNat_eq
      simp only [BitVec.toNat_ofNat]
      omega
    · rw [show (b.toNat + 256 * leNat l) / 256 = leNat l by omega, ih]

end Sys2Proof.Machine
end

