-- ==== Sys2Proof/Laws/Keep.lean ====
section
/-! SUPPORT. What almost every operation keeps: the queue, the instant, the DT epoch ID, the OTP and the tap. One bundle, so that one lemma for each operation says it of all. -/

namespace Sys2Proof.Machine
open Sys2Proof

/-- The parts of the state that only the passing of time, a restart and the provisioning of RK1 write. -/
def State.keep (s : State) : List Instr × (BitVec 64 × Nat × Nat × Nat) × BitVec 32 × (BitVec 256 × Bool × Bool × Nat) × Tap :=
  (s.pending, (s.time.dt, s.time.acc, s.time.beat, s.time.tick), s.nv.epoch, (s.nv.rk1, s.nv.rk1Done, s.nv.rk1Open, s.nv.rollback), s.tap)

/-- An outcome is a next state that keeps the bundle. -/
def Keeps (s : State) : Host.Outcome State Fault Refusal → Prop
  | .next t => t.keep = s.keep
  | _ => False

@[simp] theorem keeps_next (s t : State) : Keeps s (.next t) ↔ t.keep = s.keep := Iff.rfl

/-- A record update that leaves the bundle's own fields alone keeps it. -/
@[simp] theorem keep_mk (s : State) (y3 y4 y5 y6 y7 y8 y9 y11 y12 y13 y14 y15 y16 y17 y18 y19 y20 y21 y22 y23 y24 y25 y26 y27 y28 y29) :
    State.keep (State.mk s.pending s.nv s.time y3 y4 y5 y6 y7 y8 y9 s.tap y11 y12 y13 y14 y15 y16 y17 y18 y19 y20 y21 y22 y23 y24 y25 y26 y27 y28 y29) = s.keep := rfl

/-- The same for an update of the records in MRAM. -/
@[simp] theorem keep_mk_nv (s : State) (x1 x2 x3 x4 x5 x6 x7 x8 x9 x10 x11 x12 x13 x14 x15 ) (y3 y4 y5 y6 y7 y8 y9 y11 y12 y13 y14 y15 y16 y17 y18 y19 y20 y21 y22 y23 y24 y25 y26 y27 y28 y29) :
    State.keep (State.mk s.pending (.mk s.nv.epoch x1 x2 x3 x4 x5 x6 x7 x8 x9 x10 x11 x12 x13 x14 x15 s.nv.rk1 s.nv.rk1Done s.nv.rk1Open s.nv.rollback) s.time y3 y4 y5 y6 y7 y8 y9 s.tap y11 y12 y13 y14 y15 y16 y17 y18 y19 y20 y21 y22 y23 y24 y25 y26 y27 y28 y29) = s.keep := rfl

/-- The same for a start or stop of DT. -/
@[simp] theorem keep_mk_time (s : State) (r : Bool) (y3 y4 y5 y6 y7 y8 y9 y11 y12 y13 y14 y15 y16 y17 y18 y19 y20 y21 y22 y23 y24 y25 y26 y27 y28 y29) :
    State.keep (State.mk s.pending s.nv (.mk r s.time.dt s.time.acc s.time.beat s.time.tick) y3 y4 y5 y6 y7 y8 y9 s.tap y11 y12 y13 y14 y15 y16 y17 y18 y19 y20 y21 y22 y23 y24 y25 y26 y27 y28 y29) = s.keep := rfl

/-- A property of both branches holds of the choice. -/
theorem ite_cases {α : Type} (p : α → Prop) (c : Prop) [Decidable c] {a b : α} (ha : p a) (hb : p b) : p (if c then a else b) := by
  split
  · exact ha
  · exact hb

/-- A fold of operations that each keep a projection keeps it. -/
theorem foldl_keep {α : Type} (f : State → α → State) (h : ∀ s x, (f s x).keep = s.keep) (l : List α) (s : State) :
    (l.foldl f s).keep = s.keep := by
  induction l generalizing s with
  | nil => rfl
  | cons x xs ih => exact (ih _).trans (h s x)

/-- The same for a fold that carries a value beside the state. -/
theorem foldl_keep_fst {α β : Type} (f : State × β → α → State × β) (h : ∀ p x, (f p x).1.keep = p.1.keep) (l : List α) (p : State × β) :
    (l.foldl f p).1.keep = p.1.keep := by
  induction l generalizing p with
  | nil => rfl
  | cons x xs ih => exact (ih _).trans (h p x)

end Sys2Proof.Machine
end

