-- ==== Sys2Proof/Laws/KeepProtocol.lean ====
section
/-! SUPPORT. What the operations of Machine/Protocol.lean keep: the bundle of `State.keep`. -/

namespace Sys2Proof.Machine
open Sys2Proof

@[simp] theorem State.send_keep (s : State) (t : Nat) (x : OutItem) : (State.send s t x).keep = s.keep := by
  unfold State.send
  (repeat' split) <;> simp

@[simp] theorem State.nak_keep (s : State) (t : Nat) (dst : Endpoint) (cause : Nat) : (State.nak s t dst cause).keep = s.keep := by
  unfold State.nak
  (repeat' split) <;> simp

@[simp] theorem State.reportLost_keep (s : State) (i : Nat) : (State.reportLost s i).keep = s.keep := by
  unfold State.reportLost
  (repeat' split) <;> simp

@[simp] theorem State.noticeTo_keep (s : State) (i opc : Nat) (sameTick : Bool) (payload : List Byte) : (State.noticeTo s i opc sameTick payload).keep = s.keep := by
  unfold State.noticeTo
  dsimp only
  (repeat' split) <;> simp_all

@[simp] theorem State.notifyF_keep (s : State) (opc : Nat) (sameTick : Bool) (payload : List Byte) : (s.notifyF opc sameTick payload).keep = s.keep := by
  apply foldl_keep
  intro s x
  (repeat' split) <;> simp

@[simp] theorem State.notify_keep (s : State) (opc : Nat) (payload : List Byte) : (State.notify s opc payload).keep = s.keep := by
  simp [State.notify]

theorem HostCmd.run_keep (c : HostCmd) (h : ∀ q s, (c.effect q s).1.keep = s.keep) (q : Qcp) (held : Nat) (s : State) :
    (c.run q held s).1.keep = s.keep := by
  unfold HostCmd.run
  split <;> simp [h]

@[simp] theorem State.reply_keep (s : State) (q : Qcp) (f : Frame) : (State.reply s q f).keep = s.keep := by
  simp [State.reply]

@[simp] theorem sequenced_keep (opc : Nat) (run : Nat → State → State × Reply) (q : Qcp) (e : Session) (s : State) (hrun : ∀ z0 z1, (run z0 z1).1.keep = z1.keep) : (sequenced opc run q e s).keep = s.keep := by
  unfold sequenced
  dsimp only
  (repeat' split) <;> simp_all

@[simp] theorem processFrame_keep (opc priv : Nat) (unsequenced : Bool) (run : Nat → State → State × Reply) (q : Qcp) (s : State) (hrun : ∀ z0 z1, (run z0 z1).1.keep = z1.keep) : (processFrame opc priv unsequenced run q s).keep = s.keep := by
  unfold processFrame
  dsimp only
  (repeat' split) <;> simp_all

theorem runHost_keep (c : HostCmd) (h : ∀ q s, (c.effect q s).1.keep = s.keep) (q : Qcp) (s : State) : Keeps s (runHost c q s) :=
  processFrame_keep _ _ _ _ _ _ fun held s => HostCmd.run_keep c h q held s

@[simp] theorem State.complete_keep (s : State) (o : Origin) (stat : Nat) (result : List Byte) : (State.complete s o stat result).keep = s.keep := by
  simp [State.complete]

end Sys2Proof.Machine
end

