-- ==== Sys2Proof/Laws/KeepOps.lean ====
section
/-! SUPPORT. What the operations of Machine/Ops.lean keep: the bundle of `State.keep`. -/

namespace Sys2Proof.Machine
open Sys2Proof

@[simp] theorem State.fresh_keep (s : State) : (State.fresh s).1.keep = s.keep := by
  simp [State.fresh]

@[simp] theorem State.openVal_keep (s : State) (site : Nat) : (State.openVal s site).1.keep = s.keep := by
  simp [State.openVal]

@[simp] theorem State.logFault_keep (s : State) (kind : Nat) : (State.logFault s kind).keep = s.keep := by
  simp [State.logFault]

@[simp] theorem State.logTrip_keep (s : State) (kind : Nat) (code : Option Nat) (value : Option Int) : (State.logTrip s kind code value).keep = s.keep := by
  unfold State.logTrip
  dsimp only
  (repeat' split) <;> simp_all

@[simp] theorem State.setDomains_keep (s : State) (d : BitVec 16) : (State.setDomains s d).keep = s.keep := by
  simp [State.setDomains]

end Sys2Proof.Machine
end

