-- ==== Sys2Proof/Laws/KeepSystem.lean ====
section
/-! SUPPORT. What the operations of Machine/System.lean keep: the bundle of `State.keep`. -/

namespace Sys2Proof.Machine
open Sys2Proof

@[simp] theorem State.modSession_keep (s : State) (i : Nat) (f : Session → Session) : (State.modSession s i f).keep = s.keep := by
  simp [State.modSession]

@[simp] theorem State.sessionEvent_keep (s : State) (i kind transport priv : Nat) : (State.sessionEvent s i kind transport priv).keep = s.keep := by
  simp [State.sessionEvent]

@[simp] theorem State.closeSession_keep (s : State) (i : Nat) : (State.closeSession s i).keep = s.keep := by
  simp [State.closeSession]

@[simp] theorem State.dropTransport_keep (s : State) (t : Nat) : (State.dropTransport s t).keep = s.keep := by
  unfold State.dropTransport
  (repeat' split)
  all_goals (try simp)
  all_goals (apply foldl_keep; intro s x; (repeat' split) <;> simp)

@[simp] theorem identityCmd_keep (q : Qcp) (s : State) : (identityCmd.effect q s).1.keep = s.keep := by
  simp [identityCmd]

theorem execIdentity_keep (q : Qcp) (s : State) : Keeps s (execIdentity q s) := by
  exact runHost_keep _ (by simp) _ _

@[simp] theorem sessionOpen_keep (q : Qcp) (s : State) : (sessionOpen q s).1.keep = s.keep := by
  unfold sessionOpen
  dsimp only
  (repeat' split) <;> simp_all

@[simp] theorem sessionOpenCmd_keep (q : Qcp) (s : State) : (sessionOpenCmd.effect q s).1.keep = s.keep := by
  simp [sessionOpenCmd]

theorem execSessionOpen_keep (q : Qcp) (s : State) : Keeps s (execSessionOpen q s) := by
  exact runHost_keep _ (by simp) _ _

@[simp] theorem sessionCloseCmd_keep (q : Qcp) (s : State) : (sessionCloseCmd.effect q s).1.keep = s.keep := by
  simp [sessionCloseCmd]

theorem execSessionClose_keep (q : Qcp) (s : State) : Keeps s (execSessionClose q s) := by
  exact runHost_keep _ (by simp) _ _

@[simp] theorem sessionStatusCmd_keep (q : Qcp) (s : State) : (sessionStatusCmd.effect q s).1.keep = s.keep := by
  simp [sessionStatusCmd]

theorem execSessionStatus_keep (q : Qcp) (s : State) : Keeps s (execSessionStatus q s) := by
  exact runHost_keep _ (by simp) _ _

@[simp] theorem echoCmd_keep (q : Qcp) (s : State) : (echoCmd.effect q s).1.keep = s.keep := by
  simp [echoCmd]

theorem execEcho_keep (q : Qcp) (s : State) : Keeps s (execEcho q s) := by
  exact runHost_keep _ (by simp) _ _

@[simp] theorem noticeMaskCmd_keep (q : Qcp) (s : State) : (noticeMaskCmd.effect q s).1.keep = s.keep := by
  simp [noticeMaskCmd]

theorem execNoticeMask_keep (q : Qcp) (s : State) : Keeps s (execNoticeMask q s) := by
  exact runHost_keep _ (by simp) _ _

@[simp] theorem State.reduceSessions_keep (s : State) (t ceiling : Nat) : (State.reduceSessions s t ceiling).keep = s.keep := by
  unfold State.reduceSessions
  (repeat' split)
  all_goals (try simp)
  all_goals (apply foldl_keep; intro s x; (repeat' split) <;> simp)

@[simp] theorem transportCfg_keep (q : Qcp) (s : State) : (transportCfg q s).1.keep = s.keep := by
  unfold transportCfg
  dsimp only
  (repeat' split) <;> simp_all

@[simp] theorem transportCfgCmd_keep (udpPort : State → Nat) (q : Qcp) (s : State) : ((transportCfgCmd udpPort).effect q s).1.keep = s.keep := by
  simp [transportCfgCmd]

@[simp] theorem undefinedCmd_keep (opc : Nat) (q : Qcp) (s : State) : ((undefinedCmd opc).effect q s).1.keep = s.keep := by
  simp [undefinedCmd]

theorem execUndefinedOpcode_keep (opc : BitVec 16) (q : Qcp) (s : State) : Keeps s (execUndefinedOpcode opc q s) := by
  unfold execUndefinedOpcode
  split
  · exact rfl
  · exact processFrame_keep _ _ _ _ _ _ fun held s => HostCmd.run_keep _ (fun _ _ => rfl) q held s

theorem execQcpFrameRejected_keep (transport : Nat) (ep : Endpoint) (cause : FrameFault) (s : State) : Keeps s (execQcpFrameRejected transport ep cause s) := by
  unfold execQcpFrameRejected
  (repeat' split) <;> simp

theorem execGapTimeout_keep (transport : Nat) (s : State) : Keeps s (execGapTimeout transport s) := by
  unfold execGapTimeout
  (repeat' split) <;> simp

theorem execNoticeLost_keep (session : Nat) (s : State) : Keeps s (execNoticeLost session s) := by
  simp [execNoticeLost]

theorem execSpiTransfer_keep (port : Nat) (mosi : List Byte) (s : State) : Keeps s (execSpiTransfer port mosi s) := by
  unfold execSpiTransfer
  (repeat' split) <;> simp

@[simp] theorem overrunLogCmd_keep (q : Qcp) (s : State) : (overrunLogCmd.effect q s).1.keep = s.keep := by
  simp [overrunLogCmd]

theorem execOverrunLog_keep (q : Qcp) (s : State) : Keeps s (execOverrunLog q s) := by
  exact runHost_keep _ (by simp) _ _

end Sys2Proof.Machine
end

