-- ==== Sys2Proof/Laws/KeepMemory.lean ====
section
/-! SUPPORT. What the operations of Machine/Memory.lean keep: the bundle of `State.keep`. -/

namespace Sys2Proof.Machine
open Sys2Proof

@[simp] theorem State.memWrite_keep (s : State) (a : Nat) (bs : List Byte) : (State.memWrite s a bs).keep = s.keep := by
  simp [State.memWrite]

@[simp] theorem State.modBank_keep (s : State) (b : Nat) (f : Bank → Bank) : (State.modBank s b f).keep = s.keep := by
  simp [State.modBank]

@[simp] theorem State.mbEvent_keep (s : State) (bank kind value : Nat) : (State.mbEvent s bank kind value).keep = s.keep := by
  simp [State.mbEvent]

@[simp] theorem State.giveBanks_keep (s : State) (first n owner : Nat) (use : BankUse) : (State.giveBanks s first n owner use).keep = s.keep := by
  unfold State.giveBanks
  (repeat' split)
  all_goals (try simp)
  all_goals (apply foldl_keep; intro s x; (repeat' split) <;> simp)

@[simp] theorem State.freeBanks_keep (s : State) (first n : Nat) : (State.freeBanks s first n).keep = s.keep := by
  simp [State.freeBanks]

@[simp] theorem State.logEcc_keep (s : State) (addr bank kind master : Nat) : (State.logEcc s addr bank kind master).keep = s.keep := by
  unfold State.logEcc
  dsimp only
  (repeat' split) <;> simp_all

@[simp] theorem State.eccRead_keep (s : State) (master a n : Nat) : (State.eccRead s master a n).1.keep = s.keep := by
  unfold State.eccRead
  dsimp only
  (repeat' split)
  all_goals (try simp)
  all_goals (refine (foldl_keep_fst _ ?_ _ _).trans (by simp); rintro ⟨s, y⟩ x; dsimp only; (repeat' split) <;> simp)

@[simp] theorem State.recordFreeze_keep (s : State) (i : FreezeInfo) : (State.recordFreeze s i).keep = s.keep := by
  simp [State.recordFreeze]

@[simp] theorem State.bankDone_keep (s : State) (b : Nat) : (State.bankDone s b).keep = s.keep := by
  unfold State.bankDone
  (repeat' split) <;> simp

@[simp] theorem State.drained_keep (s : State) (b : Nat) : (State.drained s b).keep = s.keep := by
  unfold State.drained
  dsimp only
  (repeat' split) <;> simp_all

end Sys2Proof.Machine
end

