-- ==== Sys2Proof/Laws/KeepBanks.lean ====
section
/-! SUPPORT. What the operations of Machine/Banks.lean keep: the bundle of `State.keep`. -/

namespace Sys2Proof.Machine
open Sys2Proof

@[simp] theorem cfgBank_keep (q : Qcp) (stamp : Nat) (s : State) (n : Nat) : (cfgBank q stamp s n).keep = s.keep := by
  simp [cfgBank]

@[simp] theorem mbCfgCmd_keep (q : Qcp) (s : State) : (mbCfgCmd.effect q s).1.keep = s.keep := by
  unfold mbCfgCmd
  (repeat' split)
  all_goals (try simp)
  all_goals (apply foldl_keep; intro s x; (repeat' split) <;> simp)

theorem execMbCfg_keep (q : Qcp) (s : State) : Keeps s (execMbCfg q s) := by
  exact runHost_keep _ (by simp) _ _

@[simp] theorem mbStatusCmd_keep (q : Qcp) (s : State) : (mbStatusCmd.effect q s).1.keep = s.keep := by
  simp [mbStatusCmd]

theorem execMbStatus_keep (q : Qcp) (s : State) : Keeps s (execMbStatus q s) := by
  exact runHost_keep _ (by simp) _ _

@[simp] theorem mbOwnSetCmd_keep (q : Qcp) (s : State) : (mbOwnSetCmd.effect q s).1.keep = s.keep := by
  unfold mbOwnSetCmd
  (repeat' split)
  all_goals (try simp)
  all_goals (apply foldl_keep; intro s x; (repeat' split) <;> simp)

theorem execMbOwnSet_keep (q : Qcp) (s : State) : Keeps s (execMbOwnSet q s) := by
  exact runHost_keep _ (by simp) _ _

@[simp] theorem mbDpCfgCmd_keep (q : Qcp) (s : State) : (mbDpCfgCmd.effect q s).1.keep = s.keep := by
  simp [mbDpCfgCmd]

theorem execMbDpCfg_keep (q : Qcp) (s : State) : Keeps s (execMbDpCfg q s) := by
  exact runHost_keep _ (by simp) _ _

@[simp] theorem startMarch_keep (s : State) (m : March) : (startMarch s m).keep = s.keep := by
  unfold startMarch
  (repeat' split) <;> simp

@[simp] theorem marchRun_keep (q : Qcp) (s : State) : (marchRun q s).1.keep = s.keep := by
  simp [marchRun]

@[simp] theorem marchRunCmd_keep (q : Qcp) (s : State) : (marchRunCmd.effect q s).1.keep = s.keep := by
  simp [marchRunCmd]

theorem execMarchRun_keep (q : Qcp) (s : State) : Keeps s (execMarchRun q s) := by
  exact runHost_keep _ (by simp) _ _

@[simp] theorem mbRepairCmd_keep (q : Qcp) (s : State) : (mbRepairCmd.effect q s).1.keep = s.keep := by
  simp [mbRepairCmd]

theorem execMbRepair_keep (q : Qcp) (s : State) : Keeps s (execMbRepair q s) := by
  exact runHost_keep _ (by simp) _ _

@[simp] theorem State.saveRepairs_keep (s : State) (bank : Nat) : (State.saveRepairs s bank).keep = s.keep := by
  simp [State.saveRepairs]

@[simp] theorem endMarch_keep (s : State) (m : March) : (endMarch s m).keep = s.keep := by
  unfold endMarch
  (repeat' split) <;> simp

@[simp] theorem finishMarch_keep (s : State) (m : March) (r : MarchResult) : (finishMarch s m r).keep = s.keep := by
  simp [finishMarch]

@[simp] theorem marchEnd_keep (fails : List (Nat × Nat)) (micros : Nat) (m : March) (s : State) : (marchEnd fails micros m s).keep = s.keep := by
  unfold marchEnd
  simp
  rw [foldl_keep _ (by intro s x; simp)]
  (repeat' split) <;> simp

theorem execMarchEnd_keep (fails : List (Nat × Nat)) (micros : Nat) (s : State) : Keeps s (execMarchEnd fails micros s) := by
  unfold execMarchEnd
  (repeat' split) <;> simp

@[simp] theorem repairEnd_keep (kind index micros : Nat) (m : March) (s : State) : (repairEnd kind index micros m s).keep = s.keep := by
  unfold repairEnd
  dsimp only
  (repeat' split) <;> simp_all

theorem execRepairEnd_keep (micros : Nat) (s : State) : Keeps s (execRepairEnd micros s) := by
  unfold execRepairEnd
  (repeat' split) <;> simp

@[simp] theorem marchStatusCmd_keep (q : Qcp) (s : State) : (marchStatusCmd.effect q s).1.keep = s.keep := by
  unfold marchStatusCmd
  dsimp only
  (repeat' split) <;> simp_all

theorem execMarchStatus_keep (q : Qcp) (s : State) : Keeps s (execMarchStatus q s) := by
  exact runHost_keep _ (by simp) _ _

@[simp] theorem State.setWindow_keep (s : State) (core n : Nat) (w : Window) : (State.setWindow s core n w).keep = s.keep := by
  simp [State.setWindow]

@[simp] theorem protWindowSetCmd_keep (q : Qcp) (s : State) : (protWindowSetCmd.effect q s).1.keep = s.keep := by
  unfold protWindowSetCmd
  dsimp only
  (repeat' split) <;> simp_all

theorem execProtWindowSet_keep (q : Qcp) (s : State) : Keeps s (execProtWindowSet q s) := by
  exact runHost_keep _ (by simp) _ _

@[simp] theorem protWindowReadCmd_keep (q : Qcp) (s : State) : (protWindowReadCmd.effect q s).1.keep = s.keep := by
  simp [protWindowReadCmd]

theorem execProtWindowRead_keep (q : Qcp) (s : State) : Keeps s (execProtWindowRead q s) := by
  exact runHost_keep _ (by simp) _ _

@[simp] theorem State.modDma_keep (s : State) (n : Nat) (f : DmaChan → DmaChan) : (State.modDma s n f).keep = s.keep := by
  simp [State.modDma]

@[simp] theorem dmaAssignCmd_keep (q : Qcp) (s : State) : (dmaAssignCmd.effect q s).1.keep = s.keep := by
  simp [dmaAssignCmd]

theorem execDmaAssign_keep (q : Qcp) (s : State) : Keeps s (execDmaAssign q s) := by
  exact runHost_keep _ (by simp) _ _

@[simp] theorem dmaStatusCmd_keep (q : Qcp) (s : State) : (dmaStatusCmd.effect q s).1.keep = s.keep := by
  simp [dmaStatusCmd]

theorem execDmaStatus_keep (q : Qcp) (s : State) : Keeps s (execDmaStatus q s) := by
  exact runHost_keep _ (by simp) _ _

@[simp] theorem freezeReadCmd_keep (q : Qcp) (s : State) : (freezeReadCmd.effect q s).1.keep = s.keep := by
  simp [freezeReadCmd]

theorem execFreezeRead_keep (q : Qcp) (s : State) : Keeps s (execFreezeRead q s) := by
  exact runHost_keep _ (by simp) _ _

@[simp] theorem eccReadCmd_keep (q : Qcp) (s : State) : (eccReadCmd.effect q s).1.keep = s.keep := by
  simp [eccReadCmd]

theorem execEccRead_keep (q : Qcp) (s : State) : Keeps s (execEccRead q s) := by
  exact runHost_keep _ (by simp) _ _

@[simp] theorem memReadCmd_keep (q : Qcp) (s : State) : (memReadCmd.effect q s).1.keep = s.keep := by
  have h := State.eccRead_keep s 0x14 (q.u 0 4) (q.u 4 2)
  unfold memReadCmd
  dsimp only
  split <;> simp_all

theorem execMemRead_keep (q : Qcp) (s : State) : Keeps s (execMemRead q s) := by
  exact runHost_keep _ (by simp) _ _

@[simp] theorem memWriteCmd_keep (q : Qcp) (s : State) : (memWriteCmd.effect q s).1.keep = s.keep := by
  simp [memWriteCmd]

theorem execMemWrite_keep (q : Qcp) (s : State) : Keeps s (execMemWrite q s) := by
  exact runHost_keep _ (by simp) _ _

theorem execBankPowerDone_keep (bank : Nat) (s : State) : Keeps s (execBankPowerDone bank s) := by
  unfold execBankPowerDone
  (repeat' split) <;> simp

theorem execHandoverDrain_keep (bank : Nat) (s : State) : Keeps s (execHandoverDrain bank s) := by
  unfold execHandoverDrain
  (repeat' split)
  all_goals (try simp)
  all_goals (apply foldl_keep; intro s x; (repeat' split) <;> simp)

theorem execPatrolScrub_keep (strike : Option (Nat × Bool)) (s : State) : Keeps s (execPatrolScrub strike s) := by
  unfold execPatrolScrub
  dsimp only
  (repeat' split) <;> simp_all

@[simp] theorem collClear_keep (master bank : Nat) (s : State) : (collClear master bank s).keep = s.keep := by
  unfold collClear
  dsimp only
  (repeat' split) <;> simp_all

theorem execMbCollClear_keep (master bank : Nat) (s : State) : Keeps s (execMbCollClear master bank s) := by
  unfold execMbCollClear
  (repeat' split) <;> simp

@[simp] theorem ctrlPower_keep (bank value : Nat) (s : State) : (ctrlPower bank value s).keep = s.keep := by
  unfold ctrlPower
  dsimp only
  (repeat' split) <;> simp_all

theorem execMbCtrlPower_keep (bank value : Nat) (s : State) : Keeps s (execMbCtrlPower bank value s) := by
  unfold execMbCtrlPower
  (repeat' split) <;> simp

end Sys2Proof.Machine
end

