-- ==== Sys2Proof/Laws/KeepInputs.lean ====
section
/-! SUPPORT. What the operations of Machine/Inputs.lean keep: the bundle of `State.keep`. -/

namespace Sys2Proof.Machine
open Sys2Proof

@[simp] theorem State.modInput_keep (s : State) (n : Nat) (f : SampleInput → SampleInput) : (State.modInput s n f).keep = s.keep := by
  simp [State.modInput]

@[simp] theorem State.modSubband_keep (s : State) (n : Nat) (f : Subband → Subband) : (State.modSubband s n f).keep = s.keep := by
  simp [State.modSubband]

@[simp] theorem installWriteCmd_keep (q : Qcp) (s : State) : (installWriteCmd.effect q s).1.keep = s.keep := by
  simp [installWriteCmd]

theorem execInstallWrite_keep (q : Qcp) (s : State) : Keeps s (execInstallWrite q s) := by
  exact runHost_keep _ (by simp) _ _

@[simp] theorem State.openBytes_keep (s : State) (n : Nat) : (State.openBytes s n).1.keep = s.keep := by
  simp [State.openBytes]

@[simp] theorem installReadCmd_keep (q : Qcp) (s : State) : (installReadCmd.effect q s).1.keep = s.keep := by
  unfold installReadCmd
  dsimp only
  (repeat' split) <;> simp_all

theorem execInstallRead_keep (q : Qcp) (s : State) : Keeps s (execInstallRead q s) := by
  exact runHost_keep _ (by simp) _ _

@[simp] theorem State.inputCheck_keep (s : State) (n check value : Nat) : (State.inputCheck s n check value).keep = s.keep := by
  simp [State.inputCheck]

@[simp] theorem State.moveInput_keep (s : State) (n : Nat) (st : InputState) : (State.moveInput s n st).keep = s.keep := by
  unfold State.moveInput
  dsimp only
  (repeat' split) <;> simp_all

@[simp] theorem inputEnable_keep (q : Qcp) (s : State) : (inputEnable q s).1.keep = s.keep := by
  unfold inputEnable
  dsimp only
  (repeat' split) <;> simp_all

@[simp] theorem inputEnableCmd_keep (q : Qcp) (s : State) : (inputEnableCmd.effect q s).1.keep = s.keep := by
  simp [inputEnableCmd]

theorem execInputEnable_keep (q : Qcp) (s : State) : Keeps s (execInputEnable q s) := by
  exact runHost_keep _ (by simp) _ _

@[simp] theorem inputStatsCmd_keep (q : Qcp) (s : State) : (inputStatsCmd.effect q s).1.keep = s.keep := by
  simp [inputStatsCmd]

theorem execInputStats_keep (q : Qcp) (s : State) : Keeps s (execInputStats q s) := by
  exact runHost_keep _ (by simp) _ _

@[simp] theorem State.raiseCheck_keep (s : State) (n bit value : Nat) : (State.raiseCheck s n bit value).keep = s.keep := by
  unfold State.raiseCheck
  dsimp only
  (repeat' split) <;> simp_all

theorem execClkLoss_keep (input : Nat) (s : State) : Keeps s (execClkLoss input s) := by
  unfold execClkLoss
  dsimp only
  (repeat' split) <;> simp_all

theorem execClockResume_keep (input : Nat) (s : State) : Keeps s (execClockResume input s) := by
  unfold execClockResume
  (repeat' split) <;> simp

theorem execAlignmentFixed_keep (input : Nat) (nibbles : List (BitVec 4)) (s : State) : Keeps s (execAlignmentFixed input nibbles s) := by
  unfold execAlignmentFixed
  (repeat' split) <;> simp

@[simp] theorem applyChecks_keep (n : Nat) (e : InstallInput) (b : InputBeat) (r : BeatResult) (s : State) : (applyChecks n e b r s).1.keep = s.keep := by
  have hv (s : State) (f : State → Nat → State) (hf : ∀ s j, (f s j).keep = s.keep) (c : Bool) (v : Nat) (l : List Nat) (g : SampleInput → SampleInput) :
      (if c then (let (s, k) := State.openVal (l.foldl f (s.modInput n g)) 20; s.inputCheck n (k % 11) v) else l.foldl f (s.modInput n g)).keep = s.keep := by
    split
    · simp [foldl_keep f hf]
    · simp [foldl_keep f hf]
  have hc (s : State) (c : Bool) (j v : Nat) : (if c then s.inputCheck n j v else s).keep = s.keep := by split <;> simp
  unfold applyChecks
  refine (hv (s.openVal 23).1 _ ?_ _ _ _ _).trans (State.openVal_keep s 23)
  intro s j
  exact hc _ _ _ _

@[simp] theorem subbandSetCmd_keep (locked : Nat → State → Bool) (q : Qcp) (s : State) : ((subbandSetCmd locked).effect q s).1.keep = s.keep := by
  unfold subbandSetCmd
  dsimp only
  (repeat' split) <;> simp_all

@[simp] theorem State.memPut_keep (s : State) (a : Nat) (bs : List Byte) : (State.memPut s a bs).keep = s.keep := by
  unfold State.memPut
  (repeat' split) <;> simp

@[simp] theorem subbandBeat_keep (hook : Nat → Nat → List Cplx → List Cplx → List Byte → State → State) (n rateIn : Nat) (out : List (Cplx × Bool)) (delivered full beat flags : Nat) (change : Bool) (s : State) (hhook : ∀ z0 z1 z2 z3 z4 z5, (hook z0 z1 z2 z3 z4 z5).keep = z5.keep) : (subbandBeat hook n rateIn out delivered full beat flags change s).keep = s.keep := by
  unfold subbandBeat
  dsimp only
  (repeat' split) <;> simp_all

@[simp] theorem subbandLatch_keep (n : Nat) (s : State) : (subbandLatch n s).keep = s.keep := by
  unfold subbandLatch
  dsimp only
  (repeat' split) <;> simp_all

@[simp] theorem inputBeat_keep (hook : Nat → Nat → List Cplx → List Cplx → List Byte → State → State) (n : Nat) (b : InputBeat) (s : State)
    (hhook : ∀ z0 z1 z2 z3 z4 z5, (hook z0 z1 z2 z3 z4 z5).keep = z5.keep) : (inputBeat hook n b s).keep = s.keep := by
  unfold inputBeat
  dsimp only
  split
  · rfl
  · split
    · rfl
    · simp only [State.modInput_keep]
      rw [foldl_keep _ (by intro s x; exact subbandBeat_keep _ _ _ _ _ _ _ _ _ _ hhook)]
      simp

@[simp] theorem inputsBoundary_keep (hook : Nat → Nat → List Cplx → List Cplx → List Byte → State → State) (bs : List InputBeat) (s : State)
    (hhook : ∀ z0 z1 z2 z3 z4 z5, (hook z0 z1 z2 z3 z4 z5).keep = z5.keep) : (inputsBoundary hook bs s).keep = s.keep := by
  unfold inputsBoundary
  refine (foldl_keep _ (by intro s x; simp) _ _).trans ?_
  simp only [keep_mk]
  exact foldl_keep _ (by intro s x; exact inputBeat_keep _ _ _ _ hhook) _ _

end Sys2Proof.Machine
end

