-- ==== Sys2Proof/Laws/KeepCatalogue.lean ====
section
/-! SUPPORT. What the operations of Machine/Catalogue.lean keep: the bundle of `State.keep`. -/

namespace Sys2Proof.Machine
open Sys2Proof

@[simp] theorem State.setChan_keep (s : State) (n : Nat) (c : Chan) : (State.setChan s n c).keep = s.keep := by
  simp [State.setChan]

@[simp] theorem State.modChan_keep (s : State) (n : Nat) (f : Chan → Chan) : (State.modChan s n f).keep = s.keep := by
  simp [State.modChan]

@[simp] theorem State.reserve_keep (s : State) (n : Nat) (c : Claim) : (State.reserve s n c).keep = s.keep := by
  simp [State.reserve]

end Sys2Proof.Machine
end

