-- ==== Sys2Proof/Laws/KeepClock.lean ====
section
/-! SUPPORT. What the operations of Machine/Clock.lean keep: the bundle of `State.keep`. -/

namespace Sys2Proof.Machine
open Sys2Proof

@[simp] theorem State.modClock_keep (s : State) (f : Clock → Clock) : (State.modClock s f).keep = s.keep := by
  simp [State.modClock]

@[simp] theorem State.timeState_keep (s : State) (prev : Nat) : (State.timeState s prev).keep = s.keep := by
  unfold State.timeState
  dsimp only
  (repeat' split) <;> simp_all

@[simp] theorem State.timeStep_keep (s : State) (dt : Nat) (ps : Int) (kind scale : Nat) : (State.timeStep s dt ps kind scale).keep = s.keep := by
  simp [State.timeStep]

@[simp] theorem State.evalTime_keep (s : State) (te : Nat) (gnss ptp0 ptp1 : Option SourceFix) : (State.evalTime s te gnss ptp0 ptp1).keep = s.keep := by
  simp [State.evalTime]

@[simp] theorem clockBoundary_keep (s : State) : (clockBoundary s).keep = s.keep := by
  unfold clockBoundary
  dsimp only
  (repeat' split) <;> simp_all

@[simp] theorem State.setDelta_keep (s : State) (i : Nat) (v : Rat) : (State.setDelta s i v).keep = s.keep := by
  unfold State.setDelta
  dsimp only
  (repeat' split) <;> simp_all

@[simp] theorem State.setUtc_keep (s : State) (leap : Nat) (delta : Rat) (to_ : Option (Nat × Nat)) : (State.setUtc s leap delta to_).keep = s.keep := by
  simp [State.setUtc]

end Sys2Proof.Machine
end

