-- ==== Sys2Proof/Laws/KeepTimeIo.lean ====
section
/-! SUPPORT. What the operations of Machine/TimeIo.lean keep: the bundle of `State.keep`. -/

namespace Sys2Proof.Machine
open Sys2Proof

@[simp] theorem timeConfigCmd_keep (q : Qcp) (s : State) : (timeConfigCmd.effect q s).1.keep = s.keep := by
  simp [timeConfigCmd]

theorem execTimeConfig_keep (q : Qcp) (s : State) : Keeps s (execTimeConfig q s) := by
  exact runHost_keep _ (by simp) _ _

@[simp] theorem timeStatusCmd_keep (q : Qcp) (s : State) : (timeStatusCmd.effect q s).1.keep = s.keep := by
  simp [timeStatusCmd]

theorem execTimeStatus_keep (q : Qcp) (s : State) : Keeps s (execTimeStatus q s) := by
  exact runHost_keep _ (by simp) _ _

@[simp] theorem State.modTp_keep (s : State) (n : Nat) (f : TpOut → TpOut) : (State.modTp s n f).keep = s.keep := by
  simp [State.modTp]

@[simp] theorem State.modFout_keep (s : State) (f : FoutOut → FoutOut) : (State.modFout s f).keep = s.keep := by
  simp [State.modFout]

@[simp] theorem tpConfigCmd_keep (q : Qcp) (s : State) : (tpConfigCmd.effect q s).1.keep = s.keep := by
  simp [tpConfigCmd]

theorem execTpConfig_keep (q : Qcp) (s : State) : Keeps s (execTpConfig q s) := by
  exact runHost_keep _ (by simp) _ _

@[simp] theorem State.tpMark_keep (s : State) (n : Nat) (edge : Int) (grid time quality kind : Nat) (same first : Bool) : (State.tpMark s n edge grid time quality kind same first).keep = s.keep := by
  simp [State.tpMark]

theorem execTimePulseEdge_keep (tp grid : Nat) (sameTick : Bool) (s : State) : Keeps s (execTimePulseEdge tp grid sameTick s) := by
  unfold execTimePulseEdge
  dsimp only
  (repeat' split) <;> simp_all

@[simp] theorem foutConfigCmd_keep (q : Qcp) (s : State) : (foutConfigCmd.effect q s).1.keep = s.keep := by
  simp [foutConfigCmd]

theorem execFoutConfig_keep (q : Qcp) (s : State) : Keeps s (execFoutConfig q s) := by
  exact runHost_keep _ (by simp) _ _

theorem execFoutEdge_keep (grid : Nat) (s : State) : Keeps s (execFoutEdge grid s) := by
  unfold execFoutEdge
  dsimp only
  (repeat' split) <;> simp_all

theorem execStepInstant_keep (s : State) : Keeps s (execStepInstant s) := by
  unfold execStepInstant
  dsimp only
  (repeat' split) <;> simp_all

theorem execLeapSecond_keep (s : State) : Keeps s (execLeapSecond s) := by
  unfold execLeapSecond
  dsimp only
  (repeat' split) <;> simp_all

theorem execHoldoverLimit_keep (s : State) : Keeps s (execHoldoverLimit s) := by
  unfold execHoldoverLimit
  dsimp only
  (repeat' split) <;> simp_all

theorem execWatchTimeEval_keep (s : State) : Keeps s (execWatchTimeEval s) := by
  unfold execWatchTimeEval
  (repeat' split) <;> simp

@[simp] theorem State.modEv_keep (s : State) (n : Nat) (f : EvInput → EvInput) : (State.modEv s n f).keep = s.keep := by
  simp [State.modEv]

@[simp] theorem evConfigCmd_keep (q : Qcp) (s : State) : (evConfigCmd.effect q s).1.keep = s.keep := by
  simp [evConfigCmd]

theorem execEvConfig_keep (q : Qcp) (s : State) : Keeps s (execEvConfig q s) := by
  exact runHost_keep _ (by simp) _ _

@[simp] theorem evReadCmd_keep (q : Qcp) (s : State) : (evReadCmd.effect q s).1.keep = s.keep := by
  simp [evReadCmd]

theorem execEvRead_keep (q : Qcp) (s : State) : Keeps s (execEvRead q s) := by
  exact runHost_keep _ (by simp) _ _

@[simp] theorem capture_keep (n : Nat) (rising : Bool) (pin : Nat) (same : Bool) (s : State) : (capture n rising pin same s).keep = s.keep := by
  have h1 (s : State) (c : Prop) [Decidable c] (o : Option Int) (f : Int → Clock → Clock) :
      (if c then (match o with | some t => s.modClock (f t) | none => s) else s).keep = s.keep := by
    (repeat' split) <;> simp
  unfold capture
  dsimp only
  split
  · rfl
  · split
    · simp
    · have h2 (s : State) (a b : Prop) [Decidable a] [Decidable b] (r : EvRec) :
          (if a then (if b then s.notifyF 0x8930 same r.bytes else s) else { s with uc := s.uc.evcPush r }).keep = s.keep := by
        (repeat' split) <;> simp
      exact (h2 _ _ _ _).trans ((State.modEv_keep _ _ _).trans (h1 _ _ _ _))

end Sys2Proof.Machine
end

