-- ==== Sys2Proof/Laws/KeepFabric.lean ====
section
/-! SUPPORT. What the operations of Machine/Fabric.lean keep: the bundle of `State.keep`. -/

namespace Sys2Proof.Machine
open Sys2Proof

@[simp] theorem chanStartCmd_keep (q : Qcp) (s : State) : (chanStartCmd.effect q s).1.keep = s.keep := by
  simp [chanStartCmd]

theorem execChanStart_keep (q : Qcp) (s : State) : Keeps s (execChanStart q s) := by
  exact runHost_keep _ (by simp) _ _

@[simp] theorem stopChan_keep (s : State) (n : Nat) : (stopChan s n).keep = s.keep := by
  unfold stopChan
  dsimp only
  (repeat' split) <;> simp_all

@[simp] theorem chanStopCmd_keep (q : Qcp) (s : State) : (chanStopCmd.effect q s).1.keep = s.keep := by
  unfold chanStopCmd
  (repeat' split)
  all_goals (try simp)
  all_goals (apply foldl_keep; intro s x; (repeat' split) <;> simp)

theorem execChanStop_keep (q : Qcp) (s : State) : Keeps s (execChanStop q s) := by
  exact runHost_keep _ (by simp) _ _

@[simp] theorem chanReadCmd_keep (q : Qcp) (s : State) : (chanReadCmd.effect q s).1.keep = s.keep := by
  simp [chanReadCmd]

theorem execChanRead_keep (q : Qcp) (s : State) : Keeps s (execChanRead q s) := by
  exact runHost_keep _ (by simp) _ _

@[simp] theorem chanModifyCmd_keep (q : Qcp) (s : State) : (chanModifyCmd.effect q s).1.keep = s.keep := by
  simp [chanModifyCmd]

theorem execChanModify_keep (q : Qcp) (s : State) : Keeps s (execChanModify q s) := by
  exact runHost_keep _ (by simp) _ _

/-- A write of the fabric's registers keeps the bundle. -/
theorem fabric_keep (s : State) (f : Fabric) : ({ s with fabric := f } : State).keep = s.keep := rfl

@[simp] theorem fabricCfgCmd_keep (q : Qcp) (s : State) : (fabricCfgCmd.effect q s).1.keep = s.keep := by
  refine (fabric_keep (if dumpMoves q s then
    (if s.fabric.placed then s.freeBanks s.fabric.dumpFirst (dumpBanks s.fabric.dumpDepth) else s).giveBanks (q.u 0 1) (dumpBanks (q.u 1 1)) 0x08 .dumpRing
    else s) _).trans ?_
  refine ite_cases (fun x : State => x.keep = s.keep) _ ?_ rfl
  refine (State.giveBanks_keep _ _ _ _ _).trans ?_
  exact ite_cases (fun x : State => x.keep = s.keep) _ (State.freeBanks_keep _ _ _) rfl

theorem execFabricCfg_keep (q : Qcp) (s : State) : Keeps s (execFabricCfg q s) := by
  exact runHost_keep _ (by simp) _ _

@[simp] theorem fabricStatusCmd_keep (q : Qcp) (s : State) : (fabricStatusCmd.effect q s).1.keep = s.keep := by
  simp [fabricStatusCmd]

theorem execFabricStatus_keep (q : Qcp) (s : State) : Keeps s (execFabricStatus q s) := by
  exact runHost_keep _ (by simp) _ _

@[simp] theorem codeLoadCmd_keep (q : Qcp) (s : State) : (codeLoadCmd.effect q s).1.keep = s.keep := by
  simp [codeLoadCmd]

theorem execCodeLoad_keep (q : Qcp) (s : State) : Keeps s (execCodeLoad q s) := by
  exact runHost_keep _ (by simp) _ _

@[simp] theorem writeSlot_keep (s : State) (group beat lanes : Nat) (chans : Nat → Chan) (dumps : List Dump) : (writeSlot s group beat lanes chans dumps).keep = s.keep := by
  unfold writeSlot
  (repeat' split) <;> simp

@[simp] theorem sendOverruns_keep (s : State) : (sendOverruns s).keep = s.keep := by
  unfold sendOverruns
  (repeat' split) <;> simp

@[simp] theorem logOverruns_keep (rs : List OverrunRec) (s : State) : (logOverruns rs s).keep = s.keep := by
  simp [logOverruns]

@[simp] theorem fabricBoundary_keep (short : List (Nat × Nat)) (s : State) : (fabricBoundary short s).keep = s.keep := by
  unfold fabricBoundary
  split
  · rfl
  · refine (logOverruns_keep _ _).trans ?_
    refine (fabric_keep _ _).trans ?_
    refine (foldl_keep _ (fun s x => ?_) _ _).trans ?_
    · exact writeSlot_keep _ _ _ _ _ _
    · exact (fabric_keep _ _).trans (sendOverruns_keep s)

end Sys2Proof.Machine
end

