-- ==== Sys2Proof/Laws/KeepGrinder.lean ====
section
/-! SUPPORT. What the operations of Machine/Grinder.lean keep: the bundle of `State.keep`. -/

namespace Sys2Proof.Machine
open Sys2Proof

@[simp] theorem State.setEntry_keep (s : State) (n : Nat) (e : Entry) : (State.setEntry s n e).keep = s.keep := by
  simp [State.setEntry]

@[simp] theorem ledgerDone_keep (n : Nat) (s : State) : (ledgerDone n s).keep = s.keep := by
  unfold ledgerDone
  dsimp only
  (repeat' split) <;> simp_all

@[simp] theorem moveEntry_keep (n : Nat) (st : EntryState) (flags : BitVec 8) (s : State) : (moveEntry n st flags s).keep = s.keep := by
  simp [moveEntry]

@[simp] theorem failWaiting_keep (n : Nat) (flags : BitVec 8) (s : State) : (failWaiting n flags s).keep = s.keep := by
  unfold failWaiting
  (repeat' split) <;> simp

@[simp] theorem failWindow_keep (w : Nat) (s : State) : (failWindow w s).keep = s.keep := by
  unfold failWindow
  (repeat' split)
  all_goals (try simp)
  all_goals (apply foldl_keep; intro s x; (repeat' split) <;> simp)

@[simp] theorem failSubband_keep (sb : Nat) (s : State) : (failSubband sb s).keep = s.keep := by
  unfold failSubband
  (repeat' split)
  all_goals (try simp)
  all_goals (apply foldl_keep; intro s x; (repeat' split) <;> simp)

@[simp] theorem grinderCfgCmd_keep (q : Qcp) (s : State) : (grinderCfgCmd.effect q s).1.keep = s.keep := by
  unfold grinderCfgCmd
  dsimp only
  (repeat' split) <;> simp_all

theorem execGrinderCfg_keep (q : Qcp) (s : State) : Keeps s (execGrinderCfg q s) := by
  exact runHost_keep _ (by simp) _ _

@[simp] theorem grinderStatusCmd_keep (q : Qcp) (s : State) : (grinderStatusCmd.effect q s).1.keep = s.keep := by
  simp [grinderStatusCmd]

theorem execGrinderStatus_keep (q : Qcp) (s : State) : Keeps s (execGrinderStatus q s) := by
  exact runHost_keep _ (by simp) _ _

@[simp] theorem ledgerWriteCmd_keep (q : Qcp) (s : State) : (ledgerWriteCmd.effect q s).1.keep = s.keep := by
  unfold ledgerWriteCmd
  (repeat' split)
  all_goals (try simp)
  all_goals (apply foldl_keep; intro s x; (repeat' split) <;> simp)

theorem execLedgerWrite_keep (q : Qcp) (s : State) : Keeps s (execLedgerWrite q s) := by
  exact runHost_keep _ (by simp) _ _

@[simp] theorem ledgerReadCmd_keep (q : Qcp) (s : State) : (ledgerReadCmd.effect q s).1.keep = s.keep := by
  simp [ledgerReadCmd]

theorem execLedgerRead_keep (q : Qcp) (s : State) : Keeps s (execLedgerRead q s) := by
  exact runHost_keep _ (by simp) _ _

@[simp] theorem ledgerCancelCmd_keep (q : Qcp) (s : State) : (ledgerCancelCmd.effect q s).1.keep = s.keep := by
  unfold ledgerCancelCmd
  (repeat' split)
  all_goals (try simp)
  all_goals (apply foldl_keep; intro s x; (repeat' split) <;> simp)

theorem execLedgerCancel_keep (q : Qcp) (s : State) : Keeps s (execLedgerCancel q s) := by
  exact runHost_keep _ (by simp) _ _

@[simp] theorem ledgerFreeCmd_keep (q : Qcp) (s : State) : (ledgerFreeCmd.effect q s).1.keep = s.keep := by
  unfold ledgerFreeCmd
  (repeat' split)
  all_goals (try simp)
  all_goals (apply foldl_keep; intro s x; (repeat' split) <;> simp)

theorem execLedgerFree_keep (q : Qcp) (s : State) : Keeps s (execLedgerFree q s) := by
  exact runHost_keep _ (by simp) _ _

@[simp] theorem acqPlanCmd_keep (q : Qcp) (s : State) : (acqPlanCmd.effect q s).1.keep = s.keep := by
  simp [acqPlanCmd]

theorem execAcqPlan_keep (q : Qcp) (s : State) : Keeps s (execAcqPlan q s) := by
  exact runHost_keep _ (by simp) _ _

@[simp] theorem dispatch_keep (pipe n : Nat) (e : Entry) (s : State) : (dispatch pipe n e s).keep = s.keep := by
  unfold dispatch
  dsimp only
  (repeat' split) <;> simp_all

theorem execEntryDispatch_keep (pipe : Nat) (s : State) : Keeps s (execEntryDispatch pipe s) := by
  unfold execEntryDispatch
  (repeat' split) <;> simp

@[simp] theorem freePipe_keep (pipe : Nat) (s : State) : (freePipe pipe s).keep = s.keep := by
  simp [freePipe]

theorem execGrinderEntryDone_keep (pipe : Nat) (result : SearchResult) (s : State) : Keeps s (execGrinderEntryDone pipe result s) := by
  unfold execGrinderEntryDone
  dsimp only
  (repeat' split) <;> simp_all

theorem execEntryCancelled_keep (pipe : Nat) (s : State) : Keeps s (execEntryCancelled pipe s) := by
  unfold execEntryCancelled
  (repeat' split) <;> simp

@[simp] theorem handover_keep (n : Nat) (s : State) : (handover n s).keep = s.keep := by
  unfold handover
  dsimp only
  (repeat' split) <;> simp_all

theorem execHandover_keep (index : Nat) (s : State) : Keeps s (execHandover index s) := by
  unfold execHandover
  dsimp only
  (repeat' split) <;> simp_all

theorem execHandoverExpired_keep (index : Nat) (s : State) : Keeps s (execHandoverExpired index s) := by
  unfold execHandoverExpired
  dsimp only
  (repeat' split) <;> simp_all

@[simp] theorem grinderBoundary_keep (s : State) : (grinderBoundary s).keep = s.keep := by
  unfold grinderBoundary
  (repeat' split) <;> simp

end Sys2Proof.Machine
end

