-- ==== Sys2Proof/Laws/KeepMultipath.lean ====
section
/-! SUPPORT. What the operations of Machine/Multipath.lean keep: the bundle of `State.keep`. -/

namespace Sys2Proof.Machine
open Sys2Proof

@[simp] theorem State.setTrack_keep (s : State) (n : Nat) (t : Track) : (State.setTrack s n t).keep = s.keep := by
  simp [State.setTrack]

@[simp] theorem State.setMpChan_keep (s : State) (n : Nat) (m : MpChan) : (State.setMpChan s n m).keep = s.keep := by
  simp [State.setMpChan]

@[simp] theorem closeProfile_keep (n : Nat) (s : State) : (closeProfile n s).keep = s.keep := by
  unfold closeProfile
  dsimp only
  (repeat' split) <;> simp_all

@[simp] theorem mpDump_keep (d : Dump) (s : State) : (mpDump d s).keep = s.keep := by
  unfold mpDump
  dsimp only
  (repeat' split) <;> simp_all

@[simp] theorem mpBoundary_keep (s : State) : (mpBoundary s).keep = s.keep := by
  unfold mpBoundary
  (repeat' split)
  all_goals (try simp)
  all_goals (apply foldl_keep; intro s x; (repeat' split) <;> simp)

theorem execMpFit_keep (core : Nat) (fit : MpFit) (s : State) : Keeps s (execMpFit core fit s) := by
  unfold execMpFit
  dsimp only
  (repeat' split) <;> simp_all

@[simp] theorem mpCfgCmd_keep (q : Qcp) (s : State) : (mpCfgCmd.effect q s).1.keep = s.keep := by
  simp [mpCfgCmd]

theorem execMpCfg_keep (q : Qcp) (s : State) : Keeps s (execMpCfg q s) := by
  exact runHost_keep _ (by simp) _ _

@[simp] theorem mpReadCmd_keep (q : Qcp) (s : State) : (mpReadCmd.effect q s).1.keep = s.keep := by
  simp [mpReadCmd]

theorem execMpRead_keep (q : Qcp) (s : State) : Keeps s (execMpRead q s) := by
  exact runHost_keep _ (by simp) _ _

end Sys2Proof.Machine
end

