-- ==== Sys2Proof/Laws/KeepTracking.lean ====
section
/-! SUPPORT. What the operations of Machine/Tracking.lean keep: the bundle of `State.keep`. -/

namespace Sys2Proof.Machine
open Sys2Proof

@[simp] theorem trackProfileCmd_keep (q : Qcp) (s : State) : (trackProfileCmd.effect q s).1.keep = s.keep := by
  simp [trackProfileCmd]

theorem execTrackProfile_keep (q : Qcp) (s : State) : Keeps s (execTrackProfile q s) := by
  exact runHost_keep _ (by simp) _ _

@[simp] theorem trackAssignCmd_keep (q : Qcp) (s : State) : (trackAssignCmd.effect q s).1.keep = s.keep := by
  unfold trackAssignCmd
  (repeat' split)
  all_goals (try simp)
  all_goals (apply foldl_keep; intro s x; (repeat' split) <;> simp)

theorem execTrackAssign_keep (q : Qcp) (s : State) : Keeps s (execTrackAssign q s) := by
  exact runHost_keep _ (by simp) _ _

@[simp] theorem trackProfileReadCmd_keep (q : Qcp) (s : State) : (trackProfileReadCmd.effect q s).1.keep = s.keep := by
  simp [trackProfileReadCmd]

theorem execTrackProfileRead_keep (q : Qcp) (s : State) : Keeps s (execTrackProfileRead q s) := by
  exact runHost_keep _ (by simp) _ _

@[simp] theorem trackStatusCmd_keep (q : Qcp) (s : State) : (trackStatusCmd.effect q s).1.keep = s.keep := by
  simp [trackStatusCmd]

theorem execTrackStatus_keep (q : Qcp) (s : State) : Keeps s (execTrackStatus q s) := by
  exact runHost_keep _ (by simp) _ _

@[simp] theorem serveDump_keep (late : Option Nat) (d : Dump) (s : State) : (serveDump late d s).keep = s.keep := by
  have h (c : Chan) (t : Track) : (mpDump d ((s.setChan d.channel c).setTrack d.channel t)).keep = s.keep := by simp
  unfold serveDump
  extract_lets n c t
  split
  · rfl
  · split
    · rfl
    · exact h _ _

@[simp] theorem markServed_keep (d : Dump) (s : State) : (markServed d s).keep = s.keep := by
  simp [markServed]

theorem execDumpService_keep (core count : Nat) (late : Option Nat) (s : State) : Keeps s (execDumpService core count late s) := by
  have h (l : List Dump) (s : State) : (l.foldl (fun s d => markServed d (serveDump none d s)) s).keep = s.keep := foldl_keep _ (by intro s x; simp) _ _
  unfold execDumpService
  split
  · exact rfl
  · dsimp only
    split <;> simp [h]

theorem execPullinTimeout_keep (channel : Nat) (s : State) : Keeps s (execPullinTimeout channel s) := by
  unfold execPullinTimeout
  dsimp only
  (repeat' split) <;> simp_all

theorem execCoastTimeout_keep (channel : Nat) (s : State) : Keeps s (execCoastTimeout channel s) := by
  unfold execCoastTimeout
  dsimp only
  (repeat' split) <;> simp_all

@[simp] theorem chanStateNotices_keep (ns : List Nat) (s : State) : (chanStateNotices ns s).keep = s.keep := by
  have go (k : Nat) (ns : List Nat) (s : State) : (chanStateNotices.go k ns s).keep = s.keep := by
    induction k generalizing ns s with
    | zero => rfl
    | succ k ih =>
      cases ns with
      | nil => rfl
      | cons x xs => exact (ih _ _).trans (by simp)
  exact go _ _ _

theorem execChannelRelease_keep (channel : Nat) (s : State) : Keeps s (execChannelRelease channel s) := by
  unfold execChannelRelease
  dsimp only
  (repeat' split) <;> simp_all

@[simp] theorem reacquire_keep (n : Nat) (s : State) : (reacquire n s).keep = s.keep := by
  unfold reacquire
  dsimp only
  (repeat' split) <;> simp_all

@[simp] theorem trackBoundary_keep (s : State) : (trackBoundary s).keep = s.keep := by
  unfold trackBoundary
  dsimp only
  rw [chanStateNotices_keep, foldl_keep _ (by intro s x; simp), foldl_keep _ (by intro s x; split <;> simp), foldl_keep _ (by intro s x; simp)]
  simp

end Sys2Proof.Machine
end

