-- ==== Sys2Proof/Laws/KeepCarafe.lean ====
section
/-! SUPPORT. What the operations of Machine/Carafe.lean keep: the bundle of `State.keep`. -/

namespace Sys2Proof.Machine
open Sys2Proof

@[simp] theorem State.modCarafe_keep (s : State) (f : Carafe → Carafe) : (State.modCarafe s f).keep = s.keep := by
  simp [State.modCarafe]

@[simp] theorem State.modWindow_keep (s : State) (w : Nat) (f : HistWindow → HistWindow) : (State.modWindow s w f).keep = s.keep := by
  simp [State.modWindow]

@[simp] theorem State.carafeEvent_keep (s : State) (w kind : Nat) (source : Option Nat) : (State.carafeEvent s w kind source).keep = s.keep := by
  unfold State.carafeEvent
  dsimp only
  (repeat' split) <;> simp_all

@[simp] theorem carafeCfg_keep (q : Qcp) (s : State) : (carafeCfg q s).1.keep = s.keep := by
  unfold carafeCfg
  dsimp only
  (repeat' split) <;> simp_all

@[simp] theorem carafeCfgCmd_keep (q : Qcp) (s : State) : (carafeCfgCmd.effect q s).1.keep = s.keep := by
  simp [carafeCfgCmd]

theorem execCarafeCfg_keep (q : Qcp) (s : State) : Keeps s (execCarafeCfg q s) := by
  exact runHost_keep _ (by simp) _ _

@[simp] theorem carafeStatusCmd_keep (q : Qcp) (s : State) : (carafeStatusCmd.effect q s).1.keep = s.keep := by
  simp [carafeStatusCmd]

theorem execCarafeStatus_keep (q : Qcp) (s : State) : Keeps s (execCarafeStatus q s) := by
  exact runHost_keep _ (by simp) _ _

@[simp] theorem markMix_keep (w : Nat) (s : State) : (markMix w s).keep = s.keep := by
  unfold markMix
  dsimp only
  apply foldl_keep
  intro s x
  split
  · apply foldl_keep
    intro s x
    split <;> simp
  · rfl

@[simp] theorem dropTrigger_keep (s : State) (bit : Nat) : (dropTrigger s bit).keep = s.keep := by
  simp [dropTrigger]

@[simp] theorem openWindow_keep (s : State) (bit at_ bt : Nat) : (openWindow s bit at_ bt).keep = s.keep := by
  unfold openWindow
  dsimp only
  (repeat' split) <;> simp_all

@[simp] theorem State.carafeTrigger_keep (s : State) (bit at_ : Nat) : (State.carafeTrigger s bit at_).keep = s.keep := by
  unfold State.carafeTrigger
  dsimp only
  (repeat' split) <;> simp_all

@[simp] theorem carafeTriggerCmd_keep (q : Qcp) (s : State) : (carafeTriggerCmd.effect q s).1.keep = s.keep := by
  simp [carafeTriggerCmd]

theorem execCarafeTrigger_keep (q : Qcp) (s : State) : Keeps s (execCarafeTrigger q s) := by
  exact runHost_keep _ (by simp) _ _

@[simp] theorem carafeReleaseCmd_keep (q : Qcp) (s : State) : (carafeReleaseCmd.effect q s).1.keep = s.keep := by
  unfold carafeReleaseCmd
  dsimp only
  (repeat' split) <;> simp_all

theorem execCarafeRelease_keep (q : Qcp) (s : State) : Keeps s (execCarafeRelease q s) := by
  exact runHost_keep _ (by simp) _ _

@[simp] theorem carafeReadCmd_keep (q : Qcp) (s : State) : (carafeReadCmd.effect q s).1.keep = s.keep := by
  unfold carafeReadCmd
  dsimp only
  (repeat' split) <;> simp_all

theorem execCarafeRead_keep (q : Qcp) (s : State) : Keeps s (execCarafeRead q s) := by
  exact runHost_keep _ (by simp) _ _

@[simp] theorem freezeWindow_keep (w : Nat) (s : State) : (freezeWindow w s).keep = s.keep := by
  unfold freezeWindow
  dsimp only
  (repeat' split) <;> simp_all

theorem execWindowFrozen_keep (window : Nat) (s : State) : Keeps s (execWindowFrozen window s) := by
  unfold execWindowFrozen
  (repeat' split) <;> simp

@[simp] theorem releaseWindow_keep (w : Nat) (s : State) : (releaseWindow w s).keep = s.keep := by
  unfold releaseWindow
  dsimp only
  (repeat' split) <;> simp_all

theorem execWindowRelease_keep (window : Nat) (s : State) : Keeps s (execWindowRelease window s) := by
  unfold execWindowRelease
  (repeat' split) <;> simp

@[simp] theorem latchArm_keep (s : State) : (latchArm s).keep = s.keep := by
  have h (s : State) (f : State → Nat → State) (hf : ∀ s j, (f s j).keep = s.keep) (a b : Bool) (g : Carafe → Carafe) :
      (if a then (List.range 8).foldl f s else if b then s.modCarafe g else s).keep = s.keep := by
    (repeat' split) <;> simp [foldl_keep f hf]
  unfold latchArm
  extract_lets k on s1 s2
  have h1 : s1.keep = s.keep := by
    apply h
    intro s x
    dsimp only
    split <;> simp
  have h2 : s2.keep = s.keep := (State.modCarafe_keep _ _).trans h1
  (repeat' split) <;> simp [h2]

@[simp] theorem carafeBoundary_keep (s : State) : (carafeBoundary s).keep = s.keep := by
  unfold carafeBoundary
  dsimp only
  rw [latchArm_keep, foldl_keep _ (by intro s x; simp), foldl_keep _ (by intro s x; simp)]

@[simp] theorem startSlot_keep (s : State) : (startSlot s).keep = s.keep := by
  unfold startSlot
  (repeat' split) <;> simp

@[simp] theorem carafeHook_keep (n scale : Nat) (filt ys : List Cplx) (tag : List Byte) (s : State) : (carafeHook n scale filt ys tag s).keep = s.keep := by
  unfold carafeHook
  dsimp only
  (repeat' split) <;> simp_all

@[simp] theorem loseCarafe_keep (s : State) : (loseCarafe s).keep = s.keep := by
  unfold loseCarafe
  extract_lets s1 s2
  have h1 : s1.keep = s.keep := by
    apply foldl_keep
    intro s x
    split <;> simp
  have h2 : s2.keep = s.keep := by
    simp only [s2]
    split <;> simp [h1]
  simp [h2]

theorem execSubbandSet_keep (q : Qcp) (s : State) : Keeps s (execSubbandSet q s) := by
  refine runHost_keep _ ?_ _ _
  intro q s
  dsimp only
  split <;> simp

theorem execEventCapture_keep (input : Nat) (rising : Bool) (pin : Nat) (sameTick : Bool) (s : State) : Keeps s (execEventCapture input rising pin sameTick s) := by
  unfold execEventCapture
  dsimp only
  (repeat' split) <;> simp_all

end Sys2Proof.Machine
end

