-- ==== Sys2Proof/Laws/KeepIntegrity.lean ====
section
/-! SUPPORT. What the operations of Machine/Integrity.lean keep: the bundle of `State.keep`. -/

namespace Sys2Proof.Machine
open Sys2Proof

@[simp] theorem State.modNav_keep (s : State) (f : NavSys → NavSys) : (State.modNav s f).keep = s.keep := by
  simp [State.modNav]

@[simp] theorem interfCfgCmd_keep (q : Qcp) (s : State) : (interfCfgCmd.effect q s).1.keep = s.keep := by
  simp [interfCfgCmd]

theorem execInterfCfg_keep (q : Qcp) (s : State) : Keeps s (execInterfCfg q s) := by
  exact runHost_keep _ (by simp) _ _

@[simp] theorem State.setInterf_keep (s : State) (n : Nat) (i : Interf) : (State.setInterf s n i).keep = s.keep := by
  simp [State.setInterf]

@[simp] theorem interfStatusCmd_keep (q : Qcp) (s : State) : (interfStatusCmd.effect q s).1.keep = s.keep := by
  simp [interfStatusCmd]

theorem execInterfStatus_keep (q : Qcp) (s : State) : Keeps s (execInterfStatus q s) := by
  exact runHost_keep _ (by simp) _ _

@[simp] theorem interfBeat_keep (n : Nat) (s : State) : (interfBeat n s).keep = s.keep := by
  unfold interfBeat
  dsimp only
  (repeat' split) <;> simp_all

@[simp] theorem historyBeat_keep (n : Nat) (s : State) : (historyBeat n s).keep = s.keep := by
  unfold historyBeat
  (repeat' split) <;> simp

@[simp] theorem integrityBoundary_keep (s : State) : (integrityBoundary s).keep = s.keep := by
  unfold integrityBoundary
  (repeat' split)
  all_goals (try simp)
  all_goals (apply foldl_keep; intro s x; (repeat' split) <;> simp)

@[simp] theorem spoofCfgCmd_keep (q : Qcp) (s : State) : (spoofCfgCmd.effect q s).1.keep = s.keep := by
  simp [spoofCfgCmd]

theorem execSpoofCfg_keep (q : Qcp) (s : State) : Keeps s (execSpoofCfg q s) := by
  exact runHost_keep _ (by simp) _ _

@[simp] theorem spoofStatusCmd_keep (q : Qcp) (s : State) : (spoofStatusCmd.effect q s).1.keep = s.keep := by
  simp [spoofStatusCmd]

theorem execSpoofStatus_keep (q : Qcp) (s : State) : Keeps s (execSpoofStatus q s) := by
  exact runHost_keep _ (by simp) _ _

@[simp] theorem State.setNavChan_keep (s : State) (n : Nat) (c : NavChan) : (State.setNavChan s n c).keep = s.keep := by
  simp [State.setNavChan]

@[simp] theorem refreshFlags_keep (clear : Bool) (s : State) : (refreshFlags clear s).keep = s.keep := by
  simp [refreshFlags]

@[simp] theorem evaluateSpoof_keep (s : State) : (evaluateSpoof s).keep = s.keep := by
  unfold evaluateSpoof
  dsimp only
  (repeat' split) <;> simp_all

theorem execSpoofEvaluation_keep (s : State) : Keeps s (execSpoofEvaluation s) := by
  unfold execSpoofEvaluation
  (repeat' split) <;> simp

@[simp] theorem osnmaKeyCmd_keep (q : Qcp) (s : State) : (osnmaKeyCmd.effect q s).1.keep = s.keep := by
  simp [osnmaKeyCmd]

theorem execOsnmaKey_keep (q : Qcp) (s : State) : Keeps s (execOsnmaKey q s) := by
  exact runHost_keep _ (by simp) _ _

@[simp] theorem osnmaCfgCmd_keep (q : Qcp) (s : State) : (osnmaCfgCmd.effect q s).1.keep = s.keep := by
  simp [osnmaCfgCmd]

theorem execOsnmaCfg_keep (q : Qcp) (s : State) : Keeps s (execOsnmaCfg q s) := by
  exact runHost_keep _ (by simp) _ _

@[simp] theorem osnmaStatusCmd_keep (q : Qcp) (s : State) : (osnmaStatusCmd.effect q s).1.keep = s.keep := by
  simp [osnmaStatusCmd]

theorem execOsnmaStatus_keep (q : Qcp) (s : State) : Keeps s (execOsnmaStatus q s) := by
  exact runHost_keep _ (by simp) _ _

@[simp] theorem State.modOsnma_keep (s : State) (f : Osnma → Osnma) : (State.modOsnma s f).keep = s.keep := by
  simp [State.modOsnma]

@[simp] theorem State.modOsnmaSat_keep (s : State) (sat : Nat) (f : OsnmaSat → OsnmaSat) : (State.modOsnmaSat s sat f).keep = s.keep := by
  simp [State.modOsnmaSat]

@[simp] theorem State.osnmaEvent_keep (s : State) (kind sat adkd gst : Nat) : (State.osnmaEvent s kind sat adkd gst).keep = s.keep := by
  simp [State.osnmaEvent]

@[simp] theorem updateOsnma_keep (gst : Nat) (s : State) : (updateOsnma gst s).keep = s.keep := by
  unfold updateOsnma
  dsimp only
  (repeat' split) <;> simp_all

@[simp] theorem testTag_keep (sat adkd bits : Nat) (cross ok : Bool) (gst : Nat) (s : State) : (testTag sat adkd bits cross ok gst s).keep = s.keep := by
  unfold testTag
  (repeat' split) <;> simp

@[simp] theorem heldTags_keep (s : State) : (heldTags s).keep = s.keep := by
  unfold heldTags
  (repeat' split)
  all_goals (try simp)
  all_goals (apply foldl_keep; intro s x; (repeat' split) <;> simp)

@[simp] theorem osnmaNewData_keep (sat : Nat) (s : State) : (osnmaNewData sat s).keep = s.keep := by
  simp [osnmaNewData]

@[simp] theorem osnmaSubframe_keep (f : OsnmaSubframe) (s : State) : (osnmaSubframe f s).keep = s.keep := by
  unfold osnmaSubframe
  split
  · rfl
  · extract_lets changed s1 s2 s3 s4 s5 src s6 s7 s8 hold
    have h2 : s2.keep = s.keep := by simp only [s2, s1]; split <;> simp
    have h3 : s3.keep = s.keep := by simp only [s3]; split <;> simp [h2]
    have h4 : s4.keep = s.keep := by simp [s4, h3]
    have h5 : s5.keep = s.keep := by simp only [s5]; (repeat' split) <;> simp [h4]
    have h6 : s6.keep = s.keep := by simp only [s6, src]; split <;> simp [h5]
    have h8 : s8.keep = s.keep := by simp [s8, s7, h6]
    clear_value s8
    split
    · exact h4
    · split
      · simp [hold, h8]
      · exact (foldl_keep _ (by intro s x; simp) _ _).trans ((State.modOsnma_keep _ _).trans h8)
      · simp [h8]
      · exact h8

end Sys2Proof.Machine
end

