-- ==== Sys2Proof/Laws/KeepFreeze.lean ====
section
/-! SUPPORT. What the operations of Machine/Freeze.lean keep: the bundle of `State.keep`. -/

namespace Sys2Proof.Machine
open Sys2Proof

@[simp] theorem State.modCore_keep (s : State) (n : Nat) (f : Core → Core) : (State.modCore s n f).keep = s.keep := by
  simp [State.modCore]

@[simp] theorem State.modUc_keep (s : State) (f : UcBlock → UcBlock) : (State.modUc s f).keep = s.keep := by
  simp [State.modUc]

@[simp] theorem State.ucEvent_keep (s : State) (kind : Nat) (value : Option Nat) : (State.ucEvent s kind value).keep = s.keep := by
  unfold State.ucEvent
  dsimp only
  (repeat' split) <;> simp_all

@[simp] theorem endSwap_keep (stat : Nat) (s : State) : (endSwap stat s).keep = s.keep := by
  unfold endSwap
  (repeat' split) <;> simp

@[simp] theorem freezeCore_keep (n : Nat) (v : Violation) (a : CoreAccess) (s : State) : (freezeCore n v a s).keep = s.keep := by
  unfold freezeCore
  (repeat' split) <;> simp

@[simp] theorem freezeDma_keep (n : Nat) (v : Violation) (addr : Nat) (write sameTick : Bool) (s : State) : (freezeDma n v addr write sameTick s).keep = s.keep := by
  simp [freezeDma]

@[simp] theorem tagFreeze_keep (lo hi : Nat) (s : State) : (tagFreeze lo hi s).keep = s.keep := by
  unfold tagFreeze
  refine (foldl_keep _ ?_ _ _).trans (foldl_keep _ ?_ _ _)
  · intro s x
    dsimp only
    split <;> simp
  · intro s x
    (repeat' split) <;> simp

end Sys2Proof.Machine
end

