-- ==== Sys2Proof/Laws/KeepCipher.lean ====
section
/-! SUPPORT. What the operations of Machine/Cipher.lean keep: the bundle of `State.keep`. -/

namespace Sys2Proof.Machine
open Sys2Proof

@[simp] theorem State.modCipher_keep (s : State) (f : Cipher → Cipher) : (State.modCipher s f).keep = s.keep := by
  simp [State.modCipher]

@[simp] theorem State.modUnit_keep (s : State) (n : Nat) (f : CipherUnit → CipherUnit) : (State.modUnit s n f).keep = s.keep := by
  simp [State.modUnit]

@[simp] theorem State.modSlot_keep (s : State) (n : Nat) (f : KeySlot → KeySlot) : (State.modSlot s n f).keep = s.keep := by
  simp [State.modSlot]

@[simp] theorem State.keyEvent_keep (s : State) (slot kind : Nat) (value : Option Nat) : (State.keyEvent s slot kind value).keep = s.keep := by
  unfold State.keyEvent
  dsimp only
  (repeat' split) <;> simp_all

@[simp] theorem State.cuFault_keep (s : State) (unit kind value : Nat) : (State.cuFault s unit kind value).keep = s.keep := by
  simp [State.cuFault]

@[simp] theorem takeLease_keep (s : State) (n master : Nat) : (takeLease s n master).keep = s.keep := by
  simp [takeLease]

@[simp] theorem settleRelease_keep (n : Nat) (s : State) : (settleRelease n s).keep = s.keep := by
  unfold settleRelease
  dsimp only
  (repeat' split) <;> simp_all

@[simp] theorem cuLockWrite_keep (n value : Nat) (s : State) : (cuLockWrite n value s).keep = s.keep := by
  unfold cuLockWrite
  dsimp only
  (repeat' split) <;> simp_all

theorem execCuLockAcquire_keep (unit lease : Nat) (s : State) : Keeps s (execCuLockAcquire unit lease s) := by
  unfold execCuLockAcquire
  (repeat' split) <;> simp

theorem execCuLockRelease_keep (unit lease : Nat) (s : State) : Keeps s (execCuLockRelease unit lease s) := by
  unfold execCuLockRelease
  (repeat' split) <;> simp

theorem execLeaseExpiry_keep (unit : Nat) (s : State) : Keeps s (execLeaseExpiry unit s) := by
  unfold execLeaseExpiry
  (repeat' split) <;> simp

@[simp] theorem cuEvtClear_keep (s : State) : (cuEvtClear s).keep = s.keep := by
  simp [cuEvtClear]

theorem execCuEvtClear_keep (s : State) : Keeps s (execCuEvtClear s) := by
  unfold execCuEvtClear
  (repeat' split) <;> simp

@[simp] theorem emptySlot_keep (n : Nat) (s : State) : (emptySlot n s).keep = s.keep := by
  simp [emptySlot]

@[simp] theorem endKey_keep (n kind : Nat) (s : State) : (endKey n kind s).keep = s.keep := by
  unfold endKey
  (repeat' split) <;> simp

@[simp] theorem expireSlot_keep (n : Nat) (s : State) : (expireSlot n s).keep = s.keep := by
  unfold expireSlot
  (repeat' split) <;> simp

@[simp] theorem drainSlot_keep (n : Nat) (s : State) : (drainSlot n s).keep = s.keep := by
  unfold drainSlot
  dsimp only
  (repeat' split) <;> simp_all

theorem execSlotDrained_keep (slot : Nat) (s : State) : Keeps s (execSlotDrained slot s) := by
  unfold execSlotDrained
  (repeat' split) <;> simp

theorem execKeyExpired_keep (slot : Nat) (s : State) : Keeps s (execKeyExpired slot s) := by
  unfold execKeyExpired
  (repeat' split) <;> simp

@[simp] theorem deviceOp_keep (s : State) : (deviceOp s).keep = s.keep := by
  unfold deviceOp
  (repeat' split) <;> simp

@[simp] theorem installKey_keep (n : Nat) (k : SlotKey) (s : State) : (installKey n k s).keep = s.keep := by
  unfold installKey
  (repeat' split) <;> simp_all

@[simp] theorem trngFault_keep (s : State) : (trngFault s).1.keep = s.keep := by
  simp [trngFault]

@[simp] theorem keyDeriveCmd_keep (q : Qcp) (s : State) : (keyDeriveCmd.effect q s).1.keep = s.keep := by
  unfold keyDeriveCmd
  dsimp only
  (repeat' split) <;> simp_all

theorem execKeyDerive_keep (q : Qcp) (s : State) : Keeps s (execKeyDerive q s) := by
  exact runHost_keep _ (by simp) _ _

@[simp] theorem keySlotReadCmd_keep (q : Qcp) (s : State) : (keySlotReadCmd.effect q s).1.keep = s.keep := by
  simp [keySlotReadCmd]

theorem execKeySlotRead_keep (q : Qcp) (s : State) : Keeps s (execKeySlotRead q s) := by
  exact runHost_keep _ (by simp) _ _

@[simp] theorem cuStatusCmd_keep (q : Qcp) (s : State) : (cuStatusCmd.effect q s).1.keep = s.keep := by
  simp [cuStatusCmd]

theorem execCuStatus_keep (q : Qcp) (s : State) : Keeps s (execCuStatus q s) := by
  exact runHost_keep _ (by simp) _ _

@[simp] theorem startNext_keep (n : Nat) (s : State) : (startNext n s).keep = s.keep := by
  simp [startNext]

@[simp] theorem acceptOn_keep (n : Nat) (r : CipherReq) (s : State) : (acceptOn n r s).keep = s.keep := by
  unfold acceptOn
  dsimp only
  (repeat' split) <;> simp_all

@[simp] theorem cipherRunCmd_keep (q : Qcp) (s : State) : (cipherRunCmd.effect q s).1.keep = s.keep := by
  unfold cipherRunCmd
  dsimp only
  (repeat' split) <;> simp_all

theorem execCipherRun_keep (q : Qcp) (s : State) : Keeps s (execCipherRun q s) := by
  exact runHost_keep _ (by simp) _ _

@[simp] theorem cipherSubmit_keep (a : Nat) (s : State) : (cipherSubmit a s).1.keep = s.keep := by
  unfold cipherSubmit
  dsimp only
  (repeat' split) <;> simp_all

@[simp] theorem abortWhere_keep (p : CipherReq → Bool) (status : Nat) (s : State) : (abortWhere p status s).keep = s.keep := by
  simp [abortWhere]

@[simp] theorem cipherCancel_keep (s : State) : (cipherCancel s).1.keep = s.keep := by
  unfold cipherCancel
  (repeat' split) <;> simp

@[simp] theorem putOut_keep (ioPut : Nat → Nat → State → State) (o : Nat × List Nat) (s : State) (h : ∀ a v s, (ioPut a v s).keep = s.keep) :
    (putOut ioPut o s).keep = s.keep := by
  unfold putOut
  split
  · exact foldl_keep _ (by intro s x; exact h _ _ _) _ _
  · simp

@[simp] theorem scrub_keep (r : CipherReq) (progress : Nat) (s : State) : (scrub r progress s).keep = s.keep := by
  unfold scrub
  (repeat' split) <;> simp

@[simp] theorem reportReq_keep (unit : Nat) (r : CipherReq) (status outLen flags blocks : Nat) (iv : List Nat) (s : State) : (reportReq unit r status outLen flags blocks iv s).keep = s.keep := by
  unfold reportReq
  (repeat' split) <;> simp

@[simp] theorem leaveSlot_keep (r : CipherReq) (s : State) : (leaveSlot r s).keep = s.keep := by
  unfold leaveSlot
  (repeat' split) <;> simp

@[simp] theorem endWaiting_keep (unit : Nat) (r : CipherReq) (status : Nat) (s : State) : (endWaiting unit r status s).keep = s.keep := by
  unfold endWaiting
  (repeat' split) <;> simp

@[simp] theorem freeUnit_keep (n : Nat) (r : CipherReq) (s : State) : (freeUnit n r s).keep = s.keep := by
  unfold freeUnit
  dsimp only
  (repeat' split) <;> simp_all

@[simp] theorem failOp_keep (n : Nat) (r : CipherReq) (status progress : Nat) (s : State) : (failOp n r status progress s).keep = s.keep := by
  simp [failOp]

@[simp] theorem endMarked_keep (n : Nat) (s : State) : (endMarked n s).keep = s.keep := by
  unfold endMarked
  (repeat' split)
  all_goals (try simp)
  all_goals (apply foldl_keep; intro s x; (repeat' split) <;> simp)

@[simp] theorem disableUnit_keep (n : Nat) (s : State) : (disableUnit n s).keep = s.keep := by
  unfold disableUnit
  refine (foldl_keep _ (by intro s x; simp) _ _).trans (by simp)

@[simp] theorem finishOp_keep (ioPut : Nat → Nat → State → State) (n : Nat) (how : CipherEnd) (r : CipherReq) (s : State)
    (h : ∀ a v s, (ioPut a v s).keep = s.keep) : (finishOp ioPut n how r s).keep = s.keep := by
  unfold finishOp
  have h4 (l : List (Nat × List Nat)) (s : State) : (l.foldl (fun s w => putOut ioPut w s) s).keep = s.keep :=
    foldl_keep _ (by intro s x; exact putOut_keep _ _ _ h) _ _
  have h5 (c : Prop) [Decidable c] (s : State) : (if c then scrub r r.length s else s).keep = s.keep := by split <;> simp
  simp [h4, h5]

@[simp] theorem endOp_keep (ioPut : Nat → Nat → State → State) (n : Nat) (how : CipherEnd) (r : CipherReq) (s : State)
    (h : ∀ a v s, (ioPut a v s).keep = s.keep) : (endOp ioPut n how r s).keep = s.keep := by
  unfold endOp
  split
  · simp
  · have h3 : (if r.length = 0 then (s, none) else s.eccRead r.master r.src r.length).1.keep = s.keep := by
      split <;> simp
    generalize (if r.length = 0 then (s, none) else s.eccRead r.master r.src r.length) = p at h3
    obtain ⟨s3, bad⟩ := p
    dsimp only at h3 ⊢
    split <;> simp [h3, h]

@[simp] theorem completeOp_keep (ioPut : Nat → Nat → State → State) (n : Nat) (how : CipherEnd) (s : State)
    (h : ∀ a v s, (ioPut a v s).keep = s.keep) : (completeOp ioPut n how s).keep = s.keep := by
  unfold completeOp
  split
  · rfl
  · rename_i r hr
    extract_lets s1 s2
    have h1 : s1.keep = s.keep := foldl_keep _ (by intro s x; simp) _ _
    have h2 : s2.keep = s.keep := by
      simp only [s2]
      split <;> simp [h1]
    clear_value s2
    (repeat' split) <;> simp [h2, h]

theorem execCipherOpStart_keep (unit : Nat) (s : State) : Keeps s (execCipherOpStart unit s) := by
  unfold execCipherOpStart
  (repeat' split) <;> simp

theorem execTrngStallTimeout_keep (unit progress : Nat) (s : State) : Keeps s (execTrngStallTimeout unit progress s) := by
  unfold execTrngStallTimeout
  (repeat' split) <;> simp

theorem execTrngHealthFail_keep (s : State) : Keeps s (execTrngHealthFail s) := by
  unfold execTrngHealthFail
  (repeat' split) <;> simp

theorem execTrngHealthPass_keep (s : State) : Keeps s (execTrngHealthPass s) := by
  unfold execTrngHealthPass
  (repeat' split) <;> simp

@[simp] theorem eraseNow_keep (n : Nat) (s : State) : (eraseNow n s).keep = s.keep := by
  unfold eraseNow
  refine (foldl_keep _ (by intro s x; simp) _ _).trans (by simp)

@[simp] theorem keyEraseCmd_keep (after : Nat → State → State) (q : Qcp) (s : State) (h : ∀ n s, (after n s).keep = s.keep) :
    ((keyEraseCmd after).effect q s).1.keep = s.keep := by
  unfold keyEraseCmd
  dsimp only
  (repeat' split) <;> simp [h]

@[simp] theorem cancelUc_keep (s : State) : (cancelUc s).keep = s.keep := by
  unfold cancelUc
  refine (foldl_keep _ (by intro s x; split <;> simp) _ _).trans ((foldl_keep _ (by intro s x; simp) _ _).trans (by simp))

@[simp] theorem cipherOff_keep (s : State) : (cipherOff s).keep = s.keep := by
  simp [cipherOff]

end Sys2Proof.Machine
end

