-- ==== Sys2Proof/Laws/KeepSeal.lean ====
section
/-! SUPPORT. What the operations of Machine/Seal.lean keep: the bundle of `State.keep`. -/

namespace Sys2Proof.Machine
open Sys2Proof

@[simp] theorem State.modSeal_keep (s : State) (f : Seal → Seal) : (State.modSeal s f).keep = s.keep := by
  simp [State.modSeal]

@[simp] theorem assignSeal_keep (r : NavRec) (resolved : Bool) (s : State) : (assignSeal r resolved s).1.keep = s.keep := by
  unfold assignSeal
  dsimp only
  (repeat' split) <;> simp_all

@[simp] theorem completeSeal_keep (fault : Bool) (s : State) : (completeSeal fault s).keep = s.keep := by
  unfold completeSeal
  dsimp only
  (repeat' split) <;> simp_all

@[simp] theorem completeSeals_keep (s : State) : (completeSeals s).keep = s.keep := by
  unfold completeSeals
  (repeat' split)
  all_goals (try simp)
  all_goals (apply foldl_keep; intro s x; (repeat' split) <;> simp)

theorem execSealComplete_keep (fault : Bool) (s : State) : Keeps s (execSealComplete fault s) := by
  unfold execSealComplete
  (repeat' split) <;> simp

@[simp] theorem autoSeal_keep (source : Nat) (r : NavRec) (s : State) : (autoSeal source r s).keep = s.keep := by
  unfold autoSeal
  dsimp only
  (repeat' split) <;> simp_all

@[simp] theorem resolvedSeal_keep (r : NavRec) (s : State) : (resolvedSeal r s).1.keep = s.keep := by
  unfold resolvedSeal
  (repeat' split) <;> simp

@[simp] theorem sealNowCmd_keep (q : Qcp) (s : State) : (sealNowCmd.effect q s).1.keep = s.keep := by
  unfold sealNowCmd
  dsimp only
  (repeat' split) <;> simp_all

theorem execSealNow_keep (q : Qcp) (s : State) : Keeps s (execSealNow q s) := by
  exact runHost_keep _ (by simp) _ _

@[simp] theorem sealReadCmd_keep (q : Qcp) (s : State) : (sealReadCmd.effect q s).1.keep = s.keep := by
  simp [sealReadCmd]

theorem execSealRead_keep (q : Qcp) (s : State) : Keeps s (execSealRead q s) := by
  exact runHost_keep _ (by simp) _ _

@[simp] theorem sealVerifyCmd_keep (q : Qcp) (s : State) : (sealVerifyCmd.effect q s).1.keep = s.keep := by
  unfold sealVerifyCmd
  dsimp only
  (repeat' split) <;> simp_all

theorem execSealVerify_keep (q : Qcp) (s : State) : Keeps s (execSealVerify q s) := by
  exact runHost_keep _ (by simp) _ _

@[simp] theorem deriveSeal_keep (c : SealCfg) (s : State) : (deriveSeal c s).keep = s.keep := by
  unfold deriveSeal
  (repeat' split) <;> simp

@[simp] theorem sealCfgCmd_keep (q : Qcp) (s : State) : (sealCfgCmd.effect q s).1.keep = s.keep := by
  unfold sealCfgCmd
  dsimp only
  (repeat' split) <;> simp_all

theorem execSealCfg_keep (q : Qcp) (s : State) : Keeps s (execSealCfg q s) := by
  exact runHost_keep _ (by simp) _ _

@[simp] theorem sealEpoch_keep (s : State) : (sealEpoch s).keep = s.keep := by
  simp [sealEpoch]

@[simp] theorem failSeals_keep (n : Nat) (s : State) : (failSeals n s).keep = s.keep := by
  unfold failSeals
  (repeat' split)
  all_goals (try simp)
  all_goals (apply foldl_keep; intro s x; (repeat' split) <;> simp)

theorem execKeyErase_keep (q : Qcp) (s : State) : Keeps s (execKeyErase q s) := by
  exact runHost_keep _ (by simp) _ _

end Sys2Proof.Machine
end

