-- ==== Sys2Proof/Laws/KeepNet.lean ====
section
/-! SUPPORT. What the operations of Machine/Net.lean keep: the bundle of `State.keep`. -/

namespace Sys2Proof.Machine
open Sys2Proof

@[simp] theorem State.modPort_keep (s : State) (n : Nat) (f : EthPort → EthPort) : (State.modPort s n f).keep = s.keep := by
  simp [State.modPort]

@[simp] theorem udpFrames_keep (s : State) (n : Nat) (mac : List Byte) (dst sport dport : Nat) (data : List Byte) : (udpFrames s n mac dst sport dport data).1.keep = s.keep := by
  simp [udpFrames]

@[simp] theorem sendOwn_keep (n : Nat) (frame : List Byte) (ts : Bool) (use seq : Nat) (launch : Option Nat) (s : State) : (sendOwn n frame ts use seq launch s).keep = s.keep := by
  unfold sendOwn
  dsimp only
  (repeat' split) <;> simp_all

@[simp] theorem sendUdp_keep (n : Nat) (mac : List Byte) (dst sport dport : Nat) (data : List Byte) (s : State) :
    (sendUdp n mac dst sport dport data s).keep = s.keep := by
  unfold sendUdp
  exact (foldl_keep _ (by intro s x; simp) _ _).trans (by simp)

@[simp] theorem drainEth_keep (s : State) : (drainEth s).keep = s.keep := by
  unfold drainEth
  apply foldl_keep
  intro s n
  dsimp only
  split
  · rfl
  · exact (foldl_keep _ (by intro s x; simp) _ _).trans (by simp)

@[simp] theorem completeTs_keep (n id stat dt : Nat) (same : Bool) (s : State) : (completeTs n id stat dt same s).keep = s.keep := by
  unfold completeTs
  dsimp only
  (repeat' split) <;> simp_all

@[simp] theorem dropFrame_keep (n stat : Nat) (f : TxFrame) (s : State) : (dropFrame n stat f s).keep = s.keep := by
  unfold dropFrame
  (repeat' split) <;> simp

@[simp] theorem dropAll_keep (n : Nat) (s : State) : (dropAll n s).keep = s.keep := by
  unfold dropAll
  exact (State.modPort_keep _ _ _).trans (foldl_keep _ (by intro s x; simp) _ _)

@[simp] theorem epCfgCmd_keep (q : Qcp) (s : State) : (epCfgCmd.effect q s).1.keep = s.keep := by
  unfold epCfgCmd
  dsimp only
  split
  · exact (foldl_keep _ (by intro s x; simp) _ _).trans (by simp)
  · simp

theorem execEpCfg_keep (q : Qcp) (s : State) : Keeps s (execEpCfg q s) := by
  exact runHost_keep _ (by simp) _ _

@[simp] theorem epStatusCmd_keep (q : Qcp) (s : State) : (epStatusCmd.effect q s).1.keep = s.keep := by
  simp [epStatusCmd]

theorem execEpStatus_keep (q : Qcp) (s : State) : Keeps s (execEpStatus q s) := by
  exact runHost_keep _ (by simp) _ _

@[simp] theorem ethTxCmd_keep (q : Qcp) (s : State) : (ethTxCmd.effect q s).1.keep = s.keep := by
  simp [ethTxCmd]

theorem execEthTx_keep (q : Qcp) (s : State) : Keeps s (execEthTx q s) := by
  exact runHost_keep _ (by simp) _ _

@[simp] theorem ethTsReadCmd_keep (q : Qcp) (s : State) : (ethTsReadCmd.effect q s).1.keep = s.keep := by
  simp [ethTsReadCmd]

theorem execEthTsRead_keep (q : Qcp) (s : State) : Keeps s (execEthTsRead q s) := by
  exact runHost_keep _ (by simp) _ _

theorem execEthLaunch_keep (port : Nat) (s : State) : Keeps s (execEthLaunch port s) := by
  unfold execEthLaunch
  dsimp only
  (repeat' split) <;> simp_all

theorem execTsEntryTimeout_keep (port : Nat) (s : State) : Keeps s (execTsEntryTimeout port s) := by
  simp [execTsEntryTimeout]

theorem execReassemblyTimeout_keep (port : Nat) (s : State) : Keeps s (execReassemblyTimeout port s) := by
  simp [execReassemblyTimeout]

@[simp] theorem reassemble_keep (n src id off : Nat) (more : Bool) (data : List Byte) (s : State) : (reassemble n src id off more data s).1.keep = s.keep := by
  unfold reassemble
  dsimp only
  (repeat' split) <;> simp_all

end Sys2Proof.Machine
end

