-- ==== Sys2Proof/Laws/KeepPtp.lean ====
section
/-! SUPPORT. What the operations of Machine/Ptp.lean keep: the bundle of `State.keep`. -/

namespace Sys2Proof.Machine
open Sys2Proof

@[simp] theorem State.modPtp_keep (s : State) (n : Nat) (f : Ptp → Ptp) : (State.modPtp s n f).keep = s.keep := by
  simp [State.modPtp]

@[simp] theorem State.ptpEvent_keep (s : State) (n kind : Nat) (value : Int) : (State.ptpEvent s n kind value).keep = s.keep := by
  simp [State.ptpEvent]

@[simp] theorem setPtpState_keep (n st : Nat) (parent : Option ClockSet) (s : State) : (setPtpState n st parent s).keep = s.keep := by
  unfold setPtpState
  dsimp only
  (repeat' split) <;> simp_all

@[simp] theorem runBmca_keep (n : Nat) (timeout : Bool) (s : State) : (runBmca n timeout s).keep = s.keep := by
  unfold runBmca
  dsimp only
  (repeat' split) <;> simp_all

@[simp] theorem ptpCfgCmd_keep (q : Qcp) (s : State) : (ptpCfgCmd.effect q s).1.keep = s.keep := by
  unfold ptpCfgCmd
  dsimp only
  (repeat' split) <;> simp_all

theorem execPtpCfg_keep (q : Qcp) (s : State) : Keeps s (execPtpCfg q s) := by
  exact runHost_keep _ (by simp) _ _

@[simp] theorem ptpStatusCmd_keep (q : Qcp) (s : State) : (ptpStatusCmd.effect q s).1.keep = s.keep := by
  simp [ptpStatusCmd]

theorem execPtpStatus_keep (q : Qcp) (s : State) : Keeps s (execPtpStatus q s) := by
  exact runHost_keep _ (by simp) _ _

@[simp] theorem ptpTrustCmd_keep (q : Qcp) (s : State) : (ptpTrustCmd.effect q s).1.keep = s.keep := by
  simp [ptpTrustCmd]

theorem execPtpTrust_keep (q : Qcp) (s : State) : Keeps s (execPtpTrust q s) := by
  exact runHost_keep _ (by simp) _ _

@[simp] theorem useSample_keep (n dt : Nat) (o : Rat) (s : State) : (useSample n dt o s).keep = s.keep := by
  unfold useSample
  dsimp only
  (repeat' split) <;> simp_all

@[simp] theorem takeSample_keep (n dt : Nat) (fwd : Rat) (s : State) : (takeSample n dt fwd s).keep = s.keep := by
  unfold takeSample
  dsimp only
  (repeat' split) <;> simp_all

@[simp] theorem takeDelay_keep (n : Nat) (d : Rat) (s : State) : (takeDelay n d s).keep = s.keep := by
  unfold takeDelay
  dsimp only
  (repeat' split) <;> simp_all

@[simp] theorem distrust_keep (n : Nat) (s : State) : (distrust n s).keep = s.keep := by
  unfold distrust
  (repeat' split) <;> simp

@[simp] theorem reanchor_keep (n : Nat) (j : Rat) (s : State) : (reanchor n j s).keep = s.keep := by
  simp [reanchor]

theorem execSuspectMasterEnd_keep (port : Nat) (s : State) : Keeps s (execSuspectMasterEnd port s) := by
  unfold execSuspectMasterEnd
  dsimp only
  (repeat' split) <;> simp_all

theorem execPathWindowEnd_keep (port : Nat) (s : State) : Keeps s (execPathWindowEnd port s) := by
  unfold execPathWindowEnd
  dsimp only
  (repeat' split) <;> simp_all

theorem execUntrustHoldEnd_keep (port : Nat) (s : State) : Keeps s (execUntrustHoldEnd port s) := by
  unfold execUntrustHoldEnd
  dsimp only
  (repeat' split) <;> simp_all

theorem execSyncReceiptTimeout_keep (port : Nat) (s : State) : Keeps s (execSyncReceiptTimeout port s) := by
  unfold execSyncReceiptTimeout
  dsimp only
  (repeat' split) <;> simp_all

theorem execAnnounceTimeout_keep (port : Nat) (s : State) : Keeps s (execAnnounceTimeout port s) := by
  unfold execAnnounceTimeout
  dsimp only
  (repeat' split) <;> simp_all

@[simp] theorem sendPtp_keep (n type : Nat) (msg : List Byte) (ts : Bool) (use seq : Nat) (launch : Option Nat) (s : State) :
    (sendPtp n type msg ts use seq launch s).keep = s.keep := by
  unfold sendPtp
  dsimp only
  split
  · exact (foldl_keep _ (by intro s x; simp) _ _).trans (by simp)
  · simp

theorem execSyncSend_keep (port : Nat) (s : State) : Keeps s (execSyncSend port s) := by
  unfold execSyncSend
  dsimp only
  (repeat' split) <;> simp_all

@[simp] theorem sendFollowUp_keep (n seq dt : Nat) (s : State) : (sendFollowUp n seq dt s).keep = s.keep := by
  simp [sendFollowUp]

theorem execAnnounceSend_keep (port : Nat) (s : State) : Keeps s (execAnnounceSend port s) := by
  unfold execAnnounceSend
  dsimp only
  (repeat' split) <;> simp_all

theorem execDelayReqSend_keep (port : Nat) (s : State) : Keeps s (execDelayReqSend port s) := by
  unfold execDelayReqSend
  dsimp only
  (repeat' split) <;> simp_all

@[simp] theorem ptpRate_keep (n type : Nat) (src : List Byte) (s : State) : (ptpRate n type src s).1.keep = s.keep := by
  simp [ptpRate]

@[simp] theorem discardPtp_keep (n : Nat) (s : State) : (discardPtp n s).keep = s.keep := by
  simp [discardPtp]

@[simp] theorem syncPair_keep (n dt : Nat) (t1 corr : Rat) (s : State) : (syncPair n dt t1 corr s).keep = s.keep := by
  simp [syncPair]

@[simp] theorem ptpSync_keep (n dt : Nat) (m : List Byte) (s : State) : (ptpSync n dt m s).keep = s.keep := by
  unfold ptpSync
  dsimp only
  (repeat' split) <;> simp_all

@[simp] theorem acceptDelay_keep (n : Nat) (d : Rat) (s : State) : (acceptDelay n d s).keep = s.keep := by
  unfold acceptDelay
  (repeat' split) <;> simp

@[simp] theorem ptpDelayResp_keep (n : Nat) (m : List Byte) (s : State) : (ptpDelayResp n m s).keep = s.keep := by
  unfold ptpDelayResp
  dsimp only
  (repeat' split) <;> simp_all

@[simp] theorem peerDelay_keep (n : Nat) (t1 t4 : Nat) (t2 t3 : Rat) (s : State) : (peerDelay n t1 t4 t2 t3 s).keep = s.keep := by
  unfold peerDelay
  dsimp only
  (repeat' split) <;> simp_all

@[simp] theorem ptpPeer_keep (n dt : Nat) (m : List Byte) (s : State) : (ptpPeer n dt m s).keep = s.keep := by
  unfold ptpPeer
  dsimp only
  (repeat' split) <;> simp_all

@[simp] theorem ptpDelayReq_keep (n dt : Nat) (m : List Byte) (s : State) : (ptpDelayReq n dt m s).keep = s.keep := by
  unfold ptpDelayReq
  dsimp only
  (repeat' split) <;> simp_all

@[simp] theorem ptpAnnounce_keep (n : Nat) (m : List Byte) (s : State) : (ptpAnnounce n m s).keep = s.keep := by
  unfold ptpAnnounce
  dsimp only
  (repeat' split) <;> simp_all

@[simp] theorem ptpReceive_keep (n dt : Nat) (m : List Byte) (s : State) : (ptpReceive n dt m s).keep = s.keep := by
  unfold ptpReceive
  dsimp only
  (repeat' split) <;> simp_all

@[simp] theorem ptpRow_keep (types : List Nat) (n dt : Nat) (m : List Byte) (s : State) : (ptpRow types n dt m s).keep = s.keep := by
  unfold ptpRow
  (repeat' split) <;> simp

theorem execSyncRx_keep (port stamp : Nat) (msg : List Byte) (s : State) : Keeps s (execSyncRx port stamp msg s) := by
  simp [execSyncRx]

theorem execDelayRespRx_keep (port stamp : Nat) (msg : List Byte) (s : State) : Keeps s (execDelayRespRx port stamp msg s) := by
  simp [execDelayRespRx]

theorem execPdelayRx_keep (port stamp : Nat) (msg : List Byte) (s : State) : Keeps s (execPdelayRx port stamp msg s) := by
  simp [execPdelayRx]

theorem execAnnounceRx_keep (port stamp : Nat) (msg : List Byte) (s : State) : Keeps s (execAnnounceRx port stamp msg s) := by
  simp [execAnnounceRx]

theorem execLinkDown_keep (port : Nat) (s : State) : Keeps s (execLinkDown port s) := by
  unfold execLinkDown
  dsimp only
  (repeat' split) <;> simp_all

theorem execLinkUp_keep (port speed : Nat) (s : State) : Keeps s (execLinkUp port speed s) := by
  unfold execLinkUp
  dsimp only
  (repeat' split) <;> simp_all

@[simp] theorem afterOwn_keep (n dt : Nat) (f : TxFrame) (s : State) : (afterOwn n dt f s).keep = s.keep := by
  unfold afterOwn
  (repeat' split) <;> simp

theorem execEthTxDone_keep (port stamp : Nat) (sameTick : Bool) (s : State) : Keeps s (execEthTxDone port stamp sameTick s) := by
  unfold execEthTxDone
  dsimp only
  (repeat' split) <;> simp_all

end Sys2Proof.Machine
end

