-- ==== Sys2Proof/Laws/KeepCorr.lean ====
section
/-! SUPPORT. What the operations of Machine/Corr.lean keep: the bundle of `State.keep`. -/

namespace Sys2Proof.Machine
open Sys2Proof

@[simp] theorem State.modCorr_keep (s : State) (f : CorrSys → CorrSys) : (State.modCorr s f).keep = s.keep := by
  simp [State.modCorr]

@[simp] theorem State.corrEvent_keep (s : State) (kind source id value : Nat) : (State.corrEvent s kind source id value).keep = s.keep := by
  simp [State.corrEvent]

@[simp] theorem putData_keep (loaded : Bool) (d : SatData) (s : State) : (putData loaded d s).keep = s.keep := by
  unfold putData
  dsimp only
  (repeat' split) <;> simp_all

@[simp] theorem putCorr_keep (source time : Nat) (c : SatCorr) (s : State) : (putCorr source time c s).keep = s.keep := by
  unfold putCorr
  dsimp only
  (repeat' split) <;> simp_all

@[simp] theorem holdStation_keep (source node id : Nat) (s : State) : (holdStation source node id s).keep = s.keep := by
  unfold holdStation
  (repeat' split) <;> simp

@[simp] theorem modStation_keep (source node id : Nat) (f : Station → Station) (s : State) : (modStation source node id f s).keep = s.keep := by
  simp [modStation]

@[simp] theorem takeArp_keep (source node id : Nat) (arp : List Int) (f : List Byte) (s : State) : (takeArp source node id arp f s).keep = s.keep := by
  unfold takeArp
  (repeat' split) <;> simp

@[simp] theorem takeMsm_keep (source node id : Nat) (i : RtcmInfo) (f : List Byte) (s : State) : (takeMsm source node id i f s).keep = s.keep := by
  simp [takeMsm]

@[simp] theorem applyFrame_keep (source node : Nat) (f : List Byte) (i : RtcmInfo) (s : State) : (applyFrame source node f i s).1.keep = s.keep := by
  have he (s : State) : (i.sets.foldl (fun s d => putData true d s) s).keep = s.keep := foldl_keep _ (by intro s x; simp) _ _
  have hc (s : State) : (i.corrs.foldl (fun s c => putCorr 1 i.time c s) s).keep = s.keep := foldl_keep _ (by intro s x; simp) _ _
  unfold applyFrame
  dsimp only
  (repeat' split) <;> simp [he, hc]

@[simp] theorem applyFrames_keep (source node : Nat) (fs : List (List Byte)) (is_ : List RtcmInfo) (s : State) :
    (applyFrames source node fs is_ s).1.keep = s.keep := by
  induction fs generalizing is_ s with
  | nil => rfl
  | cons f fs ih =>
    cases is_ with
    | nil => rfl
    | cons i is_ => exact (ih _ _).trans (applyFrame_keep _ _ _ _ _)

@[simp] theorem corrCfgCmd_keep (q : Qcp) (s : State) : (corrCfgCmd.effect q s).1.keep = s.keep := by
  simp [corrCfgCmd]

theorem execCorrCfg_keep (q : Qcp) (s : State) : Keeps s (execCorrCfg q s) := by
  exact runHost_keep _ (by simp) _ _

@[simp] theorem corrStatusCmd_keep (q : Qcp) (s : State) : (corrStatusCmd.effect q s).1.keep = s.keep := by
  simp [corrStatusCmd]

theorem execCorrStatus_keep (q : Qcp) (s : State) : Keeps s (execCorrStatus q s) := by
  exact runHost_keep _ (by simp) _ _

@[simp] theorem corrPushCmd_keep (info : List RtcmInfo) (q : Qcp) (s : State) : ((corrPushCmd info).effect q s).1.keep = s.keep := by
  simp [corrPushCmd]

theorem execCorrPush_keep (q : Qcp) (info : List RtcmInfo) (s : State) : Keeps s (execCorrPush q info s) := by
  exact runHost_keep _ (by simp) _ _

theorem execMsmEpochTimeout_keep (s : State) : Keeps s (execMsmEpochTimeout s) := by
  simp [execMsmEpochTimeout]

theorem execArpWaitTimeout_keep (s : State) : Keeps s (execArpWaitTimeout s) := by
  simp [execArpWaitTimeout]

theorem execHasPageTimeout_keep (s : State) : Keeps s (execHasPageTimeout s) := by
  simp [execHasPageTimeout]

theorem execSbasUnusableEnd_keep (s : State) : Keeps s (execSbasUnusableEnd s) := by
  simp [execSbasUnusableEnd]

@[simp] theorem setHas_keep (st : Nat) (s : State) : (setHas st s).keep = s.keep := by
  unfold setHas
  dsimp only
  (repeat' split) <;> simp_all

@[simp] theorem hasPage_keep (id size page : Nat) (data : List Byte) (decoded : Option (Bool × Nat × List SatCorr)) (s : State) :
    (hasPage id size page data decoded s).keep = s.keep := by
  have hc (n : Nat) (cs : List SatCorr) (s : State) : (cs.foldl (fun s c => putCorr 2 n c s) s).keep = s.keep := foldl_keep _ (by intro s x; simp) _ _
  unfold hasPage
  split
  · simp
  · extract_lets live old h rest s1
    have h1 : s1.keep = s.keep := by simp only [s1]; split <;> simp
    (repeat' split) <;> simp +zetaDelta [hc, h1]

@[simp] theorem sbasMessage_keep (sat type time : Nat) (sets : List (Nat × Nat)) (cs : List SatCorr) (s : State) : (sbasMessage sat type time sets cs s).keep = s.keep := by
  unfold sbasMessage
  (repeat' split)
  all_goals (try simp)
  all_goals (apply foldl_keep; intro s x; (repeat' split) <;> simp)

end Sys2Proof.Machine
end

