-- ==== Sys2Proof/Laws/KeepDma.lean ====
section
/-! SUPPORT. What the operations of Machine/Dma.lean keep: the bundle of `State.keep`. -/

namespace Sys2Proof.Machine
open Sys2Proof

@[simp] theorem descStatus_keep (n code : Nat) (s : State) : (descStatus n code s).keep = s.keep := by
  unfold descStatus
  dsimp only
  (repeat' split) <;> simp_all

@[simp] theorem abortDma_keep (n : Nat) (s : State) : (abortDma n s).keep = s.keep := by
  simp [abortDma]

@[simp] theorem loadDesc_keep (n : Nat) (sameTick : Bool) (s : State) : (loadDesc n sameTick s).keep = s.keep := by
  have h := State.eccRead_keep s 0x12 (s.dmaChan n).cur 32
  unfold loadDesc
  dsimp only
  (repeat' split) <;> simp_all

@[simp] theorem startDma_keep (n : Nat) (s : State) : (startDma n s).keep = s.keep := by
  unfold startDma
  (repeat' split) <;> simp

@[simp] theorem stopDma_keep (n : Nat) (s : State) : (stopDma n s).keep = s.keep := by
  simp [stopDma]

theorem execDmaStart_keep (chan : Nat) (s : State) : Keeps s (execDmaStart chan s) := by
  unfold execDmaStart
  (repeat' split) <;> simp

theorem execDmaStop_keep (chan : Nat) (s : State) : Keeps s (execDmaStop chan s) := by
  unfold execDmaStop
  (repeat' split) <;> simp

@[simp] theorem clearDma_keep (n value : Nat) (s : State) : (clearDma n value s).keep = s.keep := by
  simp [clearDma]

theorem execDmaStatusClear_keep (chan value : Nat) (s : State) : Keeps s (execDmaStatusClear chan value s) := by
  unfold execDmaStatusClear
  (repeat' split) <;> simp

@[simp] theorem dmaCtrlWrite_keep (n value : Nat) (s : State) : (dmaCtrlWrite n value s).keep = s.keep := by
  unfold dmaCtrlWrite
  (repeat' split) <;> simp

@[simp] theorem dmaRegWrite_keep (n off value : Nat) (s : State) : (dmaRegWrite n off value s).keep = s.keep := by
  unfold dmaRegWrite
  (repeat' split) <;> simp

end Sys2Proof.Machine
end

