-- ==== Sys2Proof/Laws/KeepDomain.lean ====
section
/-! SUPPORT. What the operations of Machine/Domain.lean keep: the bundle of `State.keep`. -/

namespace Sys2Proof.Machine
open Sys2Proof

@[simp] theorem State.modDomain_keep (s : State) (f : Domain → Domain) : (State.modDomain s f).keep = s.keep := by
  simp [State.modDomain]

@[simp] theorem State.domainEvent_keep (s : State) (kind node value : Nat) : (State.domainEvent s kind node value).keep = s.keep := by
  simp [State.domainEvent]

@[simp] theorem qdpOut_keep (t : Nat) (d : List Byte) (s : State) : (qdpOut t d s).keep = s.keep := by
  unfold qdpOut
  (repeat' split) <;> simp

@[simp] theorem qdpSend_keep (type dst : Nat) (body : Nat → List Byte) (launch : Option Nat) (s : State) :
    (qdpSend type dst body launch s).keep = s.keep := by
  unfold qdpSend
  split
  · rfl
  · split
    · rfl
    · apply foldl_keep
      intro s t
      dsimp only
      split
      · exact (foldl_keep _ (by intro s x; simp) _ _).trans (by simp)
      · exact (foldl_keep _ (by intro s x; simp) _ _).trans (by simp)
      · simp

@[simp] theorem electGm_keep (s : State) : (electGm s).keep = s.keep := by
  unfold electGm
  dsimp only
  (repeat' split) <;> simp_all

@[simp] theorem sendAlert_keep (s : State) : (sendAlert s).keep = s.keep := by
  unfold sendAlert
  dsimp only
  (repeat' split) <;> simp_all

theorem execHelloSend_keep (s : State) : Keeps s (execHelloSend s) := by
  unfold execHelloSend
  dsimp only
  (repeat' split) <;> simp_all

@[simp] theorem qdpDiscard_keep (s : State) : (qdpDiscard s).keep = s.keep := by
  simp [qdpDiscard]

@[simp] theorem macFailed_keep (src : Nat) (s : State) : (macFailed src s).keep = s.keep := by
  unfold macFailed
  dsimp only
  (repeat' split) <;> simp_all

@[simp] theorem modPeer_keep (node : Nat) (f : Peer → Peer) (s : State) : (modPeer node f s).keep = s.keep := by
  simp [modPeer]

@[simp] theorem admitPeer_keep (node : Nat) (epoch seq : BitVec 32) (s : State) : (admitPeer node epoch seq s).1.keep = s.keep := by
  unfold admitPeer
  dsimp only
  (repeat' split) <;> simp_all

@[simp] theorem takeAtmo_keep (node : Nat) (b : List Byte) (s : State) : (takeAtmo node b s).keep = s.keep := by
  unfold takeAtmo
  dsimp only
  (repeat' split) <;> simp_all

@[simp] theorem qdpUse_keep (node type : Nat) (b : List Byte) (rx : Option Nat) (info : List RtcmInfo) (s : State) : (qdpUse node type b rx info s).keep = s.keep := by
  unfold qdpUse
  dsimp only
  (repeat' split) <;> simp_all

@[simp] theorem qdpRelay_keep (from_ : Nat) (d : List Byte) (s : State) : (qdpRelay from_ d s).keep = s.keep := by
  unfold qdpRelay
  dsimp only
  split
  · rfl
  · exact foldl_keep _ (by intro s x; simp) _ _

@[simp] theorem nodeConflict_keep (s : State) : (nodeConflict s).keep = s.keep := by
  unfold nodeConflict
  dsimp only
  (repeat' split) <;> simp_all

@[simp] theorem qdpAccept_keep (from_ : Nat) (rx : Option Nat) (d : List Byte) (info : List RtcmInfo) (s : State) : (qdpAccept from_ rx d info s).keep = s.keep := by
  unfold qdpAccept
  dsimp only
  (repeat' split) <;> simp_all

@[simp] theorem qdpReceive_keep (from_ : Nat) (rx : Option Nat) (d : List Byte) (info : List RtcmInfo) (s : State) : (qdpReceive from_ rx d info s).keep = s.keep := by
  unfold qdpReceive
  dsimp only
  (repeat' split) <;> simp_all

@[simp] theorem domainCfgCmd_keep (q : Qcp) (s : State) : (domainCfgCmd.effect q s).1.keep = s.keep := by
  simp [domainCfgCmd]

theorem execDomainCfg_keep (q : Qcp) (s : State) : Keeps s (execDomainCfg q s) := by
  exact runHost_keep _ (by simp) _ _

@[simp] theorem domainStatusCmd_keep (q : Qcp) (s : State) : (domainStatusCmd.effect q s).1.keep = s.keep := by
  simp [domainStatusCmd]

theorem execDomainStatus_keep (q : Qcp) (s : State) : Keeps s (execDomainStatus q s) := by
  exact runHost_keep _ (by simp) _ _

@[simp] theorem qdpTunnelCmd_keep (info : List RtcmInfo) (q : Qcp) (s : State) : ((qdpTunnelCmd info).effect q s).1.keep = s.keep := by
  simp [qdpTunnelCmd]

theorem execQdpTunnelIn_keep (q : Qcp) (info : List RtcmInfo) (s : State) : Keeps s (execQdpTunnelIn q info s) := by
  exact runHost_keep _ (by simp) _ _

theorem execQdpDatagramRx_keep (port stamp : Nat) (data : List Byte) (info : List RtcmInfo) (s : State) : Keeps s (execQdpDatagramRx port stamp data info s) := by
  unfold execQdpDatagramRx
  (repeat' split) <;> simp

theorem execTransportCfg_keep (q : Qcp) (s : State) : Keeps s (execTransportCfg q s) := by
  exact runHost_keep _ (by simp) _ _

theorem execAlertExpiry_keep (s : State) : Keeps s (execAlertExpiry s) := by
  simp [execAlertExpiry]

theorem execPeerTimeout_keep (s : State) : Keeps s (execPeerTimeout s) := by
  have h (l : List Peer) (s : State) : (l.foldl (fun s p => s.domainEvent 2 p.node 0) s).keep = s.keep := foldl_keep _ (by intro s x; simp) _ _
  unfold execPeerTimeout
  dsimp only
  split <;> simp [h]

theorem execConflictSilenceEnd_keep (s : State) : Keeps s (execConflictSilenceEnd s) := by
  simp [execConflictSilenceEnd]

@[simp] theorem dropRx_keep (n : Nat) (s : State) : (dropRx n s).keep = s.keep := by
  simp [dropRx]

@[simp] theorem goodRx_keep (n : Nat) (s : State) : (goodRx n s).keep = s.keep := by
  simp [goodRx]

@[simp] theorem udpReceive_keep (n stamp : Nat) (d : List Byte) (info : List RtcmInfo) (s : State) : (udpReceive n stamp d info s).keep = s.keep := by
  unfold udpReceive
  dsimp only
  (repeat' split) <;> simp_all

@[simp] theorem ipReceive_keep (n stamp : Nat) (srcMac : List Byte) (p : List Byte) (info : List RtcmInfo) (s : State) : (ipReceive n stamp srcMac p info s).keep = s.keep := by
  unfold ipReceive
  dsimp only
  (repeat' split) <;> simp_all

@[simp] theorem arpReceive_keep (n : Nat) (p : List Byte) (s : State) : (arpReceive n p s).keep = s.keep := by
  unfold arpReceive
  (repeat' split) <;> simp

theorem execEthFrameRx_keep (port stamp : Nat) (fcsOk : Bool) (frame : List Byte) (info : List RtcmInfo) (s : State) : Keeps s (execEthFrameRx port stamp fcsOk frame info s) := by
  unfold execEthFrameRx
  dsimp only
  (repeat' split) <;> simp_all

@[simp] theorem refstnCfgCmd_keep (q : Qcp) (s : State) : (refstnCfgCmd.effect q s).1.keep = s.keep := by
  simp [refstnCfgCmd]

theorem execRefstnCfg_keep (q : Qcp) (s : State) : Keeps s (execRefstnCfg q s) := by
  exact runHost_keep _ (by simp) _ _

@[simp] theorem refstnStatusCmd_keep (q : Qcp) (s : State) : (refstnStatusCmd.effect q s).1.keep = s.keep := by
  simp [refstnStatusCmd]

theorem execRefstnStatus_keep (q : Qcp) (s : State) : Keeps s (execRefstnStatus q s) := by
  exact runHost_keep _ (by simp) _ _

end Sys2Proof.Machine
end

