-- ==== Sys2Proof/Laws/KeepNav.lean ====
section
/-! SUPPORT. What the operations of Machine/Nav.lean keep: the bundle of `State.keep`. -/

namespace Sys2Proof.Machine
open Sys2Proof

@[simp] theorem State.navEvent_keep (s : State) (kind sat : Nat) (value : Option Nat) : (State.navEvent s kind sat value).keep = s.keep := by
  unfold State.navEvent
  dsimp only
  (repeat' split) <;> simp_all

@[simp] theorem navCfgCmd_keep (q : Qcp) (s : State) : (navCfgCmd.effect q s).1.keep = s.keep := by
  simp [navCfgCmd]

theorem execNavCfg_keep (q : Qcp) (s : State) : Keeps s (execNavCfg q s) := by
  exact runHost_keep _ (by simp) _ _

@[simp] theorem navStatusCmd_keep (q : Qcp) (s : State) : (navStatusCmd.effect q s).1.keep = s.keep := by
  simp [navStatusCmd]

theorem execNavStatus_keep (q : Qcp) (s : State) : Keeps s (execNavStatus q s) := by
  exact runHost_keep _ (by simp) _ _

@[simp] theorem navResetCmd_keep (q : Qcp) (s : State) : (navResetCmd.effect q s).1.keep = s.keep := by
  simp [navResetCmd]

theorem execNavReset_keep (q : Qcp) (s : State) : Keeps s (execNavReset q s) := by
  exact runHost_keep _ (by simp) _ _

@[simp] theorem antCfgCmd_keep (q : Qcp) (s : State) : (antCfgCmd.effect q s).1.keep = s.keep := by
  simp [antCfgCmd]

theorem execAntCfg_keep (q : Qcp) (s : State) : Keeps s (execAntCfg q s) := by
  exact runHost_keep _ (by simp) _ _

@[simp] theorem pairCfgCmd_keep (q : Qcp) (s : State) : (pairCfgCmd.effect q s).1.keep = s.keep := by
  simp [pairCfgCmd]

theorem execPairCfg_keep (q : Qcp) (s : State) : Keeps s (execPairCfg q s) := by
  exact runHost_keep _ (by simp) _ _

@[simp] theorem fusionCfgCmd_keep (q : Qcp) (s : State) : (fusionCfgCmd.effect q s).1.keep = s.keep := by
  simp [fusionCfgCmd]

theorem execFusionCfg_keep (q : Qcp) (s : State) : Keeps s (execFusionCfg q s) := by
  exact runHost_keep _ (by simp) _ _

@[simp] theorem ephLoadCmd_keep (info : List RtcmInfo) (q : Qcp) (s : State) : ((ephLoadCmd info).effect q s).1.keep = s.keep := by
  unfold ephLoadCmd
  (repeat' split)
  all_goals (try simp)
  all_goals (apply foldl_keep; intro s x; (repeat' split) <;> simp)

theorem execEphLoad_keep (q : Qcp) (info : List RtcmInfo) (s : State) : Keeps s (execEphLoad q info s) := by
  exact runHost_keep _ (by simp) _ _

@[simp] theorem putAlmanac_keep (system number : Nat) (block : List Byte) (s : State) : (putAlmanac system number block s).keep = s.keep := by
  unfold putAlmanac
  dsimp only
  (repeat' split) <;> simp_all

@[simp] theorem almLoadCmd_keep (pages : List (Option Nat)) (q : Qcp) (s : State) : ((almLoadCmd pages).effect q s).1.keep = s.keep := by
  unfold almLoadCmd
  (repeat' split)
  all_goals (try simp)
  all_goals (apply foldl_keep; intro s x; (repeat' split) <;> simp)

theorem execAlmLoad_keep (q : Qcp) (pages : List (Option Nat)) (s : State) : Keeps s (execAlmLoad q pages s) := by
  exact runHost_keep _ (by simp) _ _

@[simp] theorem pvtReadCmd_keep (q : Qcp) (s : State) : (pvtReadCmd.effect q s).1.keep = s.keep := by
  unfold pvtReadCmd
  dsimp only
  (repeat' split) <;> simp_all

theorem execPvtRead_keep (q : Qcp) (s : State) : Keeps s (execPvtRead q s) := by
  exact runHost_keep _ (by simp) _ _

@[simp] theorem measReadCmd_keep (q : Qcp) (s : State) : (measReadCmd.effect q s).1.keep = s.keep := by
  unfold measReadCmd
  dsimp only
  (repeat' split) <;> simp_all

theorem execMeasRead_keep (q : Qcp) (s : State) : Keeps s (execMeasRead q s) := by
  exact runHost_keep _ (by simp) _ _

@[simp] theorem frameWord_keep (n : Nat) (inverted : Bool) (s : State) : (frameWord n inverted s).keep = s.keep := by
  unfold frameWord
  dsimp only
  (repeat' split) <;> simp_all

theorem execNavMessage_keep (m : NavMsg) (s : State) : Keeps s (execNavMessage m s) := by
  unfold execNavMessage
  (repeat' split) <;> simp

@[simp] theorem State.modImu_keep (s : State) (f : ImuState → ImuState) : (State.modImu s f).keep = s.keep := by
  simp [State.modImu]

@[simp] theorem putInput_keep (i : FuseInput) (s : State) : (putInput i s).keep = s.keep := by
  unfold putInput
  (repeat' split) <;> simp

@[simp] theorem imuSample_keep (v : List Int) (at_ : Nat) (s : State) : (imuSample v at_ s).keep = s.keep := by
  unfold imuSample
  dsimp only
  (repeat' split) <;> simp_all

theorem execImuRead_keep (miso : List Byte) (sameTick : Bool) (s : State) : Keeps s (execImuRead miso sameTick s) := by
  unfold execImuRead
  dsimp only
  (repeat' split) <;> simp_all

theorem execImuLost_keep (s : State) : Keeps s (execImuLost s) := by
  unfold execImuLost
  (repeat' split) <;> simp

theorem execCanStale_keep (s : State) : Keeps s (execCanStale s) := by
  unfold execCanStale
  (repeat' split) <;> simp

@[simp] theorem canSpeed_keep (entry : Nat) (value : Int) (s : State) : (canSpeed entry value s).keep = s.keep := by
  unfold canSpeed
  (repeat' split) <;> simp

@[simp] theorem wheelInput_keep (n at_ : Nat) (dir : Int) (s : State) : (wheelInput n at_ dir s).keep = s.keep := by
  unfold wheelInput
  (repeat' split) <;> simp

end Sys2Proof.Machine
end

