-- ==== Sys2Proof/Laws/KeepPeriph.lean ====
section
/-! SUPPORT. What the operations of Machine/Periph.lean keep: the bundle of `State.keep`. -/

namespace Sys2Proof.Machine
open Sys2Proof

@[simp] theorem State.modPeriph_keep (s : State) (f : Periph → Periph) : (State.modPeriph s f).keep = s.keep := by
  simp [State.modPeriph]

@[simp] theorem State.modUart_keep (s : State) (n : Nat) (f : Uart → Uart) : (State.modUart s n f).keep = s.keep := by
  simp [State.modUart]

@[simp] theorem State.periphCheck_keep (s : State) (block check value : Nat) : (State.periphCheck s block check value).keep = s.keep := by
  simp [State.periphCheck]

@[simp] theorem uartTxWrite_keep (n : Nat) (value : Word) (s : State) : (uartTxWrite n value s).keep = s.keep := by
  unfold uartTxWrite
  (repeat' split) <;> simp

theorem execUaTxWrite_keep (uart : Nat) (value : Word) (s : State) : Keeps s (execUaTxWrite uart value s) := by
  simp [execUaTxWrite]

@[simp] theorem uartRxRead_keep (n : Nat) (s : State) : (uartRxRead n s).keep = s.keep := by
  unfold uartRxRead
  (repeat' split) <;> simp

theorem execUaRxRead_keep (uart : Nat) (s : State) : Keeps s (execUaRxRead uart s) := by
  simp [execUaRxRead]

@[simp] theorem uartCheck_keep (n check : Nat) (s : State) : (uartCheck n check s).keep = s.keep := by
  unfold uartCheck
  (repeat' split) <;> simp

@[simp] theorem uartErrors_keep (n : Nat) (c : UartChar) (over_ : Bool) (s : State) : (uartErrors n c over_ s).keep = s.keep := by
  unfold uartErrors
  dsimp only
  (repeat' split) <;> simp_all

@[simp] theorem deliver_keep (n : Nat) (c : UartChar) (s : State) : (deliver n c s).keep = s.keep := by
  unfold deliver
  (repeat' split) <;> simp

@[simp] theorem cardReceive_keep (n : Nat) (l : RxLine) (s : State) : (cardReceive n l s).keep = s.keep := by
  unfold cardReceive
  dsimp only
  (repeat' split) <;> simp_all

@[simp] theorem uartReceive_keep (n : Nat) (l : RxLine) (s : State) : (uartReceive n l s).keep = s.keep := by
  unfold uartReceive
  dsimp only
  (repeat' split) <;> simp_all

theorem execUartRxChar_keep (uart : Nat) (line : RxLine) (s : State) : Keeps s (execUartRxChar uart line s) := by
  unfold execUartRxChar
  (repeat' split) <;> simp

@[simp] theorem feedUart_keep (n : Nat) (s : State) : (feedUart n s).keep = s.keep := by
  unfold feedUart
  dsimp only
  (repeat' split) <;> simp_all

@[simp] theorem feedUarts_keep (s : State) : (feedUarts s).keep = s.keep := by
  unfold feedUarts
  (repeat' split)
  all_goals (try simp)
  all_goals (apply foldl_keep; intro s x; (repeat' split) <;> simp)

@[simp] theorem charSent_keep (n : Nat) (low : Bool) (s : State) : (charSent n low s).keep = s.keep := by
  unfold charSent
  dsimp only
  (repeat' split) <;> simp_all

theorem execUartCharSent_keep (uart : Nat) (low : Bool) (s : State) : Keeps s (execUartCharSent uart low s) := by
  unfold execUartCharSent
  (repeat' split) <;> simp

@[simp] theorem uartCfg_keep (q : Qcp) (s : State) : (uartCfg q s).1.keep = s.keep := by
  unfold uartCfg
  (repeat' split) <;> simp

@[simp] theorem uartCfgCmd_keep (q : Qcp) (s : State) : (uartCfgCmd.effect q s).1.keep = s.keep := by
  simp [uartCfgCmd]

theorem execUartCfg_keep (q : Qcp) (s : State) : Keeps s (execUartCfg q s) := by
  exact runHost_keep _ (by simp) _ _

@[simp] theorem periphStatusCmd_keep (q : Qcp) (s : State) : (periphStatusCmd.effect q s).1.keep = s.keep := by
  simp [periphStatusCmd]

theorem execPeriphStatus_keep (q : Qcp) (s : State) : Keeps s (execPeriphStatus q s) := by
  exact runHost_keep _ (by simp) _ _

@[simp] theorem cardCfg_keep (q : Qcp) (s : State) : (cardCfg q s).1.keep = s.keep := by
  simp [cardCfg]

@[simp] theorem cardCfgCmd_keep (q : Qcp) (s : State) : (cardCfgCmd.effect q s).1.keep = s.keep := by
  simp [cardCfgCmd]

theorem execCardCfg_keep (q : Qcp) (s : State) : Keeps s (execCardCfg q s) := by
  exact runHost_keep _ (by simp) _ _

@[simp] theorem State.cardEvent_keep (s : State) (n kind : Nat) : (State.cardEvent s n kind).keep = s.keep := by
  simp [State.cardEvent]

@[simp] theorem deactivate_keep (n : Nat) (s : State) : (deactivate n s).keep = s.keep := by
  simp [deactivate]

@[simp] theorem cardReset_keep (atr : Option CardAtr) (q : Qcp) (s : State) : (cardReset atr q s).1.keep = s.keep := by
  unfold cardReset
  dsimp only
  (repeat' split) <;> simp_all

@[simp] theorem cardResetCmd_keep (atr : Option CardAtr) (q : Qcp) (s : State) : ((cardResetCmd atr).effect q s).1.keep = s.keep := by
  simp [cardResetCmd]

theorem execCardReset_keep (q : Qcp) (atr : Option CardAtr) (s : State) : Keeps s (execCardReset q atr s) := by
  exact runHost_keep _ (by simp) _ _

@[simp] theorem cardApduCmd_keep (q : Qcp) (s : State) : (cardApduCmd.effect q s).1.keep = s.keep := by
  simp [cardApduCmd]

theorem execCardApdu_keep (q : Qcp) (s : State) : Keeps s (execCardApdu q s) := by
  exact runHost_keep _ (by simp) _ _

@[simp] theorem cardApduEnd_keep (n : Nat) (how : CardEnd) (s : State) : (cardApduEnd n how s).keep = s.keep := by
  unfold cardApduEnd
  (repeat' split) <;> simp

theorem execCardApduComplete_keep (uart : Nat) (how : CardEnd) (s : State) : Keeps s (execCardApduComplete uart how s) := by
  unfold execCardApduComplete
  (repeat' split) <;> simp

theorem execCardWaitTimeout_keep (uart : Nat) (s : State) : Keeps s (execCardWaitTimeout uart s) := by
  unfold execCardWaitTimeout
  dsimp only
  (repeat' split) <;> simp_all

@[simp] theorem imuCfgCmd_keep (q : Qcp) (s : State) : (imuCfgCmd.effect q s).1.keep = s.keep := by
  simp [imuCfgCmd]

theorem execImuCfg_keep (q : Qcp) (s : State) : Keeps s (execImuCfg q s) := by
  exact runHost_keep _ (by simp) _ _

@[simp] theorem imuXferCmd_keep (miso : Option (List Byte)) (q : Qcp) (s : State) : ((imuXferCmd miso).effect q s).1.keep = s.keep := by
  unfold imuXferCmd
  (repeat' split) <;> simp

theorem execImuXfer_keep (q : Qcp) (miso : Option (List Byte)) (s : State) : Keeps s (execImuXfer q miso s) := by
  exact runHost_keep _ (by simp) _ _

@[simp] theorem i2cXferCmd_keep (how : I2cEnd) (q : Qcp) (s : State) : ((i2cXferCmd how).effect q s).1.keep = s.keep := by
  unfold i2cXferCmd
  (repeat' split) <;> simp

theorem execI2cXfer_keep (q : Qcp) (how : I2cEnd) (s : State) : Keeps s (execI2cXfer q how s) := by
  exact runHost_keep _ (by simp) _ _

@[simp] theorem State.modCan_keep (s : State) (n : Nat) (f : CanPort → CanPort) : (State.modCan s n f).keep = s.keep := by
  simp [State.modCan]

@[simp] theorem canCfgCmd_keep (q : Qcp) (s : State) : (canCfgCmd.effect q s).1.keep = s.keep := by
  simp [canCfgCmd]

theorem execCanCfg_keep (q : Qcp) (s : State) : Keeps s (execCanCfg q s) := by
  exact runHost_keep _ (by simp) _ _

@[simp] theorem canMapCmd_keep (q : Qcp) (s : State) : (canMapCmd.effect q s).1.keep = s.keep := by
  simp [canMapCmd]

theorem execCanMap_keep (q : Qcp) (s : State) : Keeps s (execCanMap q s) := by
  exact runHost_keep _ (by simp) _ _

@[simp] theorem canSettle_keep (n : Nat) (s : State) : (canSettle n s).keep = s.keep := by
  unfold canSettle
  dsimp only
  (repeat' split) <;> simp_all

@[simp] theorem canTx_keep (how : CanTxEnd) (q : Qcp) (s : State) : (canTx how q s).1.keep = s.keep := by
  simp [canTx]

@[simp] theorem canTxCmd_keep (how : CanTxEnd) (q : Qcp) (s : State) : ((canTxCmd how).effect q s).1.keep = s.keep := by
  simp [canTxCmd]

theorem execCanTx_keep (q : Qcp) (how : CanTxEnd) (s : State) : Keeps s (execCanTx q how s) := by
  exact runHost_keep _ (by simp) _ _

@[simp] theorem canSignal_keep (f : CanFrame) (i : Nat) (s : State) : (canSignal f i s).keep = s.keep := by
  unfold canSignal
  dsimp only
  (repeat' split) <;> simp_all

@[simp] theorem canReceive_keep (f : CanFrame) (same : Bool) (s : State) : (canReceive f same s).keep = s.keep := by
  have h (s : State) : ((List.range 64).foldl (fun s i => canSignal f i s) s).keep = s.keep := foldl_keep _ (by intro s x; simp) _ _
  unfold canReceive
  dsimp only
  split <;> simp [h]

theorem execCanFrameRx_keep (f : CanFrame) (sameTick : Bool) (s : State) : Keeps s (execCanFrameRx f sameTick s) := by
  unfold execCanFrameRx
  (repeat' split) <;> simp

theorem execCanBusError_keep (port : Nat) (transmit heavy : Bool) (s : State) : Keeps s (execCanBusError port transmit heavy s) := by
  unfold execCanBusError
  (repeat' split) <;> simp

theorem execBusOffRecovery_keep (port : Nat) (s : State) : Keeps s (execBusOffRecovery port s) := by
  unfold execBusOffRecovery
  (repeat' split) <;> simp

@[simp] theorem wtCfgCmd_keep (q : Qcp) (s : State) : (wtCfgCmd.effect q s).1.keep = s.keep := by
  simp [wtCfgCmd]

theorem execWtCfg_keep (q : Qcp) (s : State) : Keeps s (execWtCfg q s) := by
  exact runHost_keep _ (by simp) _ _

@[simp] theorem State.modWheel_keep (s : State) (n : Nat) (f : WheelIn → WheelIn) : (State.modWheel s n f).keep = s.keep := by
  simp [State.modWheel]

@[simp] theorem wheelTick_keep (n : Nat) (rising : Bool) (pin : Nat) (s : State) : (wheelTick n rising pin s).keep = s.keep := by
  unfold wheelTick
  dsimp only
  (repeat' split) <;> simp_all

theorem execWheelTick_keep (input : Nat) (rising : Bool) (pin : Nat) (s : State) : Keeps s (execWheelTick input rising pin s) := by
  unfold execWheelTick
  (repeat' split) <;> simp

@[simp] theorem State.modGpio_keep (s : State) (n : Nat) (f : GpioPin → GpioPin) : (State.modGpio s n f).keep = s.keep := by
  simp [State.modGpio]

@[simp] theorem gpioCfgCmd_keep (q : Qcp) (s : State) : (gpioCfgCmd.effect q s).1.keep = s.keep := by
  simp [gpioCfgCmd]

theorem execGpioCfg_keep (q : Qcp) (s : State) : Keeps s (execGpioCfg q s) := by
  exact runHost_keep _ (by simp) _ _

@[simp] theorem gpioWriteCmd_keep (q : Qcp) (s : State) : (gpioWriteCmd.effect q s).1.keep = s.keep := by
  unfold gpioWriteCmd
  (repeat' split)
  all_goals (try simp)
  all_goals (apply foldl_keep; intro s x; (repeat' split) <;> simp)

theorem execGpioWrite_keep (q : Qcp) (s : State) : Keeps s (execGpioWrite q s) := by
  exact runHost_keep _ (by simp) _ _

@[simp] theorem gpioReadCmd_keep (q : Qcp) (s : State) : (gpioReadCmd.effect q s).1.keep = s.keep := by
  simp [gpioReadCmd]

theorem execGpioRead_keep (q : Qcp) (s : State) : Keeps s (execGpioRead q s) := by
  exact runHost_keep _ (by simp) _ _

@[simp] theorem gpioEdge_keep (n : Nat) (rising same : Bool) (s : State) : (gpioEdge n rising same s).keep = s.keep := by
  unfold gpioEdge
  dsimp only
  (repeat' split) <;> simp_all

theorem execGpioEdge_keep (pin : Nat) (rising sameTick : Bool) (s : State) : Keeps s (execGpioEdge pin rising sameTick s) := by
  unfold execGpioEdge
  (repeat' split) <;> simp

@[simp] theorem gpioDrive_keep (mask : Word) (f : Nat → Bool) (s : State) : (gpioDrive mask f s).keep = s.keep := by
  unfold gpioDrive
  (repeat' split)
  all_goals (try simp)
  all_goals (apply foldl_keep; intro s x; (repeat' split) <;> simp)

theorem execGpSet_keep (value : Word) (s : State) : Keeps s (execGpSet value s) := by
  simp [execGpSet]

theorem execGpClr_keep (value : Word) (s : State) : Keeps s (execGpClr value s) := by
  simp [execGpClr]

end Sys2Proof.Machine
end

