-- ==== Sys2Proof/Laws/KeepUc.lean ====
section
/-! SUPPORT. What the operations of Machine/Uc.lean keep: the bundle of `State.keep`. -/

namespace Sys2Proof.Machine
open Sys2Proof

@[simp] theorem State.modTimer_keep (s : State) (n : Nat) (f : UcTimer → UcTimer) : (State.modTimer s n f).keep = s.keep := by
  simp [State.modTimer]

theorem execUcTimerExpiry_keep (timer : Nat) (s : State) : Keeps s (execUcTimerExpiry timer s) := by
  unfold execUcTimerExpiry
  (repeat' split) <;> simp

@[simp] theorem timerCtrlWrite_keep (n value : Nat) (s : State) : (timerCtrlWrite n value s).keep = s.keep := by
  simp [timerCtrlWrite]

theorem execUcTmrCtrlWrite_keep (timer value : Nat) (s : State) : Keeps s (execUcTmrCtrlWrite timer value s) := by
  unfold execUcTmrCtrlWrite
  (repeat' split) <;> simp

@[simp] theorem timerWrite_keep (n off value : Nat) (s : State) : (timerWrite n off value s).keep = s.keep := by
  unfold timerWrite
  (repeat' split) <;> simp

@[simp] theorem evcPop_keep (value : Nat) (s : State) : (evcPop value s).keep = s.keep := by
  unfold evcPop
  (repeat' split) <;> simp

theorem execEvcPop_keep (value : Nat) (s : State) : Keeps s (execEvcPop value s) := by
  unfold execEvcPop
  (repeat' split) <;> simp

@[simp] theorem s15Write_keep (value : Nat) (s : State) : (s15Write value s).keep = s.keep := by
  simp [s15Write]

theorem execS15Txdata_keep (value : Nat) (s : State) : Keeps s (execS15Txdata value s) := by
  unfold execS15Txdata
  (repeat' split) <;> simp

@[simp] theorem s15Pop_keep (s : State) : (s15Pop s).keep = s.keep := by
  simp [s15Pop]

theorem execS15Rxdata_keep (s : State) : Keeps s (execS15Rxdata s) := by
  unfold execS15Rxdata
  (repeat' split) <;> simp

@[simp] theorem fillS15_keep (n : Nat) (s : State) : (fillS15 n s).keep = s.keep := by
  induction n generalizing s with
  | zero => rfl
  | succ n ih =>
    unfold fillS15
    split
    · rfl
    · dsimp only
      split
      · exact (ih _).trans (by simp)
      · rfl

@[simp] theorem serveS15_keep (s : State) : (serveS15 s).keep = s.keep := by
  unfold serveS15
  (repeat' split) <;> simp

@[simp] theorem startCore_keep (n : Nat) (entry g1 : Word) (s : State) : (startCore n entry g1 s).keep = s.keep := by
  simp [startCore]

@[simp] theorem stopActions_keep (s : State) : (stopActions s).keep = s.keep := by
  unfold stopActions
  (repeat' split)
  all_goals (try simp)
  all_goals (apply foldl_keep; intro s x; (repeat' split) <;> simp)

@[simp] theorem stopUc_keep (s : State) : (stopUc s).keep = s.keep := by
  simp [stopUc]

@[simp] theorem ucCfgCmd_keep (q : Qcp) (s : State) : (ucCfgCmd.effect q s).1.keep = s.keep := by
  simp [ucCfgCmd]

theorem execUcCfg_keep (q : Qcp) (s : State) : Keeps s (execUcCfg q s) := by
  exact runHost_keep _ (by simp) _ _

@[simp] theorem ucStatusCmd_keep (q : Qcp) (s : State) : (ucStatusCmd.effect q s).1.keep = s.keep := by
  simp [ucStatusCmd]

theorem execUcStatus_keep (q : Qcp) (s : State) : Keeps s (execUcStatus q s) := by
  exact runHost_keep _ (by simp) _ _

@[simp] theorem ucLoadCmd_keep (q : Qcp) (s : State) : (ucLoadCmd.effect q s).1.keep = s.keep := by
  simp [ucLoadCmd]

theorem execUcLoad_keep (q : Qcp) (s : State) : Keeps s (execUcLoad q s) := by
  exact runHost_keep _ (by simp) _ _

@[simp] theorem ucStart_keep (entry : Word) (s : State) : (ucStart entry s).keep = s.keep := by
  simp [ucStart]

@[simp] theorem ucStartCmd_keep (q : Qcp) (s : State) : (ucStartCmd.effect q s).1.keep = s.keep := by
  simp [ucStartCmd]

theorem execUcStart_keep (q : Qcp) (s : State) : Keeps s (execUcStart q s) := by
  exact runHost_keep _ (by simp) _ _

@[simp] theorem ucStopCmd_keep (q : Qcp) (s : State) : (ucStopCmd.effect q s).1.keep = s.keep := by
  simp [ucStopCmd]

theorem execUcStop_keep (q : Qcp) (s : State) : Keeps s (execUcStop q s) := by
  exact runHost_keep _ (by simp) _ _

theorem execUcWatchdog_keep (s : State) : Keeps s (execUcWatchdog s) := by
  unfold execUcWatchdog
  (repeat' split) <;> simp

@[simp] theorem ucSwapCmd_keep (q : Qcp) (s : State) : (ucSwapCmd.effect q s).1.keep = s.keep := by
  simp [ucSwapCmd]

theorem execUcSwap_keep (q : Qcp) (s : State) : Keeps s (execUcSwap q s) := by
  exact runHost_keep _ (by simp) _ _

@[simp] theorem swapProgram_keep (word : Word) (forced : Bool) (s : State) : (swapProgram word forced s).keep = s.keep := by
  have h (l : List Nat) (s : State) : (l.foldl (fun s n => s.modDma n fun c => { c with done := false, err := false }) s).keep = s.keep :=
    foldl_keep _ (by intro s x; simp) _ _
  unfold swapProgram
  split <;> simp [h]

theorem execSwapForced_keep (s : State) : Keeps s (execSwapForced s) := by
  unfold execSwapForced
  (repeat' split) <;> simp

@[simp] theorem swapResume_keep (s : State) : (swapResume s).keep = s.keep := by
  unfold swapResume
  (repeat' split) <;> simp

theorem execUcSwapResume_keep (s : State) : Keeps s (execUcSwapResume s) := by
  unfold execUcSwapResume
  (repeat' split) <;> simp

@[simp] theorem ucTicks_keep (n : Nat) (s : State) : (ucTicks n s).keep = s.keep := by
  unfold ucTicks
  (repeat' split) <;> simp

@[simp] theorem ucBoundary_keep (s : State) : (ucBoundary s).keep = s.keep := by
  unfold ucBoundary
  dsimp only
  (repeat' split) <;> simp_all

end Sys2Proof.Machine
end

