-- ==== Sys2Proof/Laws/KeepIo.lean ====
section
/-! SUPPORT. What the operations of Machine/Io.lean keep: the bundle of `State.keep`. -/

namespace Sys2Proof.Machine
open Sys2Proof

@[simp] theorem mbWrite_keep (off value : Nat) (s : State) : (mbWrite off value s).keep = s.keep := by
  unfold mbWrite
  (repeat' split) <;> simp

@[simp] theorem uaCtrlWrite_keep (n value : Nat) (s : State) : (uaCtrlWrite n value s).keep = s.keep := by
  simp [uaCtrlWrite]

@[simp] theorem uaCardWrite_keep (n value : Nat) (s : State) : (uaCardWrite n value s).keep = s.keep := by
  simp [uaCardWrite]

@[simp] theorem uartWrite_keep (n off value : Nat) (s : State) : (uartWrite n off value s).keep = s.keep := by
  unfold uartWrite
  (repeat' split) <;> simp

@[simp] theorem gpioWrite__keep (off value : Nat) (s : State) : (gpioWrite_ off value s).keep = s.keep := by
  unfold gpioWrite_
  (repeat' split) <;> simp

@[simp] theorem ioReadEffect_keep (a : Nat) (s : State) : (ioReadEffect a s).keep = s.keep := by
  unfold ioReadEffect
  dsimp only
  (repeat' split) <;> simp_all

@[simp] theorem ioRead_keep (a : Nat) (s : State) : (ioRead a s).1.keep = s.keep := by
  simp [ioRead]

@[simp] theorem ioWrite_keep (a value : Nat) (s : State) : (ioWrite a value s).keep = s.keep := by
  unfold ioWrite
  dsimp only
  (repeat' split) <;> simp_all

theorem execRegisterWrite_keep (addr value : Word) (s : State) : Keeps s (execRegisterWrite addr value s) := by
  unfold execRegisterWrite
  (repeat' split) <;> simp

theorem execCipherOpComplete_keep (unit : Nat) (how : CipherEnd) (s : State) : Keeps s (execCipherOpComplete unit how s) := by
  unfold execCipherOpComplete
  (repeat' split) <;> simp

@[simp] theorem applyClash_keep (x : Clash) (master a n : Nat) (s : State) : (applyClash x master a n s).keep = s.keep := by
  have h (w : Nat) (p : Nat → Bool) (g : Nat → Option Byte) (s : State) :
      ((List.range 8).foldl (fun s i => match g i with
        | none => s
        | some v => if p i then s else { s with mem := s.mem.setByte (w + i) v }) s).keep = s.keep := by
    apply foldl_keep
    intro s i
    split
    · rfl
    · split <;> simp
  have h3 (c : Prop) [Decidable c] (s : State) (a : List Byte) : (if c then s.notify 0x8230 a else s).keep = s.keep := by split <;> simp
  unfold applyClash
  extract_lets w b k mineB lane theirs both s1 bytes ma mb s2
  have h1 : s1.keep = s.keep := h _ _ _ _
  have h2 : s2.keep = s.keep := (State.modBank_keep _ _ _).trans h1
  exact ite_cases (fun t : State => t.keep = s.keep) _ rfl (ite_cases (fun t : State => t.keep = s.keep) _ h1 ((h3 _ _ _).trans h2))

@[simp] theorem storeAs_keep (clash : Option Clash) (master a : Nat) (bs : List Byte) (s : State) : (storeAs clash master a bs s).keep = s.keep := by
  unfold storeAs
  (repeat' split) <;> simp

@[simp] theorem dmaFetch_keep (fixed : Bool) (a k : Nat) (s : State) : (dmaFetch fixed a k s).1.keep = s.keep := by
  induction k generalizing a s with
  | zero => rfl
  | succ k ih => exact (ih _ _).trans (ioRead_keep _ _)

@[simp] theorem dmaPut_keep (fixed : Bool) (a : Nat) (bs : List Byte) (k : Nat) (s : State) : (dmaPut fixed a bs k s).keep = s.keep := by
  induction k generalizing a bs s with
  | zero => rfl
  | succ k ih => exact (ih _ _ _).trans (ioWrite_keep _ _ _)

@[simp] theorem dmaDone_keep (n : Nat) (sameTick : Bool) (s : State) : (dmaDone n sameTick s).keep = s.keep := by
  unfold dmaDone
  dsimp only
  (repeat' split) <;> simp_all

@[simp] theorem dmaBurst_keep (n : Nat) (sameTick : Bool) (clash : Option Clash) (s : State) : (dmaBurst n sameTick clash s).keep = s.keep := by
  unfold dmaBurst
  dsimp only
  (repeat' split) <;> simp_all

theorem execDmaBurst_keep (sameTick : Bool) (clash : Option Clash) (s : State) : Keeps s (execDmaBurst sameTick clash s) := by
  unfold execDmaBurst
  (repeat' split) <;> simp

end Sys2Proof.Machine
end

