-- ==== Sys2Proof/Laws/KeepNavEpoch.lean ====
section
/-! SUPPORT. What the operations of Machine/NavEpoch.lean keep: the bundle of `State.keep`. -/

namespace Sys2Proof.Machine
open Sys2Proof

@[simp] theorem measure_keep (s : State) (beat : Nat) (rx : Rat) (o : NavObs) : (measure s beat rx o).1.keep = s.keep := by
  unfold measure
  dsimp only
  (repeat' split) <;> simp_all

@[simp] theorem measureAll_keep (beat : Nat) (rx : Rat) (os : List NavObs) (s : State) : (measureAll beat rx os s).1.keep = s.keep := by
  induction os generalizing s with
  | nil => rfl
  | cons o os ih => exact (ih _).trans (measure_keep _ _ _ _)

@[simp] theorem sendMeas_keep (s : State) (m : MeasEpoch) : (sendMeas s m).keep = s.keep := by
  unfold sendMeas
  (repeat' split)
  all_goals (try simp)
  all_goals (apply foldl_keep; intro s x; (repeat' split) <;> simp)

@[simp] theorem navBoundary_keep (s : State) : (navBoundary s).keep = s.keep := by
  unfold navBoundary
  (repeat' split)
  all_goals (try simp)
  all_goals (apply foldl_keep; intro s x; (repeat' split) <;> simp)

@[simp] theorem testPair_keep (beat : Nat) (all : List AoaObs) (s : State) (i : Nat) : (testPair beat all s i).keep = s.keep := by
  have h (c : Prop) [Decidable c] (f : State → AoaObs × Rat → State) (hf : ∀ s x, (f s x).keep = s.keep) (l : List (AoaObs × Rat)) (n : Nat) (p q : List Nat) :
      (if c then (s, 0, p) else (l.foldl f s, n, q)).1.keep = s.keep := by
    split
    · rfl
    · exact foldl_keep f hf _ _
  unfold testPair
  split
  · rfl
  · refine (State.modNav_keep _ _).trans (h _ _ ?_ _ _ _ _)
    intro s x
    exact foldl_keep _ (by intro s c; simp) _ _

@[simp] theorem testPairs_keep (beat : Nat) (all : List AoaObs) (s : State) : (testPairs beat all s).keep = s.keep := by
  unfold testPairs
  (repeat' split)
  all_goals (try simp)
  all_goals (apply foldl_keep; intro s x; (repeat' split) <;> simp)

@[simp] theorem updateSources_keep (te : Nat) (pos : List Int) (sats : List Nat) (s : State) : (updateSources te pos sats s).keep = s.keep := by
  unfold updateSources
  dsimp only
  (repeat' split) <;> simp_all

@[simp] theorem updateExcluded_keep (res : List (Nat × Rat)) (new : List Nat) (s : State) : (updateExcluded res new s).keep = s.keep := by
  unfold updateExcluded
  refine (foldl_keep _ (by intro s x; simp) _ _).trans ((foldl_keep _ (by intro s x; simp) _ _).trans (State.modNav_keep _ _))

@[simp] theorem recTime_keep (dt : Nat) (s : State) : (recTime dt s).1.keep = s.keep := by
  unfold recTime
  dsimp only
  (repeat' split) <;> simp_all

@[simp] theorem integrityAlarm_keep (bad : Bool) (integ mode hpl vpl : Nat) (s : State) : (integrityAlarm bad integ mode hpl vpl s).keep = s.keep := by
  unfold integrityAlarm
  dsimp only
  (repeat' split) <;> simp_all

@[simp] theorem headingStep_keep (s : State) (h : Option HeadFix) : (headingStep s h).keep = s.keep := by
  unfold headingStep
  (repeat' split) <;> simp

@[simp] theorem State.modRef_keep (s : State) (f : RefStn → RefStn) : (State.modRef s f).keep = s.keep := by
  simp [State.modRef]

@[simp] theorem refSend_keep (frames : List (List Byte)) (s : State) : (refSend frames s).keep = s.keep := by
  unfold refSend
  extract_lets out s1
  have h1 : s1.keep = s.keep := by
    simp only [s1]
    split
    · exact foldl_keep _ (by intro s x; simp) _ _
    · rfl
  split
  · exact (foldl_keep _ (by intro s x; simp) _ _).trans h1
  · exact h1

@[simp] theorem refEpoch_keep (x : NavInput) (s : State) : (refEpoch x s).keep = s.keep := by
  unfold refEpoch
  dsimp only
  (repeat' split) <;> simp_all

@[simp] theorem surveyRecord_keep (r : NavRec) (s : State) : (surveyRecord r s).keep = s.keep := by
  unfold surveyRecord
  dsimp only
  (repeat' split) <;> simp_all

@[simp] theorem refOutput_keep (beat : Nat) (x : NavInput) (s : State) : (refOutput beat x s).keep = s.keep := by
  unfold refOutput
  dsimp only
  (repeat' split) <;> simp_all

@[simp] theorem latchEpoch_keep (s : State) : (latchEpoch s).keep = s.keep := by
  simp [latchEpoch]

@[simp] theorem navReset_keep (kind : Nat) (s : State) : (navReset kind s).keep = s.keep := by
  unfold navReset
  (repeat' split) <;> simp

@[simp] theorem saveNav_keep (s : State) : (saveNav s).keep = s.keep := by
  unfold saveNav
  split <;> rfl

@[simp] theorem pvtRecord_keep (beat te : Nat) (mode : Nat) (f : NavFix) (tracked : Nat) (head : Option HeadFix) (att : Bool) (plOk fdeFail : Bool) (hpl vpl integ : Nat) (s : State) : (pvtRecord beat te mode f tracked head att plOk fdeFail hpl vpl integ s).1.keep = s.keep := by
  simp [pvtRecord]

@[simp] theorem updateEpoch_keep (beat : Nat) (x : NavInput) (rs : List MeasRec) (s : State) : (updateEpoch beat x rs s).keep = s.keep := by
  have ev (c : Prop) [Decidable c] (a b : Nat) (d : Option Nat) (s : State) : (if c then s.navEvent a b d else s).keep = s.keep := by split <;> simp
  have ev' (c : Prop) [Decidable c] (a b : Nat) (d : Option Nat) (s : State) : (if c then s else s.navEvent a b d).keep = s.keep := by split <;> simp
  have nt (c : Prop) [Decidable c] (s : State) (p : List Byte) : (if c then s.notify 0x8720 p else s).keep = s.keep := by split <;> simp
  unfold updateEpoch
  simp [ev, ev', nt]

@[simp] theorem checkpoint_keep (s : State) : (checkpoint s).keep = s.keep := by
  simp [checkpoint]

@[simp] theorem navEpoch_keep (x : NavInput) (s : State) : (navEpoch x s).keep = s.keep := by
  unfold navEpoch
  dsimp only
  (repeat' split) <;> simp_all

theorem execNavEpoch_keep (x : NavInput) (s : State) : Keeps s (execNavEpoch x s) := by
  simp [execNavEpoch]

theorem execNavDeadline_keep (s : State) : Keeps s (execNavDeadline s) := by
  unfold execNavDeadline
  (repeat' split) <;> simp

theorem execFusedEpoch_keep (x : FusedFix) (s : State) : Keeps s (execFusedEpoch x s) := by
  unfold execFusedEpoch
  dsimp only
  (repeat' split) <;> simp_all

end Sys2Proof.Machine
end

