-- ==== Sys2Proof/Laws/KeepReplay.lean ====
section
/-! SUPPORT. What the operations of Machine/Replay.lean keep: the bundle of `State.keep`. -/

namespace Sys2Proof.Machine
open Sys2Proof

@[simp] theorem placeEntry_keep (w first : Nat) (groups : BitVec 32) (n : Nat) (plan : List Byte) (s : State) : (placeEntry w first groups n plan s).keep = s.keep := by
  simp [placeEntry]

@[simp] theorem placeEntries_keep (w first : Nat) (groups : BitVec 32) (plans : List (List Byte)) (s : State) :
    (placeEntries w first groups plans s).1.keep = s.keep := foldl_keep _ (by intro s x; exact placeEntry_keep _ _ _ _ _ _) _ _

@[simp] theorem carafeReplay_keep (plans : List (List Byte)) (q : Qcp) (s : State) : (carafeReplay plans q s).1.keep = s.keep := by
  simp [carafeReplay]

@[simp] theorem carafeReplayCmd_keep (plans : List (List Byte)) (q : Qcp) (s : State) : ((carafeReplayCmd plans).effect q s).1.keep = s.keep := by
  simp [carafeReplayCmd]

theorem execCarafeReplay_keep (q : Qcp) (plans : List (List Byte)) (s : State) : Keeps s (execCarafeReplay q plans s) := by
  exact runHost_keep _ (by simp) _ _

@[simp] theorem stopWindow_keep (w : Nat) (s : State) : (stopWindow w s).keep = s.keep := by
  unfold stopWindow
  (repeat' split)
  all_goals (try simp)
  all_goals (apply foldl_keep; intro s x; (repeat' split) <;> simp)

@[simp] theorem replayBoundary_keep (s : State) : (replayBoundary s).keep = s.keep := by
  unfold replayBoundary
  (repeat' split) <;> simp

@[simp] theorem resolvedRecord_keep (beat : Nat) (f : NavFix) (tracked : Nat) (s : State) : (resolvedRecord beat f tracked s).1.keep = s.keep := by
  simp [resolvedRecord]

@[simp] theorem endReplay_keep (w : Nat) (s : State) : (endReplay w s).keep = s.keep := by
  simp [endReplay]

@[simp] theorem replayNone_keep (r : Replay) (status : Nat) (s : State) : (replayNone r status s).keep = s.keep := by
  simp [replayNone]

@[simp] theorem abortReplay_keep (s : State) : (abortReplay s).keep = s.keep := by
  unfold abortReplay
  (repeat' split)
  all_goals (try simp)
  all_goals (apply foldl_keep; intro s x; (repeat' split) <;> simp)

@[simp] theorem replayDone_keep (fix : Option NavFix) (tracked : Nat) (s : State) : (replayDone fix tracked s).keep = s.keep := by
  unfold replayDone
  dsimp only
  (repeat' split) <;> simp_all

theorem execReplayDone_keep (fix : Option NavFix) (tracked : Nat) (s : State) : Keeps s (execReplayDone fix tracked s) := by
  simp [execReplayDone]

end Sys2Proof.Machine
end

