-- ==== Sys2Proof/Laws/KeepPower.lean ====
section
/-! SUPPORT. What the operations of Machine/Power.lean keep: the bundle of `State.keep`. -/

namespace Sys2Proof.Machine
open Sys2Proof

@[simp] theorem retainBanks_keep (keep : List Nat) (s : State) : (retainBanks keep s).keep = s.keep := by
  simp [retainBanks]

@[simp] theorem restoreBanks_keep (s : State) : (restoreBanks s).keep = s.keep := by
  simp [restoreBanks]

@[simp] theorem stopCores_keep (ns : List Nat) (s : State) : (stopCores ns s).keep = s.keep := by
  unfold stopCores
  (repeat' split)
  all_goals (try simp)
  all_goals (apply foldl_keep; intro s x; (repeat' split) <;> simp)

@[simp] theorem startVendor_keep (n : Nat) (s : State) : (startVendor n s).keep = s.keep := by
  simp [startVendor]

@[simp] theorem State.modBoot_keep (s : State) (f : BootInfo → BootInfo) : (State.modBoot s f).keep = s.keep := by
  simp [State.modBoot]

@[simp] theorem State.bindGroups_keep (s : State) (m : List (Nat × Nat)) : (State.bindGroups s m).keep = s.keep := by
  simp [State.bindGroups]

@[simp] theorem endLoopSwaps_keep (s : State) : (endLoopSwaps s).keep = s.keep := by
  unfold endLoopSwaps
  (repeat' split)
  all_goals (try simp)
  all_goals (apply foldl_keep; intro s x; (repeat' split) <;> simp)

@[simp] theorem endNavSwap_keep (s : State) : (endNavSwap s).keep = s.keep := by
  unfold endNavSwap
  (repeat' split) <;> simp

@[simp] theorem domainOff_keep (s : State) (n : Nat) : (domainOff s n).keep = s.keep := by
  unfold domainOff
  dsimp only
  split
  · exact (foldl_keep _ (by intro s x; simp) _ _).trans (by simp)
  · exact (foldl_keep _ (by intro s x; simp) _ _).trans (by simp)
  · split <;> simp
  · split <;> simp
  · simp
  · simp
  · simp
  · simp
  · simp
  · simp
  · simp
  · refine (State.modPeriph_keep _ _).trans ((foldl_keep _ (by intro s x; simp) _ _).trans (by simp))
  · simp
  · simp

@[simp] theorem domainOn_keep (s : State) (n : Nat) : (domainOn s n).keep = s.keep := by
  unfold domainOn
  dsimp only
  (repeat' split) <;> simp_all

@[simp] theorem applyDomains_keep (d : BitVec 16) (s : State) : (applyDomains d s).keep = s.keep := by
  unfold applyDomains
  exact (foldl_keep _ (by intro s x; simp) _ _).trans (foldl_keep _ (by intro s x; simp) _ _)

@[simp] theorem captureRef_keep (s : State) : (captureRef s).keep = s.keep := by
  simp [captureRef]

@[simp] theorem enterState_keep (st : PowerState) (cause : StartCause) (rule : Nat) (s : State) : (enterState st cause rule s).keep = s.keep := by
  unfold enterState
  dsimp only
  (repeat' split) <;> simp_all

@[simp] theorem endCipher_keep (s : State) : (endCipher s).keep = s.keep := by
  unfold endCipher
  (repeat' split)
  all_goals (try simp)
  all_goals (apply foldl_keep; intro s x; (repeat' split) <;> simp)

@[simp] theorem endChannels_keep (s : State) : (endChannels s).keep = s.keep := by
  unfold endChannels
  (repeat' split)
  all_goals (try simp)
  all_goals (apply foldl_keep; intro s x; (repeat' split) <;> simp)

@[simp] theorem descent_keep (s : State) : (descent s).keep = s.keep := by
  unfold descent
  extract_lets s1 s2 s3 s4 s5 s6 s7 s8 s9 s10 s11
  have h1 : s1.keep = s.keep := by simp only [s1]; split <;> simp
  have h2 : s2.keep = s.keep := (endChannels_keep _).trans h1
  have h3 : s3.keep = s.keep := (foldl_keep _ (by intro s x; split <;> simp) _ _).trans h2
  clear_value s3
  have h5 : s5.keep = s.keep := by simp [s5, s4, h3]
  clear_value s5
  have h6 : s6.keep = s.keep := by simp [s6, h5]
  clear_value s6
  have h7 : s7.keep = s.keep := by simp [s7, h6]
  clear_value s7
  have h8 : s8.keep = s.keep := (foldl_keep _ (by intro s x; simp) _ _).trans h7
  clear_value s8
  have h9 : s9.keep = s.keep := by simp [s9, h8]
  clear_value s9
  exact (State.modCorr_keep _ _).trans ((endCipher_keep _).trans ((State.modNav_keep _ _).trans ((State.modPeriph_keep _ _).trans h9)))

@[simp] theorem enterWatch_keep (ret : List Nat) (s : State) : (enterWatch ret s).keep = s.keep := by
  simp [enterWatch]

@[simp] theorem enterRun_keep (d : BitVec 16) (cause : StartCause) (rule : Nat) (s : State) : (enterRun d cause rule s).keep = s.keep := by
  simp [enterRun]

@[simp] theorem decant_keep (cause : Nat) (e : SaveEnd) (s : State) : (decant cause e s).keep = s.keep := by
  unfold decant
  (repeat' split) <;> simp

@[simp] theorem orBudget_keep (d : BitVec 16) (f : State → State × Reply) (s : State) (hf : ∀ z0, (f z0).1.keep = z0.keep) : (orBudget d f s).1.keep = s.keep := by
  unfold orBudget
  dsimp only
  (repeat' split) <;> simp_all

@[simp] theorem powerState_keep (q : Qcp) (s : State) : (powerState q s).1.keep = s.keep := by
  have hd (c : Prop) [Decidable c] (s : State) : (if c then descent s else s).keep = s.keep := by split <;> simp
  unfold powerState
  extract_lets force d go
  have hgo (s : State) : (go s).1.keep = s.keep := by
    simp only [go]
    split <;> simp [hd]
  clear_value go d
  split
  · refine orBudget_keep _ _ _ ?_
    intro s
    split <;> simp
  · split
    · exact hgo s
    · exact orBudget_keep _ _ _ hgo

@[simp] theorem powerStateCmd_keep (q : Qcp) (s : State) : (powerStateCmd.effect q s).1.keep = s.keep := by
  simp [powerStateCmd]

@[simp] theorem powerStatusCmd_keep (q : Qcp) (s : State) : (powerStatusCmd.effect q s).1.keep = s.keep := by
  simp [powerStatusCmd]

theorem execPowerStatus_keep (q : Qcp) (s : State) : Keeps s (execPowerStatus q s) := by
  exact runHost_keep _ (by simp) _ _

@[simp] theorem domainSetCmd_keep (q : Qcp) (s : State) : (domainSetCmd.effect q s).1.keep = s.keep := by
  simp [domainSetCmd]

theorem execDomainSet_keep (q : Qcp) (s : State) : Keeps s (execDomainSet q s) := by
  exact runHost_keep _ (by simp) _ _

end Sys2Proof.Machine
end

