-- ==== Sys2Proof/Laws/KeepPerc.lean ====
section
/-! SUPPORT. What the operations of Machine/Perc.lean keep: the bundle of `State.keep`. -/

namespace Sys2Proof.Machine
open Sys2Proof

@[simp] theorem State.modPerc_keep (s : State) (f : Perc → Perc) : (State.modPerc s f).keep = s.keep := by
  simp [State.modPerc]

@[simp] theorem State.modPower_keep (s : State) (f : Power → Power) : (State.modPower s f).keep = s.keep := by
  simp [State.modPower]

@[simp] theorem State.modHoldup_keep (s : State) (f : Holdup → Holdup) : (State.modHoldup s f).keep = s.keep := by
  simp [State.modHoldup]

@[simp] theorem percCfgCmd_keep (q : Qcp) (s : State) : (percCfgCmd.effect q s).1.keep = s.keep := by
  simp [percCfgCmd]

theorem execPercCfg_keep (q : Qcp) (s : State) : Keeps s (execPercCfg q s) := by
  exact runHost_keep _ (by simp) _ _

@[simp] theorem percRuleWriteCmd_keep (q : Qcp) (s : State) : (percRuleWriteCmd.effect q s).1.keep = s.keep := by
  simp [percRuleWriteCmd]

theorem execPercRuleWrite_keep (q : Qcp) (s : State) : Keeps s (execPercRuleWrite q s) := by
  exact runHost_keep _ (by simp) _ _

@[simp] theorem percRuleReadCmd_keep (q : Qcp) (s : State) : (percRuleReadCmd.effect q s).1.keep = s.keep := by
  simp [percRuleReadCmd]

theorem execPercRuleRead_keep (q : Qcp) (s : State) : Keeps s (execPercRuleRead q s) := by
  exact runHost_keep _ (by simp) _ _

@[simp] theorem percStatusCmd_keep (q : Qcp) (s : State) : (percStatusCmd.effect q s).1.keep = s.keep := by
  simp [percStatusCmd]

theorem execPercStatus_keep (q : Qcp) (s : State) : Keeps s (execPercStatus q s) := by
  exact runHost_keep _ (by simp) _ _

@[simp] theorem readAcc_keep (acc : Option (List Byte)) (s : State) : (readAcc acc s).keep = s.keep := by
  unfold readAcc
  dsimp only
  (repeat' split) <;> simp_all

@[simp] theorem fireRule_keep (n : Nat) (r : PercRule) (y : Int) (sameTick : Bool) (s : State) : (fireRule n r y sameTick s).keep = s.keep := by
  unfold fireRule
  dsimp only
  (repeat' split) <;> simp_all

@[simp] theorem evalRule_keep (src : List Int) (sameTick : Bool) (x : State × Option (Nat × Nat)) (n : Nat) :
    (evalRule src sameTick x n).1.keep = x.1.keep := by
  unfold evalRule
  obtain ⟨s, w⟩ := x
  dsimp only
  (repeat' split) <;> simp

@[simp] theorem wakeUp_keep (n target : Nat) (s : State) : (wakeUp n target s).keep = s.keep := by
  unfold wakeUp
  (repeat' split) <;> simp

@[simp] theorem percTick_keep (x : PercIn) (s : State) : (percTick x s).keep = s.keep := by
  unfold percTick
  extract_lets s1 s2 s3 src s4
  have h2 : s2.keep = s.keep := by simp [s2, s1]
  split
  · exact h2
  · have h4 : s4.keep = s.keep := by simp [s4, s3, h2]
    have h5 : ((List.range 32).foldl (evalRule src x.sameTick) (s4, none)).1.keep = s.keep :=
      (foldl_keep_fst _ (by intro p x; simp) _ _).trans h4
    generalize (List.range 32).foldl (evalRule src x.sameTick) (s4, none) = r at h5
    obtain ⟨s5, w⟩ := r
    dsimp only at h5 ⊢
    split <;> simp [h5]

theorem execPercTick_keep (p : PercIn) (s : State) : Keeps s (execPercTick p s) := by
  unfold execPercTick
  (repeat' split) <;> simp

theorem execPercHalt_keep (s : State) : Keeps s (execPercHalt s) := by
  simp [execPercHalt]

theorem execPercRestart_keep (s : State) : Keeps s (execPercRestart s) := by
  unfold execPercRestart
  (repeat' split) <;> simp

theorem execWakeWidthExpiry_keep (s : State) : Keeps s (execWakeWidthExpiry s) := by
  unfold execWakeWidthExpiry
  (repeat' split) <;> simp

@[simp] theorem holdupStatusCmd_keep (q : Qcp) (s : State) : (holdupStatusCmd.effect q s).1.keep = s.keep := by
  simp [holdupStatusCmd]

theorem execHoldupStatus_keep (q : Qcp) (s : State) : Keeps s (execHoldupStatus q s) := by
  exact runHost_keep _ (by simp) _ _

@[simp] theorem State.holdupEvent_keep (s : State) (kind : Nat) (value : Option Nat) : (State.holdupEvent s kind value).keep = s.keep := by
  unfold State.holdupEvent
  dsimp only
  (repeat' split) <;> simp_all

theorem execHoldupReady_keep (vhold : Nat) (s : State) : Keeps s (execHoldupReady vhold s) := by
  unfold execHoldupReady
  (repeat' split) <;> simp

theorem execHoldupMeasurementEnd_keep (dropUv : Nat) (s : State) : Keeps s (execHoldupMeasurementEnd dropUv s) := by
  unfold execHoldupMeasurementEnd
  dsimp only
  (repeat' split) <;> simp_all

theorem execChargeTimeout_keep (s : State) : Keeps s (execChargeTimeout s) := by
  unfold execChargeTimeout
  (repeat' split) <;> simp

end Sys2Proof.Machine
end

