-- ==== Sys2Proof/Laws/KeepStartup.lean ====
section
/-! SUPPORT. What the operations of Machine/Startup.lean keep: the bundle of `State.keep`. -/

namespace Sys2Proof.Machine
open Sys2Proof

theorem execSupplyReturn_keep (s : State) : Keeps s (execSupplyReturn s) := by
  unfold execSupplyReturn
  (repeat' split) <;> simp

theorem execWakeTimeout_keep (s : State) : Keeps s (execWakeTimeout s) := by
  unfold execWakeTimeout
  (repeat' split) <;> simp

theorem execRefinReturn_keep (s : State) : Keeps s (execRefinReturn s) := by
  unfold execRefinReturn
  (repeat' split) <;> simp

@[simp] theorem State.fwEvent_keep (s : State) (kind : Nat) (core slot value : Option Nat) : (State.fwEvent s kind core slot value).keep = s.keep := by
  unfold State.fwEvent
  dsimp only
  (repeat' split) <;> simp_all

@[simp] theorem restoreSessions_keep (s : State) : (restoreSessions s).keep = s.keep := by
  unfold restoreSessions
  (repeat' split) <;> simp

@[simp] theorem restoreSeal_keep (s : State) : (restoreSeal s).keep = s.keep := by
  unfold restoreSeal
  dsimp only
  (repeat' split) <;> simp_all

@[simp] theorem restorePriors_keep (i : SavedImage) (s : State) : (restorePriors i s).keep = s.keep := by
  simp [restorePriors]

@[simp] theorem restoreLogs_keep (s : State) : (restoreLogs s).keep = s.keep := by
  unfold restoreLogs
  dsimp only
  (repeat' split) <;> simp_all

@[simp] theorem bootSelector_keep (cause : StartCause) (s : State) : (bootSelector cause s).keep = s.keep := by
  unfold bootSelector
  (repeat' split) <;> simp

@[simp] theorem logImages_keep (images : List ImageRead) (tried : List Nat) (s : State) : (logImages images tried s).keep = s.keep := by
  unfold logImages
  (repeat' split)
  all_goals (try simp)
  all_goals (apply foldl_keep; intro s x; (repeat' split) <;> simp)

@[simp] theorem enterService_keep (cause : StartCause) (target : PowerState) (s : State) : (enterService cause target s).keep = s.keep := by
  unfold enterService
  dsimp only
  (repeat' split) <;> simp_all

theorem execTrialTimeout_keep (s : State) : Keeps s (execTrialTimeout s) := by
  unfold execTrialTimeout
  (repeat' split) <;> simp

@[simp] theorem State.diagEvent_keep (s : State) (kind : Nat) (value : Option Nat) : (State.diagEvent s kind value).keep = s.keep := by
  unfold State.diagEvent
  dsimp only
  (repeat' split) <;> simp_all

theorem execTempHigh_keep (temp : Int) (s : State) : Keeps s (execTempHigh temp s) := by
  unfold execTempHigh
  dsimp only
  (repeat' split) <;> simp_all

@[simp] theorem bootStatusCmd_keep (q : Qcp) (s : State) : (bootStatusCmd.effect q s).1.keep = s.keep := by
  simp [bootStatusCmd]

theorem execBootStatus_keep (q : Qcp) (s : State) : Keeps s (execBootStatus q s) := by
  exact runHost_keep _ (by simp) _ _

@[simp] theorem deviceResetCmd_keep (q : Qcp) (s : State) : (deviceResetCmd.effect q s).1.keep = s.keep := by
  simp [deviceResetCmd]

theorem execDeviceReset_keep (q : Qcp) (s : State) : Keeps s (execDeviceReset q s) := by
  exact runHost_keep _ (by simp) _ _

@[simp] theorem faultLogCmd_keep (q : Qcp) (s : State) : (faultLogCmd.effect q s).1.keep = s.keep := by
  simp [faultLogCmd]

theorem execFaultLog_keep (q : Qcp) (s : State) : Keeps s (execFaultLog q s) := by
  exact runHost_keep _ (by simp) _ _

@[simp] theorem tempReadCmd_keep (q : Qcp) (s : State) : (tempReadCmd.effect q s).1.keep = s.keep := by
  simp [tempReadCmd]

theorem execTempRead_keep (q : Qcp) (s : State) : Keeps s (execTempRead q s) := by
  exact runHost_keep _ (by simp) _ _

@[simp] theorem countersCmd_keep (q : Qcp) (s : State) : (countersCmd.effect q s).1.keep = s.keep := by
  simp [countersCmd]

theorem execCounters_keep (q : Qcp) (s : State) : Keeps s (execCounters q s) := by
  exact runHost_keep _ (by simp) _ _

@[simp] theorem selftestCmd_keep (q : Qcp) (s : State) : (selftestCmd.effect q s).1.keep = s.keep := by
  simp [selftestCmd]

theorem execSelftest_keep (q : Qcp) (s : State) : Keeps s (execSelftest q s) := by
  exact runHost_keep _ (by simp) _ _

theorem execSelftestComplete_keep (failed : Nat) (codes : List Nat) (s : State) : Keeps s (execSelftestComplete failed codes s) := by
  unfold execSelftestComplete
  dsimp only
  (repeat' split) <;> simp_all

end Sys2Proof.Machine
end

