-- ==== Sys2Proof/Laws/KeepFirmware.lean ====
section
/-! SUPPORT. What the operations of Machine/Firmware.lean keep: the bundle of `State.keep`. -/

namespace Sys2Proof.Machine
open Sys2Proof

@[simp] theorem fwWriteCmd_keep (done : Bool) (q : Qcp) (s : State) : ((fwWriteCmd done).effect q s).1.keep = s.keep := by
  simp [fwWriteCmd]

theorem execFwWrite_keep (q : Qcp) (done : Bool) (s : State) : Keeps s (execFwWrite q done s) := by
  exact runHost_keep _ (by simp) _ _

@[simp] theorem fwVerifyCmd_keep (q : Qcp) (s : State) : (fwVerifyCmd.effect q s).1.keep = s.keep := by
  simp [fwVerifyCmd]

theorem execFwVerify_keep (q : Qcp) (s : State) : Keeps s (execFwVerify q s) := by
  exact runHost_keep _ (by simp) _ _

@[simp] theorem verifyDone_keep (i : ImageRead) (s : State) : (verifyDone i s).keep = s.keep := by
  unfold verifyDone
  (repeat' split) <;> simp

theorem execFwVerifyComplete_keep (image : ImageRead) (s : State) : Keeps s (execFwVerifyComplete image s) := by
  unfold execFwVerifyComplete
  (repeat' split) <;> simp

@[simp] theorem loopSwapCmd_keep (image : ImageRead) (q : Qcp) (s : State) : ((loopSwapCmd image).effect q s).1.keep = s.keep := by
  simp [loopSwapCmd]

theorem execLoopSwap_keep (q : Qcp) (image : ImageRead) (s : State) : Keeps s (execLoopSwap q image s) := by
  exact runHost_keep _ (by simp) _ _

@[simp] theorem migrateOut_keep (w : LoopSwap) (s : State) : (migrateOut w s).keep = s.keep := by
  simp [migrateOut]

@[simp] theorem loopSwapBoundary_keep (s : State) : (loopSwapBoundary s).keep = s.keep := by
  unfold loopSwapBoundary
  (repeat' split)
  all_goals (try simp)
  all_goals (apply foldl_keep; intro s x; (repeat' split) <;> simp)

@[simp] theorem loopSwapMissed_keep (s : State) : (loopSwapMissed s).keep = s.keep := by
  unfold loopSwapMissed
  (repeat' split) <;> simp

@[simp] theorem loopReturn_keep (w : LoopSwap) (s : State) : (loopReturn w s).keep = s.keep := by
  unfold loopReturn
  (repeat' split) <;> simp

theorem execLoopSwapComplete_keep (core : Nat) (s : State) : Keeps s (execLoopSwapComplete core s) := by
  unfold execLoopSwapComplete
  (repeat' split) <;> simp

@[simp] theorem navSwapCmd_keep (image : ImageRead) (q : Qcp) (s : State) : ((navSwapCmd image).effect q s).1.keep = s.keep := by
  unfold navSwapCmd
  dsimp only
  (repeat' split) <;> simp_all

theorem execNavSwap_keep (q : Qcp) (image : ImageRead) (s : State) : Keeps s (execNavSwap q image s) := by
  exact runHost_keep _ (by simp) _ _

@[simp] theorem navSwapDone_keep (w : NavSwap) (s : State) : (navSwapDone w s).keep = s.keep := by
  unfold navSwapDone
  (repeat' split) <;> simp

theorem execNavSwapComplete_keep (s : State) : Keeps s (execNavSwapComplete s) := by
  unfold execNavSwapComplete
  (repeat' split) <;> simp

@[simp] theorem thawRecord_keep (master sub st : Nat) (s : State) : (thawRecord master sub st s).keep = s.keep := by
  simp [thawRecord]

@[simp] theorem resumeCore_keep (n : Nat) (skip : Bool) (s : State) : (resumeCore n skip s).keep = s.keep := by
  unfold resumeCore
  (repeat' split) <;> simp

@[simp] theorem abortCore_keep (n : Nat) (s : State) : (abortCore n s).keep = s.keep := by
  unfold abortCore
  (repeat' split) <;> simp

@[simp] theorem thawDma_keep (n opt : Nat) (s : State) : (thawDma n opt s).keep = s.keep := by
  unfold thawDma
  dsimp only
  (repeat' split) <;> simp_all

@[simp] theorem thaw_keep (m sub opt : Nat) (s : State) : (thaw m sub opt s).keep = s.keep := by
  unfold thaw
  (repeat' split) <;> simp

@[simp] theorem thawCmd_keep (q : Qcp) (s : State) : (thawCmd.effect q s).1.keep = s.keep := by
  simp [thawCmd]

theorem execThaw_keep (q : Qcp) (s : State) : Keeps s (execThaw q s) := by
  exact runHost_keep _ (by simp) _ _

end Sys2Proof.Machine
end

