-- ==== Sys2Proof/Laws/KeepBeat.lean ====
section
/-! SUPPORT. What the operations of Machine/Beat.lean keep: the bundle of `State.keep`. -/

namespace Sys2Proof.Machine
open Sys2Proof

@[simp] theorem drains_keep (s : State) : (drains s).keep = s.keep := by
  unfold drains
  (repeat' split) <;> simp

@[simp] theorem ticksPass_keep (n : Nat) (s : State) : (ticksPass n s).keep = s.keep := by
  simp [ticksPass]

@[simp] theorem boundaryActions_keep (inputs : List InputBeat) (short : List (Nat × Nat)) (s : State) : (boundaryActions inputs short s).keep = s.keep := by
  simp [boundaryActions]

end Sys2Proof.Machine
end

