-- ==== Sys2Proof/Laws/KeepTorpin.lean ====
section
/-! SUPPORT. What the shared operations of Machine/Torpin.lean keep: the bundle of `State.keep`. -/

namespace Sys2Proof.Machine
open Sys2Proof

/-- A stop keeps the bundle. -/
def StopKeeps (s : State) : Stop → Prop
  | .stall t _ => t.keep = s.keep
  | .halt t => t.keep = s.keep

/-- A result keeps the bundle: the state it carries, or the state in which the instruction stopped. -/
def EKeeps {α : Type} (st : α → State) (s : State) : Except Stop α → Prop
  | .ok a => (st a).keep = s.keep
  | .error e => StopKeeps s e

@[simp] theorem ekeeps_ok {α : Type} (st : α → State) (s : State) (a : α) : EKeeps st s (.ok a) ↔ (st a).keep = s.keep := Iff.rfl
@[simp] theorem ekeeps_halt {α : Type} (st : α → State) (s t : State) : EKeeps st s (.error (.halt t)) ↔ t.keep = s.keep := Iff.rfl
@[simp] theorem ekeeps_stall {α : Type} (st : α → State) (s t : State) (x : Option Stall) : EKeeps st s (.error (.stall t x)) ↔ t.keep = s.keep := Iff.rfl

theorem ekeeps_error {α β : Type} {st : α → State} (st' : β → State) {s : State} {e : Stop} (h : EKeeps st s (.error e)) : EKeeps st' s (.error e) := h

theorem StopKeeps.trans {s t : State} {e : Stop} (h : StopKeeps t e) (k : t.keep = s.keep) : StopKeeps s e := by
  cases e <;> exact Eq.trans h k

theorem EKeeps.trans {α : Type} {st : α → State} {s t : State} {r : Except Stop α} (h : EKeeps st t r) (k : t.keep = s.keep) : EKeeps st s r := by
  cases r with
  | ok a => exact Eq.trans h k
  | error e => exact StopKeeps.trans h k

@[simp] theorem State.setG_keep (s : State) (n i : Nat) (v : Word) : (s.setG n i v).keep = s.keep := by simp [State.setG]

@[simp] theorem haltCore_keep (n : Nat) (v : Violation) (a : CoreAccess) (s : State) : (haltCore n v a s).keep = s.keep := by
  unfold haltCore
  dsimp only
  split <;> simp

@[simp] theorem Ctx.freeze_keep (c : Ctx) (v : Violation) (addr : Nat) (k : Access) (lockFreed : Bool) (s : State) :
    (c.freeze v addr k lockFreed s).keep = s.keep := by simp [Ctx.freeze]

@[simp] theorem pushStack_keep (c : Ctx) (bs : List Byte) (s : State) : EKeeps id s (pushStack c bs s) := by
  unfold pushStack
  dsimp only
  split <;> simp

@[simp] theorem popStack_keep (c : Ctx) (n : Nat) (s : State) : EKeeps Prod.fst s (popStack c n s) := by
  have h := State.eccRead_keep s c.n (s.core c.n).rsp.toNat n
  unfold popStack
  dsimp only
  (repeat' split) <;> simp_all

@[simp] theorem takeException_keep (c : Ctx) (cause : Nat) (epc eaddr : Word) (elen : Nat) (s : State) :
    (takeException c cause epc eaddr elen s).keep = s.keep := by
  have h := pushStack_keep c (leBytes 4 epc.toNat ++ leBytes 4 (s.core c.n).estatus.toNat) s
  unfold takeException
  split <;> simp_all

@[simp] theorem Ctx.raise_keep (c : Ctx) (cause : Nat) (eaddr : Word) (s : State) : (c.raise cause eaddr s).keep = s.keep := by simp [Ctx.raise]

@[simp] theorem checkAccess_keep (c : Ctx) (k : Access) (a size align : Nat) (locked : Bool) (s : State) :
    EKeeps (fun _ => s) s (checkAccess c k a size align locked s) := by
  unfold checkAccess
  (repeat' split) <;> simp

@[simp] theorem readBytes_keep (c : Ctx) (a size : Nat) (s : State) : EKeeps Prod.fst s (readBytes c a size s) := by
  have h := State.eccRead_keep s c.n a size
  unfold readBytes
  dsimp only
  (repeat' split) <;> simp_all

@[simp] theorem writeBytes_keep (c : Ctx) (a : Nat) (bs : List Byte) (s : State) : (writeBytes c a bs s).keep = s.keep := by
  unfold writeBytes
  (repeat' split) <;> simp

@[simp] theorem Ctx.bump_keep (c : Ctx) (base : Nat) (s : State) : (c.bump base s).keep = s.keep := by
  unfold Ctx.bump
  split <;> simp

theorem Ctx.loadOp_keep (c : Ctx) (s : State) : EKeeps Prod.fst s (c.loadOp s) := by
  have h1 := checkAccess_keep c .load (c.ea c.d.b s) c.d.size c.d.size false s
  have h2 := readBytes_keep c (c.ea c.d.b s) c.d.size s
  unfold Ctx.loadOp
  dsimp only
  split
  · simp_all [EKeeps]
  · split <;> simp_all [EKeeps]

theorem Ctx.storeOp_keep (c : Ctx) (v : Word) (s : State) : EKeeps id s (c.storeOp v s) := by
  have h1 := checkAccess_keep c .store (c.ea c.d.b s) c.d.size c.d.size false s
  unfold Ctx.storeOp
  dsimp only
  split <;> simp_all [EKeeps]

theorem Ctx.rmwOp_keep (c : Ctx) (locked : Bool) (f : Word → Word) (s : State) : EKeeps Prod.fst s (c.rmwOp locked f s) := by
  have h1 := checkAccess_keep c .load (c.ea c.d.b s) c.d.size c.d.size locked s
  have h2 := checkAccess_keep c .store (c.ea c.d.b s) c.d.size c.d.size locked s
  have h3 := readBytes_keep c (c.ea c.d.b s) c.d.size s
  unfold Ctx.rmwOp
  dsimp only
  split
  · simp_all [EKeeps]
  · split
    · simp_all [EKeeps]
    · split <;> simp_all [EKeeps]

theorem repLoop_keep (n : Nat) (iter : State → Except Stop State) (h : ∀ s, EKeeps id s (iter s)) (k : Nat) (s : State) :
    EKeeps id s (repLoop n iter k s) := by
  induction k generalizing s with
  | zero => exact rfl
  | succ k ih =>
    have hs := h s
    unfold repLoop
    split
    · simp_all
    · rename_i t ht
      rw [ht] at hs
      exact (ih _).trans ((State.setG_keep _ _ _ _).trans hs)

theorem Ctx.repeated_keep (c : Ctx) (iter : State → Except Stop State) (h : ∀ s, EKeeps id s (iter s)) (s : State) :
    EKeeps Prod.fst s (c.repeated iter s) := by
  have hs := h s
  unfold Ctx.repeated
  split
  · dsimp only
    split
    · rename_i e he
      have hr : EKeeps id s (.error e) := he ▸ repLoop_keep c.n iter h _ s
      exact hr
    · rename_i t he
      have hr : EKeeps id s (.ok t) := he ▸ repLoop_keep c.n iter h _ s
      exact hr
  · split <;> simp_all [EKeeps]

theorem settle_keep (c : Ctx) (s : State) (r : Except Stop (State × Word)) (h : EKeeps Prod.fst s r) : (settle c r).keep = s.keep := by
  unfold settle
  split <;> simp_all

/-- An instruction's own effect keeps the bundle. -/
def BodyKeeps (body : Body) : Prop := ∀ c s, EKeeps Prod.fst s (body c s)

theorem runDecoded_keep (x : Fetch) (dec : Decoded) (body : Body) (hb : BodyKeeps body) (s : State) : (runDecoded x dec body s).keep = s.keep := by
  unfold runDecoded
  dsimp only
  split
  · simp
  · simp
  · simp
  · exact (settle_keep _ _ _ (hb _ _)).trans (State.modCore_keep _ _ _)

theorem runInsn_keep (want : Nat → Bool) (body : Body) (hb : BodyKeeps body) (x : Fetch) (s : State) : (runInsn want body x s).keep = s.keep := by
  unfold runInsn
  dsimp only
  split
  · rfl
  · split
    · simp
    · rfl
    · have h := State.eccRead_keep s x.core ((s.core x.core).pc).toNat (decodeInsn x.core x.bytes).len
      split
      · simp_all
      · rename_i t he
        rw [he] at h
        exact (runDecoded_keep _ _ _ hb _).trans h

theorem insn_keep (key : Nat) (body : Body) (hb : BodyKeeps body) (x : Fetch) (s : State) : Keeps s (insn key body x s) :=
  runInsn_keep _ _ hb _ _

theorem execIllegalInstruction_keep (x : Fetch) (s : State) : Keeps s (execIllegalInstruction x s) := by
  unfold execIllegalInstruction
  split
  · exact runInsn_keep _ (fun c s => .ok (s, c.next)) (fun c s => by simp) _ _
  · exact rfl

theorem execInterruptEntry_keep (core : Nat) (sameTick : Bool) (s : State) : Keeps s (execInterruptEntry core sameTick s) := by
  unfold execInterruptEntry
  (repeat' split) <;> simp

end Sys2Proof.Machine
end

