-- ==== Sys2Proof/Laws/KeepTorpinAlu.lean ====
section
/-! SUPPORT. What the ALU instructions keep: the bundle of `State.keep`. -/

namespace Sys2Proof.Machine
open Sys2Proof

theorem alu_keep (v : Ctx → State → Word) (f : Word → Word → Word) : BodyKeeps (alu v f) := fun c s => by simp [alu]

theorem aluTrap_keep (v : Ctx → State → Word) (f : Word → Word → Option Word) : BodyKeeps (aluTrap v f) := fun c s => by
  unfold aluTrap
  split <;> simp

theorem execMov_keep (x : Fetch) (s : State) : Keeps s (execMov x s) := insn_keep _ _ (alu_keep _ _) _ _
theorem execMovi_keep (x : Fetch) (s : State) : Keeps s (execMovi x s) := insn_keep _ _ (alu_keep _ _) _ _
theorem execAdd_keep (x : Fetch) (s : State) : Keeps s (execAdd x s) := insn_keep _ _ (alu_keep _ _) _ _
theorem execAddi_keep (x : Fetch) (s : State) : Keeps s (execAddi x s) := insn_keep _ _ (alu_keep _ _) _ _
theorem execSub_keep (x : Fetch) (s : State) : Keeps s (execSub x s) := insn_keep _ _ (alu_keep _ _) _ _
theorem execSubi_keep (x : Fetch) (s : State) : Keeps s (execSubi x s) := insn_keep _ _ (alu_keep _ _) _ _
theorem execAddv_keep (x : Fetch) (s : State) : Keeps s (execAddv x s) := insn_keep _ _ (aluTrap_keep _ _) _ _
theorem execAddvi_keep (x : Fetch) (s : State) : Keeps s (execAddvi x s) := insn_keep _ _ (aluTrap_keep _ _) _ _
theorem execSubv_keep (x : Fetch) (s : State) : Keeps s (execSubv x s) := insn_keep _ _ (aluTrap_keep _ _) _ _
theorem execSubvi_keep (x : Fetch) (s : State) : Keeps s (execSubvi x s) := insn_keep _ _ (aluTrap_keep _ _) _ _
theorem execAnd_keep (x : Fetch) (s : State) : Keeps s (execAnd x s) := insn_keep _ _ (alu_keep _ _) _ _
theorem execAndi_keep (x : Fetch) (s : State) : Keeps s (execAndi x s) := insn_keep _ _ (alu_keep _ _) _ _
theorem execOr_keep (x : Fetch) (s : State) : Keeps s (execOr x s) := insn_keep _ _ (alu_keep _ _) _ _
theorem execOri_keep (x : Fetch) (s : State) : Keeps s (execOri x s) := insn_keep _ _ (alu_keep _ _) _ _
theorem execXor_keep (x : Fetch) (s : State) : Keeps s (execXor x s) := insn_keep _ _ (alu_keep _ _) _ _
theorem execXori_keep (x : Fetch) (s : State) : Keeps s (execXori x s) := insn_keep _ _ (alu_keep _ _) _ _
theorem execShl_keep (x : Fetch) (s : State) : Keeps s (execShl x s) := insn_keep _ _ (alu_keep _ _) _ _
theorem execShli_keep (x : Fetch) (s : State) : Keeps s (execShli x s) := insn_keep _ _ (alu_keep _ _) _ _
theorem execShr_keep (x : Fetch) (s : State) : Keeps s (execShr x s) := insn_keep _ _ (alu_keep _ _) _ _
theorem execShri_keep (x : Fetch) (s : State) : Keeps s (execShri x s) := insn_keep _ _ (alu_keep _ _) _ _
theorem execSar_keep (x : Fetch) (s : State) : Keeps s (execSar x s) := insn_keep _ _ (alu_keep _ _) _ _
theorem execSari_keep (x : Fetch) (s : State) : Keeps s (execSari x s) := insn_keep _ _ (alu_keep _ _) _ _
theorem execRol_keep (x : Fetch) (s : State) : Keeps s (execRol x s) := insn_keep _ _ (alu_keep _ _) _ _
theorem execRoli_keep (x : Fetch) (s : State) : Keeps s (execRoli x s) := insn_keep _ _ (alu_keep _ _) _ _
theorem execRor_keep (x : Fetch) (s : State) : Keeps s (execRor x s) := insn_keep _ _ (alu_keep _ _) _ _
theorem execRori_keep (x : Fetch) (s : State) : Keeps s (execRori x s) := insn_keep _ _ (alu_keep _ _) _ _
theorem execMul_keep (x : Fetch) (s : State) : Keeps s (execMul x s) := insn_keep _ _ (alu_keep _ _) _ _
theorem execMuli_keep (x : Fetch) (s : State) : Keeps s (execMuli x s) := insn_keep _ _ (alu_keep _ _) _ _
theorem execMulh_keep (x : Fetch) (s : State) : Keeps s (execMulh x s) := insn_keep _ _ (alu_keep _ _) _ _
theorem execMulhu_keep (x : Fetch) (s : State) : Keeps s (execMulhu x s) := insn_keep _ _ (alu_keep _ _) _ _
theorem execDiv_keep (x : Fetch) (s : State) : Keeps s (execDiv x s) := insn_keep _ _ (aluTrap_keep _ _) _ _
theorem execDivu_keep (x : Fetch) (s : State) : Keeps s (execDivu x s) := insn_keep _ _ (aluTrap_keep _ _) _ _
theorem execDivz_keep (x : Fetch) (s : State) : Keeps s (execDivz x s) := insn_keep _ _ (alu_keep _ _) _ _
theorem execDivzu_keep (x : Fetch) (s : State) : Keeps s (execDivzu x s) := insn_keep _ _ (alu_keep _ _) _ _
theorem execRem_keep (x : Fetch) (s : State) : Keeps s (execRem x s) := insn_keep _ _ (aluTrap_keep _ _) _ _
theorem execRemu_keep (x : Fetch) (s : State) : Keeps s (execRemu x s) := insn_keep _ _ (aluTrap_keep _ _) _ _
theorem execRemz_keep (x : Fetch) (s : State) : Keeps s (execRemz x s) := insn_keep _ _ (alu_keep _ _) _ _
theorem execRemzu_keep (x : Fetch) (s : State) : Keeps s (execRemzu x s) := insn_keep _ _ (alu_keep _ _) _ _
theorem execNeg_keep (x : Fetch) (s : State) : Keeps s (execNeg x s) := insn_keep _ _ (alu_keep _ _) _ _
theorem execNot_keep (x : Fetch) (s : State) : Keeps s (execNot x s) := insn_keep _ _ (alu_keep _ _) _ _
theorem execSexb_keep (x : Fetch) (s : State) : Keeps s (execSexb x s) := insn_keep _ _ (alu_keep _ _) _ _
theorem execSexh_keep (x : Fetch) (s : State) : Keeps s (execSexh x s) := insn_keep _ _ (alu_keep _ _) _ _
theorem execZexb_keep (x : Fetch) (s : State) : Keeps s (execZexb x s) := insn_keep _ _ (alu_keep _ _) _ _
theorem execZexh_keep (x : Fetch) (s : State) : Keeps s (execZexh x s) := insn_keep _ _ (alu_keep _ _) _ _
theorem execClz_keep (x : Fetch) (s : State) : Keeps s (execClz x s) := insn_keep _ _ (alu_keep _ _) _ _
theorem execPopc_keep (x : Fetch) (s : State) : Keeps s (execPopc x s) := insn_keep _ _ (alu_keep _ _) _ _
theorem execSlt_keep (x : Fetch) (s : State) : Keeps s (execSlt x s) := insn_keep _ _ (alu_keep _ _) _ _
theorem execSltu_keep (x : Fetch) (s : State) : Keeps s (execSltu x s) := insn_keep _ _ (alu_keep _ _) _ _

end Sys2Proof.Machine
end

