-- ==== Sys2Proof/Laws/KeepTorpinCop.lean ====
section
/-! SUPPORT. What the coprocessor instructions keep: the bundle of `State.keep`. -/

namespace Sys2Proof.Machine
open Sys2Proof

@[simp] theorem State.setF_keep (s : State) (n i : Nat) (v : BitVec 64) : (s.setF n i v).keep = s.keep := by simp [State.setF]
@[simp] theorem State.stick_keep (s : State) (n : Nat) (f : BitVec 7) : (s.stick n f).keep = s.keep := by simp [State.stick]

theorem opSnap_keep : BodyKeeps opSnap := fun c s => by simp [opSnap]
theorem opMfc_keep : BodyKeeps opMfc := fun c s => by simp [opMfc]
theorem opMtc_keep : BodyKeeps opMtc := fun c s => by simp [opMtc]
theorem opEpoch_keep : BodyKeeps opEpoch := fun c s => by simp [opEpoch]

theorem checkRun_keep (c : Ctx) (k : Access) (a size n : Nat) (s : State) : EKeeps (fun _ => s) s (checkRun c k a size n s) := by
  induction n generalizing a with
  | zero => exact rfl
  | succ n ih =>
    have h := checkAccess_keep c k a size size false s
    unfold checkRun
    split
    · simp_all [EKeeps]
    · exact ih _

theorem opSubmit_keep : BodyKeeps opSubmit := fun c s => by
  have h1 := checkRun_keep c .load (s.g c.n c.d.a).toNat 4 12 s
  have h2 := readBytes_keep c (s.g c.n c.d.a).toNat 48 s
  unfold opSubmit
  dsimp only
  split
  · simp_all [EKeeps]
  · split
    · simp_all [EKeeps]
    · simp_all [EKeeps]

theorem opStatus_keep : BodyKeeps opStatus := fun c s => by simp [opStatus]
theorem opCancel_keep : BodyKeeps opCancel := fun c s => by simp [opCancel]
theorem fp_keep (op : BitVec 64 → BitVec 64 → BitVec 64 → BitVec 64 × BitVec 7) : BodyKeeps (fp op) := fun c s => by simp [fp]

theorem opFld_keep : BodyKeeps opFld := fun c s => by
  have h1 := checkAccess_keep c .load (s.g c.n c.d.a).toNat 8 8 false s
  have h2 := readBytes_keep c (s.g c.n c.d.a).toNat 8 s
  unfold opFld
  dsimp only
  split
  · simp_all [EKeeps]
  · split <;> simp_all [EKeeps]

theorem opFst_keep : BodyKeeps opFst := fun c s => by
  have h1 := checkAccess_keep c .store (s.g c.n c.d.a).toNat 8 8 false s
  unfold opFst
  dsimp only
  split <;> simp_all [EKeeps]

theorem opFcvtif_keep : BodyKeeps opFcvtif := fun c s => by simp [opFcvtif]
theorem opFcvtfi_keep : BodyKeeps opFcvtfi := fun c s => by simp [opFcvtfi]
theorem opFcmp_keep : BodyKeeps opFcmp := fun c s => by simp [opFcmp]
theorem opFstat_keep : BodyKeeps opFstat := fun c s => by simp [opFstat]
theorem opFclr_keep : BodyKeeps opFclr := fun c s => by simp [opFclr]

theorem mxLoad_keep (c : Ctx) (a n : Nat) (s : State) : EKeeps Prod.fst s (mxLoad c a n s) := by
  have h1 := checkRun_keep c .load a 8 n s
  have h2 := readBytes_keep c a (8 * n) s
  unfold mxLoad
  split
  · simp_all [EKeeps]
  · split <;> simp_all [EKeeps]

theorem mxStore_keep (c : Ctx) (d : Mx) (r : List (BitVec 64 × BitVec 7)) (s : State) : EKeeps Prod.fst s (mxStore c d r s) := by
  have h1 := checkRun_keep c .store d.c 8 (d.m * d.n) s
  unfold mxStore
  split <;> simp_all [EKeeps]

theorem opMxrun_keep : BodyKeeps opMxrun := fun c s => by
  have h1 := checkRun_keep c .load (s.g c.n c.d.a).toNat 8 4 s
  have h2 := readBytes_keep c (s.g c.n c.d.a).toNat 32 s
  unfold opMxrun
  dsimp only
  split
  · simp_all [EKeeps]
  · split
    · simp_all [EKeeps]
    · rename_i s1 p he
      rw [he] at h2
      split
      · exact h2
      · have h3 := mxLoad_keep c (mxOf p).a ((mxOf p).m * (mxOf p).k) s1
        split
        · rename_i e h
          rw [h] at h3
          exact h3.trans h2
        · rename_i s2 a h
          rw [h] at h3
          have h3 : s2.keep = s.keep := Eq.trans h3 h2
          have h4 := mxLoad_keep c (mxOf p).b ((mxOf p).k * (mxOf p).n) s2
          split
          · rename_i e h
            rw [h] at h4
            exact h4.trans h3
          · rename_i s3 b h
            rw [h] at h4
            have h4 : s3.keep = s.keep := Eq.trans h4 h3
            have h5 : EKeeps Prod.fst s3 (if (mxOf p).acc = true then mxLoad c (mxOf p).c ((mxOf p).m * (mxOf p).n) s3 else .ok (s3, [])) := by
              split
              · exact mxLoad_keep _ _ _ _
              · exact rfl
            split
            · rename_i e h
              rw [h] at h5
              exact h5.trans h4
            · rename_i s4 old h
              rw [h] at h5
              exact (mxStore_keep _ _ _ _).trans ((State.openVal_keep _ _).trans (Eq.trans h5 h4))

theorem opCmul_keep (conj : Bool) : BodyKeeps (opCmul conj) := fun c s => by simp [opCmul]
theorem opCpow_keep : BodyKeeps opCpow := fun c s => by simp [opCpow]
theorem opCmag_keep : BodyKeeps opCmag := fun c s => by simp [opCmag]
theorem opCatan_keep : BodyKeeps opCatan := fun c s => by simp [opCatan]
theorem opCnorm_keep : BodyKeeps opCnorm := fun c s => by simp [opCnorm]

theorem execSnap_keep (x : Fetch) (s : State) : Keeps s (execSnap x s) := insn_keep _ _ opSnap_keep _ _
theorem execMfc_keep (x : Fetch) (s : State) : Keeps s (execMfc x s) := insn_keep _ _ opMfc_keep _ _
theorem execMtc_keep (x : Fetch) (s : State) : Keeps s (execMtc x s) := insn_keep _ _ opMtc_keep _ _
theorem execEpoch_keep (x : Fetch) (s : State) : Keeps s (execEpoch x s) := insn_keep _ _ opEpoch_keep _ _
theorem execSubmit_keep (x : Fetch) (s : State) : Keeps s (execSubmit x s) := insn_keep _ _ opSubmit_keep _ _
theorem execStatus_keep (x : Fetch) (s : State) : Keeps s (execStatus x s) := insn_keep _ _ opStatus_keep _ _
theorem execCancel_keep (x : Fetch) (s : State) : Keeps s (execCancel x s) := insn_keep _ _ opCancel_keep _ _
theorem execFld_keep (x : Fetch) (s : State) : Keeps s (execFld x s) := insn_keep _ _ opFld_keep _ _
theorem execFst_keep (x : Fetch) (s : State) : Keeps s (execFst x s) := insn_keep _ _ opFst_keep _ _
theorem execFmov_keep (x : Fetch) (s : State) : Keeps s (execFmov x s) := insn_keep _ _ (fp_keep _) _ _
theorem execFadd_keep (x : Fetch) (s : State) : Keeps s (execFadd x s) := insn_keep _ _ (fp_keep _) _ _
theorem execFsub_keep (x : Fetch) (s : State) : Keeps s (execFsub x s) := insn_keep _ _ (fp_keep _) _ _
theorem execFmul_keep (x : Fetch) (s : State) : Keeps s (execFmul x s) := insn_keep _ _ (fp_keep _) _ _
theorem execFdiv_keep (x : Fetch) (s : State) : Keeps s (execFdiv x s) := insn_keep _ _ (fp_keep _) _ _
theorem execFsqrt_keep (x : Fetch) (s : State) : Keeps s (execFsqrt x s) := insn_keep _ _ (fp_keep _) _ _
theorem execFneg_keep (x : Fetch) (s : State) : Keeps s (execFneg x s) := insn_keep _ _ (fp_keep _) _ _
theorem execFcvtif_keep (x : Fetch) (s : State) : Keeps s (execFcvtif x s) := insn_keep _ _ opFcvtif_keep _ _
theorem execFcvtfi_keep (x : Fetch) (s : State) : Keeps s (execFcvtfi x s) := insn_keep _ _ opFcvtfi_keep _ _
theorem execFcmp_keep (x : Fetch) (s : State) : Keeps s (execFcmp x s) := insn_keep _ _ opFcmp_keep _ _
theorem execFstat_keep (x : Fetch) (s : State) : Keeps s (execFstat x s) := insn_keep _ _ opFstat_keep _ _
theorem execFclr_keep (x : Fetch) (s : State) : Keeps s (execFclr x s) := insn_keep _ _ opFclr_keep _ _
theorem execMxrun_keep (x : Fetch) (s : State) : Keeps s (execMxrun x s) := insn_keep _ _ opMxrun_keep _ _
theorem execCmul_keep (x : Fetch) (s : State) : Keeps s (execCmul x s) := insn_keep _ _ (opCmul_keep _) _ _
theorem execCmulc_keep (x : Fetch) (s : State) : Keeps s (execCmulc x s) := insn_keep _ _ (opCmul_keep _) _ _
theorem execCpow_keep (x : Fetch) (s : State) : Keeps s (execCpow x s) := insn_keep _ _ opCpow_keep _ _
theorem execCmag_keep (x : Fetch) (s : State) : Keeps s (execCmag x s) := insn_keep _ _ opCmag_keep _ _
theorem execCatan_keep (x : Fetch) (s : State) : Keeps s (execCatan x s) := insn_keep _ _ opCatan_keep _ _
theorem execCnorm_keep (x : Fetch) (s : State) : Keeps s (execCnorm x s) := insn_keep _ _ opCnorm_keep _ _

end Sys2Proof.Machine
end

