-- ==== Sys2Proof/Laws/KeepTorpinCtl.lean ====
section
/-! SUPPORT. What the control instructions and services keep: the bundle of `State.keep`. -/

namespace Sys2Proof.Machine
open Sys2Proof

theorem opNop_keep : BodyKeeps opNop := fun _ _ => rfl
theorem opWait_keep : BodyKeeps opWait := fun c s => by simp [opWait]

theorem opRet_keep : BodyKeeps opRet := fun c s => by
  have h := popStack_keep c 4 s
  unfold opRet
  split <;> simp_all [EKeeps]

theorem opRetI_keep : BodyKeeps opRetI := fun c s => by
  have h := popStack_keep c 8 s
  unfold opRetI
  split <;> simp_all [EKeeps]

theorem opBrk_keep : BodyKeeps opBrk := fun c s => by simp [opBrk]
theorem opExtension_keep : BodyKeeps opExtension := fun c s => by simp [opExtension]
theorem opJump_keep (t : Ctx → State → Word) : BodyKeeps (opJump t) := fun _ _ => rfl

theorem opCall_keep (t : Ctx → State → Word) : BodyKeeps (opCall t) := fun c s => by
  have h := pushStack_keep c (leBytes 4 c.next.toNat) s
  unfold opCall
  split <;> simp_all [EKeeps]

theorem opBranch_keep (v : Ctx → State → Word) (f : Word → Word → Bool) : BodyKeeps (opBranch v f) := fun _ _ => rfl
theorem opDbnz_keep : BodyKeeps opDbnz := fun c s => by simp [opDbnz]

theorem topCheck_keep (c : Ctx) (w : Bool) (s : State) : EKeeps (fun _ => s) s (topCheck c w s) := by
  unfold topCheck
  dsimp only
  split <;> simp

theorem readTop_keep (c : Ctx) (s : State) : EKeeps Prod.fst s (readTop c s) := by
  have h := topCheck_keep c false s
  unfold readTop
  split
  · simp_all [EKeeps]
  · rename_i a ha
    have he := State.eccRead_keep s c.n a 4
    dsimp only
    split <;> simp_all

@[simp] theorem sregWrite_keep (n sreg : Nat) (v : Word) (s : State) : (sregWrite n sreg v s).keep = s.keep := by simp [sregWrite]

theorem opMfs_keep : BodyKeeps opMfs := fun c s => by
  have h := readTop_keep c s
  unfold opMfs
  split
  · split <;> simp_all [EKeeps]
  · simp

theorem opMts_keep : BodyKeeps opMts := fun c s => by
  have h := topCheck_keep c true s
  unfold opMts
  dsimp only
  split
  · split <;> simp_all [EKeeps]
  · simp

theorem service_keep (k : Nat) (act : Ctx → State → Except Stop (State × Nat × Word)) (h : ∀ c s, EKeeps Prod.fst s (act c s)) : BodyKeeps (service k act) :=
  fun c s => by
    have hu : (if c.n = 7 then s.modUc fun u => { u with svcCount := sat32 (u.svcCount + 1) } else s).keep = s.keep := by split <;> simp
    unfold service
    dsimp only
    generalize (if c.n = 7 then s.modUc fun u => { u with svcCount := sat32 (u.svcCount + 1) } else s) = t at hu
    split
    · simp [hu]
    · have ht := h c t
      split
      · rename_i e he
        rw [he] at ht
        exact ht.trans hu
      · rename_i s1 st pc he
        rw [he] at ht
        exact (State.setG_keep _ _ _ _).trans (Eq.trans ht hu)

theorem svcInfo_keep (c : Ctx) (s : State) : EKeeps Prod.fst s (svcInfo c s) := by simp [svcInfo]
theorem svcTime_keep (c : Ctx) (s : State) : EKeeps Prod.fst s (svcTime c s) := by simp [svcTime]

theorem svcPvtCopy_keep (c : Ctx) (s : State) : EKeeps Prod.fst s (svcPvtCopy c s) := by
  unfold svcPvtCopy
  dsimp only
  (repeat' split) <;> simp

theorem svcWdog_keep (c : Ctx) (s : State) : EKeeps Prod.fst s (svcWdog c s) := by simp [svcWdog]
theorem svcLog_keep (c : Ctx) (s : State) : EKeeps Prod.fst s (svcLog c s) := by simp [svcLog]
theorem svcNextBeat_keep (c : Ctx) (s : State) : EKeeps Prod.fst s (svcNextBeat c s) := by simp [svcNextBeat]

theorem opSwapReady_keep : BodyKeeps opSwapReady := fun c s => by
  unfold opSwapReady
  split
  · simp
  · exact service_keep 6 (fun c s => .ok (s, stState, c.next)) (fun _ _ => rfl) c s

theorem opUndefinedService_keep : BodyKeeps opUndefinedService := service_keep 16 (fun c s => .ok (s, stBadOpcode, c.next)) fun _ _ => rfl

theorem execUndefinedService_keep (x : Fetch) (s : State) : Keeps s (execUndefinedService x s) := runInsn_keep _ _ opUndefinedService_keep _ _

theorem execNop_keep (x : Fetch) (s : State) : Keeps s (execNop x s) := insn_keep _ _ opNop_keep _ _
theorem execWait_keep (x : Fetch) (s : State) : Keeps s (execWait x s) := insn_keep _ _ opWait_keep _ _
theorem execRet_keep (x : Fetch) (s : State) : Keeps s (execRet x s) := insn_keep _ _ opRet_keep _ _
theorem execReti_keep (x : Fetch) (s : State) : Keeps s (execReti x s) := insn_keep _ _ opRetI_keep _ _
theorem execInfo_keep (x : Fetch) (s : State) : Keeps s (execInfo x s) := insn_keep _ _ (service_keep _ _ svcInfo_keep) _ _
theorem execTime_keep (x : Fetch) (s : State) : Keeps s (execTime x s) := insn_keep _ _ (service_keep _ _ svcTime_keep) _ _
theorem execPvtCopy_keep (x : Fetch) (s : State) : Keeps s (execPvtCopy x s) := insn_keep _ _ (service_keep _ _ svcPvtCopy_keep) _ _
theorem execWdog_keep (x : Fetch) (s : State) : Keeps s (execWdog x s) := insn_keep _ _ (service_keep _ _ svcWdog_keep) _ _
theorem execLog_keep (x : Fetch) (s : State) : Keeps s (execLog x s) := insn_keep _ _ (service_keep _ _ svcLog_keep) _ _
theorem execNextBeat_keep (x : Fetch) (s : State) : Keeps s (execNextBeat x s) := insn_keep _ _ (service_keep _ _ svcNextBeat_keep) _ _
theorem execSwapReady_keep (x : Fetch) (s : State) : Keeps s (execSwapReady x s) := insn_keep _ _ opSwapReady_keep _ _
theorem execBrk_keep (x : Fetch) (s : State) : Keeps s (execBrk x s) := insn_keep _ _ opBrk_keep _ _
theorem execFence_keep (x : Fetch) (s : State) : Keeps s (execFence x s) := insn_keep _ _ opNop_keep _ _
theorem execJmp_keep (x : Fetch) (s : State) : Keeps s (execJmp x s) := insn_keep _ _ (opJump_keep _) _ _
theorem execCall_keep (x : Fetch) (s : State) : Keeps s (execCall x s) := insn_keep _ _ (opCall_keep _) _ _
theorem execJmpr_keep (x : Fetch) (s : State) : Keeps s (execJmpr x s) := insn_keep _ _ (opJump_keep _) _ _
theorem execCallr_keep (x : Fetch) (s : State) : Keeps s (execCallr x s) := insn_keep _ _ (opCall_keep _) _ _
theorem execBeq_keep (x : Fetch) (s : State) : Keeps s (execBeq x s) := insn_keep _ _ (opBranch_keep _ _) _ _
theorem execBne_keep (x : Fetch) (s : State) : Keeps s (execBne x s) := insn_keep _ _ (opBranch_keep _ _) _ _
theorem execBlt_keep (x : Fetch) (s : State) : Keeps s (execBlt x s) := insn_keep _ _ (opBranch_keep _ _) _ _
theorem execBge_keep (x : Fetch) (s : State) : Keeps s (execBge x s) := insn_keep _ _ (opBranch_keep _ _) _ _
theorem execBltu_keep (x : Fetch) (s : State) : Keeps s (execBltu x s) := insn_keep _ _ (opBranch_keep _ _) _ _
theorem execBgeu_keep (x : Fetch) (s : State) : Keeps s (execBgeu x s) := insn_keep _ _ (opBranch_keep _ _) _ _
theorem execBeqi_keep (x : Fetch) (s : State) : Keeps s (execBeqi x s) := insn_keep _ _ (opBranch_keep _ _) _ _
theorem execBnei_keep (x : Fetch) (s : State) : Keeps s (execBnei x s) := insn_keep _ _ (opBranch_keep _ _) _ _
theorem execBlti_keep (x : Fetch) (s : State) : Keeps s (execBlti x s) := insn_keep _ _ (opBranch_keep _ _) _ _
theorem execBgei_keep (x : Fetch) (s : State) : Keeps s (execBgei x s) := insn_keep _ _ (opBranch_keep _ _) _ _
theorem execBltui_keep (x : Fetch) (s : State) : Keeps s (execBltui x s) := insn_keep _ _ (opBranch_keep _ _) _ _
theorem execBgeui_keep (x : Fetch) (s : State) : Keeps s (execBgeui x s) := insn_keep _ _ (opBranch_keep _ _) _ _
theorem execBgti_keep (x : Fetch) (s : State) : Keeps s (execBgti x s) := insn_keep _ _ (opBranch_keep _ _) _ _
theorem execBlei_keep (x : Fetch) (s : State) : Keeps s (execBlei x s) := insn_keep _ _ (opBranch_keep _ _) _ _
theorem execBgtui_keep (x : Fetch) (s : State) : Keeps s (execBgtui x s) := insn_keep _ _ (opBranch_keep _ _) _ _
theorem execBleui_keep (x : Fetch) (s : State) : Keeps s (execBleui x s) := insn_keep _ _ (opBranch_keep _ _) _ _
theorem execDbnz_keep (x : Fetch) (s : State) : Keeps s (execDbnz x s) := insn_keep _ _ opDbnz_keep _ _
theorem execMfs_keep (x : Fetch) (s : State) : Keeps s (execMfs x s) := insn_keep _ _ opMfs_keep _ _
theorem execMts_keep (x : Fetch) (s : State) : Keeps s (execMts x s) := insn_keep _ _ opMts_keep _ _
theorem execCustomerExtension_keep (x : Fetch) (s : State) : Keeps s (execCustomerExtension x s) := insn_keep _ _ opExtension_keep _ _

end Sys2Proof.Machine
end

