-- ==== Sys2Proof/Laws/KeepTorpinMem.lean ====
section
/-! SUPPORT. What the memory instructions keep: the bundle of `State.keep`. -/

namespace Sys2Proof.Machine
open Sys2Proof

theorem loadIter_keep (c : Ctx) (s : State) : EKeeps id s (loadIter c s) := by
  have h := Ctx.loadOp_keep c s
  unfold loadIter
  split <;> simp_all [EKeeps]

theorem moveIter_keep (c : Ctx) (s : State) : EKeeps id s (moveIter c s) := by
  have h1 := checkAccess_keep c .load (c.ea c.d.b s) c.d.size c.d.size false s
  have h2 := checkAccess_keep c .store (c.ea c.d.a s) c.d.size c.d.size false s
  have h3 := readBytes_keep c (c.ea c.d.b s) c.d.size s
  unfold moveIter
  dsimp only
  split
  · simp_all [EKeeps]
  · split
    · simp_all [EKeeps]
    · split <;> simp_all [EKeeps]

theorem opLoad_keep : BodyKeeps opLoad := fun c s => Ctx.repeated_keep c _ (loadIter_keep c) s
theorem opStore_keep : BodyKeeps opStore := fun c s => Ctx.repeated_keep c _ (fun _ => Ctx.storeOp_keep c _ _) s
theorem opStoreImm_keep : BodyKeeps opStoreImm := fun c s => Ctx.repeated_keep c _ (fun _ => Ctx.storeOp_keep c _ _) s
theorem opMove_keep : BodyKeeps opMove := fun c s => Ctx.repeated_keep c _ (moveIter_keep c) s
theorem opLea_keep : BodyKeeps opLea := fun c s => by simp [opLea]

theorem opModify_keep (f : Word → Word → Word) (v : Ctx → State → Word) : BodyKeeps (opModify f v) := fun c s => by
  have h := Ctx.rmwOp_keep c c.d.lock (fun old => f old (v c s)) s
  unfold opModify
  split <;> simp_all [EKeeps]

theorem opExchange_keep : BodyKeeps opExchange := fun c s => by
  have h := Ctx.rmwOp_keep c true (fun _ => s.g c.n c.d.a) s
  unfold opExchange
  split <;> simp_all [EKeeps]

theorem execLd_keep (x : Fetch) (s : State) : Keeps s (execLd x s) := insn_keep _ _ opLoad_keep _ _
theorem execSt_keep (x : Fetch) (s : State) : Keeps s (execSt x s) := insn_keep _ _ opStore_keep _ _
theorem execLea_keep (x : Fetch) (s : State) : Keeps s (execLea x s) := insn_keep _ _ opLea_keep _ _
theorem execMvm_keep (x : Fetch) (s : State) : Keeps s (execMvm x s) := insn_keep _ _ opMove_keep _ _
theorem execXchg_keep (x : Fetch) (s : State) : Keeps s (execXchg x s) := insn_keep _ _ opExchange_keep _ _
theorem execSti_keep (x : Fetch) (s : State) : Keeps s (execSti x s) := insn_keep _ _ opStoreImm_keep _ _
theorem execAddm_keep (x : Fetch) (s : State) : Keeps s (execAddm x s) := insn_keep _ _ (opModify_keep _ _) _ _
theorem execAndm_keep (x : Fetch) (s : State) : Keeps s (execAndm x s) := insn_keep _ _ (opModify_keep _ _) _ _
theorem execOrm_keep (x : Fetch) (s : State) : Keeps s (execOrm x s) := insn_keep _ _ (opModify_keep _ _) _ _
theorem execXorm_keep (x : Fetch) (s : State) : Keeps s (execXorm x s) := insn_keep _ _ (opModify_keep _ _) _ _
theorem execAddmr_keep (x : Fetch) (s : State) : Keeps s (execAddmr x s) := insn_keep _ _ (opModify_keep _ _) _ _

end Sys2Proof.Machine
end

