-- ==== Sys2Proof/Laws/KeepExec.lean ====
section
/-! SUPPORT. Every command but the twelve that move time, restart the device or program OTP keeps the bundle of `State.keep`. -/

namespace Sys2Proof.Machine
open Sys2Proof

/-- The command does not move time, restart the device or program OTP. -/
def plain : Instr → Prop
  | .powerState .. => False
  | .supplySag .. => False
  | .resetN .. => False
  | .refinLoss .. => False
  | .watchdogReset .. => False
  | .boot .. => False
  | .dtWrap => False
  | .beatBoundary .. => False
  | .fwActivate .. => False
  | .tapReset => False
  | .provisionUpdate .. => False
  | .provisionDone .. => False
  | _ => True

theorem exec_keep (i : Instr) (s : State) (h : plain i) : Keeps s (exec i s) := by
  cases i with
  | identity _ => exact execIdentity_keep ..
  | sessionOpen _ => exact execSessionOpen_keep ..
  | sessionClose _ => exact execSessionClose_keep ..
  | sessionStatus _ => exact execSessionStatus_keep ..
  | echo _ => exact execEcho_keep ..
  | noticeMask _ => exact execNoticeMask_keep ..
  | transportCfg _ => exact execTransportCfg_keep ..
  | undefinedOpcode _ _ => exact execUndefinedOpcode_keep ..
  | qcpFrameRejected _ _ _ => exact execQcpFrameRejected_keep ..
  | gapTimeout _ => exact execGapTimeout_keep ..
  | reassemblyTimeout _ => exact execReassemblyTimeout_keep ..
  | noticeLost _ => exact execNoticeLost_keep ..
  | powerState _ _ => exact absurd h id
  | powerStatus _ => exact execPowerStatus_keep ..
  | domainSet _ => exact execDomainSet_keep ..
  | percCfg _ => exact execPercCfg_keep ..
  | percRuleWrite _ => exact execPercRuleWrite_keep ..
  | percRuleRead _ => exact execPercRuleRead_keep ..
  | percStatus _ => exact execPercStatus_keep ..
  | holdupStatus _ => exact execHoldupStatus_keep ..
  | percTick _ => exact execPercTick_keep ..
  | percHalt => exact execPercHalt_keep ..
  | percRestart => exact execPercRestart_keep ..
  | supplySag _ => exact absurd h id
  | supplyReturn => exact execSupplyReturn_keep ..
  | wakeTimeout => exact execWakeTimeout_keep ..
  | resetN _ => exact absurd h id
  | refinLoss _ => exact absurd h id
  | refinReturn => exact execRefinReturn_keep ..
  | watchdogReset _ => exact absurd h id
  | boot _ => exact absurd h id
  | holdupReady _ => exact execHoldupReady_keep ..
  | chargeTimeout => exact execChargeTimeout_keep ..
  | trialTimeout => exact execTrialTimeout_keep ..
  | tempHigh _ => exact execTempHigh_keep ..
  | watchTimeEval => exact execWatchTimeEval_keep ..
  | dtWrap => exact absurd h id
  | beatBoundary _ _ => exact absurd h id
  | clkLoss _ => exact execClkLoss_keep ..
  | clockResume _ => exact execClockResume_keep ..
  | alignmentFixed _ _ => exact execAlignmentFixed_keep ..
  | installWrite _ => exact execInstallWrite_keep ..
  | installRead _ => exact execInstallRead_keep ..
  | inputEnable _ => exact execInputEnable_keep ..
  | subbandSet _ => exact execSubbandSet_keep ..
  | inputStats _ => exact execInputStats_keep ..
  | grinderCfg _ => exact execGrinderCfg_keep ..
  | grinderStatus _ => exact execGrinderStatus_keep ..
  | ledgerWrite _ => exact execLedgerWrite_keep ..
  | ledgerRead _ => exact execLedgerRead_keep ..
  | ledgerCancel _ => exact execLedgerCancel_keep ..
  | ledgerFree _ => exact execLedgerFree_keep ..
  | acqPlan _ => exact execAcqPlan_keep ..
  | entryDispatch _ => exact execEntryDispatch_keep ..
  | grinderEntryDone _ _ => exact execGrinderEntryDone_keep ..
  | entryCancelled _ => exact execEntryCancelled_keep ..
  | handover _ => exact execHandover_keep ..
  | handoverExpired _ => exact execHandoverExpired_keep ..
  | fabricCfg _ => exact execFabricCfg_keep ..
  | fabricStatus _ => exact execFabricStatus_keep ..
  | chanStart _ => exact execChanStart_keep ..
  | chanStop _ => exact execChanStop_keep ..
  | chanRead _ => exact execChanRead_keep ..
  | chanModify _ => exact execChanModify_keep ..
  | codeLoad _ => exact execCodeLoad_keep ..
  | dumpService _ _ _ => exact execDumpService_keep ..
  | pullinTimeout _ => exact execPullinTimeout_keep ..
  | coastTimeout _ => exact execCoastTimeout_keep ..
  | channelRelease _ => exact execChannelRelease_keep ..
  | mpFit _ _ => exact execMpFit_keep ..
  | trackProfile _ => exact execTrackProfile_keep ..
  | trackAssign _ => exact execTrackAssign_keep ..
  | trackProfileRead _ => exact execTrackProfileRead_keep ..
  | trackStatus _ => exact execTrackStatus_keep ..
  | mpCfg _ => exact execMpCfg_keep ..
  | mpRead _ => exact execMpRead_keep ..
  | interfCfg _ => exact execInterfCfg_keep ..
  | interfStatus _ => exact execInterfStatus_keep ..
  | spoofCfg _ => exact execSpoofCfg_keep ..
  | spoofStatus _ => exact execSpoofStatus_keep ..
  | spoofEvaluation => exact execSpoofEvaluation_keep ..
  | osnmaKey _ => exact execOsnmaKey_keep ..
  | osnmaCfg _ => exact execOsnmaCfg_keep ..
  | osnmaStatus _ => exact execOsnmaStatus_keep ..
  | navEpoch _ => exact execNavEpoch_keep ..
  | navDeadline => exact execNavDeadline_keep ..
  | fusedEpoch _ => exact execFusedEpoch_keep ..
  | navMessage _ => exact execNavMessage_keep ..
  | imuRead _ t => exact execImuRead_keep (sameTick := t) ..
  | imuLost => exact execImuLost_keep ..
  | canStale => exact execCanStale_keep ..
  | navCfg _ => exact execNavCfg_keep ..
  | navStatus _ => exact execNavStatus_keep ..
  | navReset _ => exact execNavReset_keep ..
  | antCfg _ => exact execAntCfg_keep ..
  | pairCfg _ => exact execPairCfg_keep ..
  | fusionCfg _ => exact execFusionCfg_keep ..
  | ephLoad _ _ => exact execEphLoad_keep ..
  | almLoad _ _ => exact execAlmLoad_keep ..
  | pvtRead _ => exact execPvtRead_keep ..
  | measRead _ => exact execMeasRead_keep ..
  | corrCfg _ => exact execCorrCfg_keep ..
  | corrStatus _ => exact execCorrStatus_keep ..
  | corrPush _ _ => exact execCorrPush_keep ..
  | msmEpochTimeout => exact execMsmEpochTimeout_keep ..
  | arpWaitTimeout => exact execArpWaitTimeout_keep ..
  | hasPageTimeout => exact execHasPageTimeout_keep ..
  | sbasUnusableEnd => exact execSbasUnusableEnd_keep ..
  | domainCfg _ => exact execDomainCfg_keep ..
  | domainStatus _ => exact execDomainStatus_keep ..
  | qdpTunnelIn _ _ => exact execQdpTunnelIn_keep ..
  | qdpDatagramRx _ _ _ _ => exact execQdpDatagramRx_keep ..
  | helloSend => exact execHelloSend_keep ..
  | alertExpiry => exact execAlertExpiry_keep ..
  | peerTimeout => exact execPeerTimeout_keep ..
  | conflictSilenceEnd => exact execConflictSilenceEnd_keep ..
  | refstnCfg _ => exact execRefstnCfg_keep ..
  | refstnStatus _ => exact execRefstnStatus_keep ..
  | timeConfig _ => exact execTimeConfig_keep ..
  | timeStatus _ => exact execTimeStatus_keep ..
  | tpConfig _ => exact execTpConfig_keep ..
  | foutConfig _ => exact execFoutConfig_keep ..
  | evConfig _ => exact execEvConfig_keep ..
  | evRead _ => exact execEvRead_keep ..
  | timePulseEdge _ _ _ => exact execTimePulseEdge_keep ..
  | foutEdge _ => exact execFoutEdge_keep ..
  | stepInstant => exact execStepInstant_keep ..
  | leapSecond => exact execLeapSecond_keep ..
  | holdoverLimit => exact execHoldoverLimit_keep ..
  | eventCapture _ _ _ _ => exact execEventCapture_keep ..
  | epCfg _ => exact execEpCfg_keep ..
  | epStatus _ => exact execEpStatus_keep ..
  | ptpCfg _ => exact execPtpCfg_keep ..
  | ptpStatus _ => exact execPtpStatus_keep ..
  | ptpTrust _ => exact execPtpTrust_keep ..
  | ethTx _ => exact execEthTx_keep ..
  | ethTsRead _ => exact execEthTsRead_keep ..
  | ethFrameRx _ _ _ _ _ => exact execEthFrameRx_keep ..
  | ethLaunch _ => exact execEthLaunch_keep ..
  | ethTxDone _ _ _ => exact execEthTxDone_keep ..
  | tsEntryTimeout _ => exact execTsEntryTimeout_keep ..
  | linkDown _ => exact execLinkDown_keep ..
  | linkUp _ _ => exact execLinkUp_keep ..
  | syncRx _ _ _ => exact execSyncRx_keep ..
  | delayRespRx _ _ _ => exact execDelayRespRx_keep ..
  | pdelayRx _ _ _ => exact execPdelayRx_keep ..
  | announceRx _ _ _ => exact execAnnounceRx_keep ..
  | syncSend _ => exact execSyncSend_keep ..
  | announceSend _ => exact execAnnounceSend_keep ..
  | delayReqSend _ => exact execDelayReqSend_keep ..
  | announceTimeout _ => exact execAnnounceTimeout_keep ..
  | suspectMasterEnd _ => exact execSuspectMasterEnd_keep ..
  | pathWindowEnd _ => exact execPathWindowEnd_keep ..
  | untrustHoldEnd _ => exact execUntrustHoldEnd_keep ..
  | carafeCfg _ => exact execCarafeCfg_keep ..
  | carafeStatus _ => exact execCarafeStatus_keep ..
  | carafeTrigger _ => exact execCarafeTrigger_keep ..
  | carafeRelease _ => exact execCarafeRelease_keep ..
  | carafeRead _ => exact execCarafeRead_keep ..
  | carafeReplay _ _ => exact execCarafeReplay_keep ..
  | windowFrozen _ => exact execWindowFrozen_keep ..
  | windowRelease _ => exact execWindowRelease_keep ..
  | replayDone _ _ => exact execReplayDone_keep ..
  | cuStatus _ => exact execCuStatus_keep ..
  | keyDerive _ => exact execKeyDerive_keep ..
  | keyErase _ => exact execKeyErase_keep ..
  | keySlotRead _ => exact execKeySlotRead_keep ..
  | cipherRun _ => exact execCipherRun_keep ..
  | sealCfg _ => exact execSealCfg_keep ..
  | sealNow _ => exact execSealNow_keep ..
  | sealRead _ => exact execSealRead_keep ..
  | sealVerify _ => exact execSealVerify_keep ..
  | cipherOpStart _ => exact execCipherOpStart_keep ..
  | cipherOpComplete _ _ => exact execCipherOpComplete_keep ..
  | sealComplete _ => exact execSealComplete_keep ..
  | leaseExpiry _ => exact execLeaseExpiry_keep ..
  | keyExpired _ => exact execKeyExpired_keep ..
  | slotDrained _ => exact execSlotDrained_keep ..
  | trngHealthFail => exact execTrngHealthFail_keep ..
  | trngStallTimeout _ _ => exact execTrngStallTimeout_keep ..
  | cuLockAcquire _ _ => exact execCuLockAcquire_keep ..
  | cuLockRelease _ _ => exact execCuLockRelease_keep ..
  | cuEvtClear => exact execCuEvtClear_keep ..
  | uartCfg _ => exact execUartCfg_keep ..
  | periphStatus _ => exact execPeriphStatus_keep ..
  | cardCfg _ => exact execCardCfg_keep ..
  | cardReset _ _ => exact execCardReset_keep ..
  | cardApdu _ => exact execCardApdu_keep ..
  | cardApduComplete _ _ => exact execCardApduComplete_keep ..
  | cardWaitTimeout _ => exact execCardWaitTimeout_keep ..
  | imuCfg _ => exact execImuCfg_keep ..
  | imuXfer _ _ => exact execImuXfer_keep ..
  | i2cXfer _ _ => exact execI2cXfer_keep ..
  | canCfg _ => exact execCanCfg_keep ..
  | canMap _ => exact execCanMap_keep ..
  | canTx _ _ => exact execCanTx_keep ..
  | canFrameRx _ _ => exact execCanFrameRx_keep ..
  | busOffRecovery _ => exact execBusOffRecovery_keep ..
  | wtCfg _ => exact execWtCfg_keep ..
  | wheelTick _ _ _ => exact execWheelTick_keep ..
  | gpioCfg _ => exact execGpioCfg_keep ..
  | gpioWrite _ => exact execGpioWrite_keep ..
  | gpioRead _ => exact execGpioRead_keep ..
  | gpioEdge _ _ _ => exact execGpioEdge_keep ..
  | gpSet _ => exact execGpSet_keep ..
  | gpClr _ => exact execGpClr_keep ..
  | uartRxChar _ _ => exact execUartRxChar_keep ..
  | uartCharSent _ _ => exact execUartCharSent_keep ..
  | uaTxWrite _ _ => exact execUaTxWrite_keep ..
  | uaRxRead _ => exact execUaRxRead_keep ..
  | ucCfg _ => exact execUcCfg_keep ..
  | ucStatus _ => exact execUcStatus_keep ..
  | ucLoad _ => exact execUcLoad_keep ..
  | ucStart _ => exact execUcStart_keep ..
  | ucStop _ => exact execUcStop_keep ..
  | ucSwap _ => exact execUcSwap_keep ..
  | swapForced => exact execSwapForced_keep ..
  | ucSwapResume => exact execUcSwapResume_keep ..
  | ucWatchdog => exact execUcWatchdog_keep ..
  | ucTimerExpiry _ => exact execUcTimerExpiry_keep ..
  | ucTmrCtrlWrite _ _ => exact execUcTmrCtrlWrite_keep ..
  | evcPop _ => exact execEvcPop_keep ..
  | s15Txdata _ => exact execS15Txdata_keep ..
  | s15Rxdata => exact execS15Rxdata_keep ..
  | interruptEntry _ _ => exact execInterruptEntry_keep ..
  | bootStatus _ => exact execBootStatus_keep ..
  | fwWrite _ _ => exact execFwWrite_keep ..
  | fwVerify _ => exact execFwVerify_keep ..
  | fwVerifyComplete _ => exact execFwVerifyComplete_keep ..
  | fwActivate _ => exact absurd h id
  | loopSwap _ _ => exact execLoopSwap_keep ..
  | loopSwapComplete _ => exact execLoopSwapComplete_keep ..
  | navSwap _ _ => exact execNavSwap_keep ..
  | navSwapComplete => exact execNavSwapComplete_keep ..
  | deviceReset _ => exact execDeviceReset_keep ..
  | overrunLog _ => exact execOverrunLog_keep ..
  | faultLog _ => exact execFaultLog_keep ..
  | tempRead _ => exact execTempRead_keep ..
  | counters _ => exact execCounters_keep ..
  | selftest _ => exact execSelftest_keep ..
  | selftestComplete _ _ => exact execSelftestComplete_keep ..
  | mbCfg _ => exact execMbCfg_keep ..
  | mbStatus _ => exact execMbStatus_keep ..
  | mbOwnSet _ => exact execMbOwnSet_keep ..
  | mbDpCfg _ => exact execMbDpCfg_keep ..
  | marchRun _ => exact execMarchRun_keep ..
  | marchEnd _ _ => exact execMarchEnd_keep ..
  | marchStatus _ => exact execMarchStatus_keep ..
  | mbRepair _ => exact execMbRepair_keep ..
  | repairEnd _ => exact execRepairEnd_keep ..
  | protWindowSet _ => exact execProtWindowSet_keep ..
  | protWindowRead _ => exact execProtWindowRead_keep ..
  | dmaAssign _ => exact execDmaAssign_keep ..
  | dmaStatus _ => exact execDmaStatus_keep ..
  | freezeRead _ => exact execFreezeRead_keep ..
  | thaw _ => exact execThaw_keep ..
  | eccRead _ => exact execEccRead_keep ..
  | memRead _ => exact execMemRead_keep ..
  | memWrite _ => exact execMemWrite_keep ..
  | bankPowerDone _ => exact execBankPowerDone_keep ..
  | handoverDrain _ => exact execHandoverDrain_keep ..
  | patrolScrub _ => exact execPatrolScrub_keep ..
  | dmaBurst _ _ => exact execDmaBurst_keep ..
  | dmaStart _ => exact execDmaStart_keep ..
  | dmaStop _ => exact execDmaStop_keep ..
  | dmaStatusClear _ _ => exact execDmaStatusClear_keep ..
  | mbCollClear _ _ => exact execMbCollClear_keep ..
  | mbCtrlPower _ _ => exact execMbCtrlPower_keep ..
  | registerWrite _ _ => exact execRegisterWrite_keep ..
  | tapReset => exact absurd h id
  | provisionUpdate _ _ => exact absurd h id
  | provisionDone _ => exact absurd h id
  | mov _ => exact execMov_keep ..
  | add _ => exact execAdd_keep ..
  | sub _ => exact execSub_keep ..
  | addv _ => exact execAddv_keep ..
  | subv _ => exact execSubv_keep ..
  | and _ => exact execAnd_keep ..
  | or _ => exact execOr_keep ..
  | xor _ => exact execXor_keep ..
  | shl _ => exact execShl_keep ..
  | shr _ => exact execShr_keep ..
  | sar _ => exact execSar_keep ..
  | rol _ => exact execRol_keep ..
  | ror _ => exact execRor_keep ..
  | mul _ => exact execMul_keep ..
  | mulh _ => exact execMulh_keep ..
  | mulhu _ => exact execMulhu_keep ..
  | movi _ => exact execMovi_keep ..
  | addi _ => exact execAddi_keep ..
  | subi _ => exact execSubi_keep ..
  | addvi _ => exact execAddvi_keep ..
  | subvi _ => exact execSubvi_keep ..
  | andi _ => exact execAndi_keep ..
  | ori _ => exact execOri_keep ..
  | xori _ => exact execXori_keep ..
  | shli _ => exact execShli_keep ..
  | shri _ => exact execShri_keep ..
  | sari _ => exact execSari_keep ..
  | roli _ => exact execRoli_keep ..
  | rori _ => exact execRori_keep ..
  | muli _ => exact execMuli_keep ..
  | div _ => exact execDiv_keep ..
  | divu _ => exact execDivu_keep ..
  | divz _ => exact execDivz_keep ..
  | divzu _ => exact execDivzu_keep ..
  | rem _ => exact execRem_keep ..
  | remu _ => exact execRemu_keep ..
  | remz _ => exact execRemz_keep ..
  | remzu _ => exact execRemzu_keep ..
  | neg _ => exact execNeg_keep ..
  | not _ => exact execNot_keep ..
  | sexb _ => exact execSexb_keep ..
  | sexh _ => exact execSexh_keep ..
  | zexb _ => exact execZexb_keep ..
  | zexh _ => exact execZexh_keep ..
  | clz _ => exact execClz_keep ..
  | popc _ => exact execPopc_keep ..
  | slt _ => exact execSlt_keep ..
  | sltu _ => exact execSltu_keep ..
  | ld _ => exact execLd_keep ..
  | st _ => exact execSt_keep ..
  | lea _ => exact execLea_keep ..
  | mvm _ => exact execMvm_keep ..
  | xchg _ => exact execXchg_keep ..
  | sti _ => exact execSti_keep ..
  | addm _ => exact execAddm_keep ..
  | andm _ => exact execAndm_keep ..
  | orm _ => exact execOrm_keep ..
  | xorm _ => exact execXorm_keep ..
  | addmr _ => exact execAddmr_keep ..
  | nop _ => exact execNop_keep ..
  | wait _ => exact execWait_keep ..
  | ret _ => exact execRet_keep ..
  | reti _ => exact execReti_keep ..
  | info _ => exact execInfo_keep ..
  | time _ => exact execTime_keep ..
  | pvtCopy _ => exact execPvtCopy_keep ..
  | wdog _ => exact execWdog_keep ..
  | log _ => exact execLog_keep ..
  | nextBeat _ => exact execNextBeat_keep ..
  | swapReady _ => exact execSwapReady_keep ..
  | brk _ => exact execBrk_keep ..
  | fence _ => exact execFence_keep ..
  | jmp _ => exact execJmp_keep ..
  | call _ => exact execCall_keep ..
  | jmpr _ => exact execJmpr_keep ..
  | callr _ => exact execCallr_keep ..
  | beq _ => exact execBeq_keep ..
  | bne _ => exact execBne_keep ..
  | blt _ => exact execBlt_keep ..
  | bge _ => exact execBge_keep ..
  | bltu _ => exact execBltu_keep ..
  | bgeu _ => exact execBgeu_keep ..
  | beqi _ => exact execBeqi_keep ..
  | bnei _ => exact execBnei_keep ..
  | blti _ => exact execBlti_keep ..
  | bgei _ => exact execBgei_keep ..
  | bltui _ => exact execBltui_keep ..
  | bgeui _ => exact execBgeui_keep ..
  | bgti _ => exact execBgti_keep ..
  | blei _ => exact execBlei_keep ..
  | bgtui _ => exact execBgtui_keep ..
  | bleui _ => exact execBleui_keep ..
  | dbnz _ => exact execDbnz_keep ..
  | mfs _ => exact execMfs_keep ..
  | mts _ => exact execMts_keep ..
  | customerExtension _ => exact execCustomerExtension_keep ..
  | snap _ => exact execSnap_keep ..
  | mfc _ => exact execMfc_keep ..
  | mtc _ => exact execMtc_keep ..
  | epoch _ => exact execEpoch_keep ..
  | submit _ => exact execSubmit_keep ..
  | status _ => exact execStatus_keep ..
  | cancel _ => exact execCancel_keep ..
  | fld _ => exact execFld_keep ..
  | fst _ => exact execFst_keep ..
  | fmov _ => exact execFmov_keep ..
  | fadd _ => exact execFadd_keep ..
  | fsub _ => exact execFsub_keep ..
  | fmul _ => exact execFmul_keep ..
  | fdiv _ => exact execFdiv_keep ..
  | fsqrt _ => exact execFsqrt_keep ..
  | fneg _ => exact execFneg_keep ..
  | fcvtif _ => exact execFcvtif_keep ..
  | fcvtfi _ => exact execFcvtfi_keep ..
  | fcmp _ => exact execFcmp_keep ..
  | fstat _ => exact execFstat_keep ..
  | fclr _ => exact execFclr_keep ..
  | mxrun _ => exact execMxrun_keep ..
  | cmul _ => exact execCmul_keep ..
  | cmulc _ => exact execCmulc_keep ..
  | cpow _ => exact execCpow_keep ..
  | cmag _ => exact execCmag_keep ..
  | catan _ => exact execCatan_keep ..
  | cnorm _ => exact execCnorm_keep ..
  | illegalInstruction _ => exact execIllegalInstruction_keep ..
  | undefinedService _ => exact execUndefinedService_keep ..
  | spiTransfer _ _ => exact execSpiTransfer_keep ..
  | syncReceiptTimeout _ => exact execSyncReceiptTimeout_keep ..
  | canBusError _ _ _ => exact execCanBusError_keep ..
  | trngHealthPass => exact execTrngHealthPass_keep ..
  | wakeWidthExpiry => exact execWakeWidthExpiry_keep ..
  | holdupMeasurementEnd _ => exact execHoldupMeasurementEnd_keep ..

end Sys2Proof.Machine
end

