-- ==== Sys2Proof/Laws/Memory.lean ====
section
/-! SUPPORT. The cells of managed memory: read after write, and the canonical form that every memory operation keeps. -/

namespace Sys2Proof.Machine
open Sys2Proof

/-- Keys strictly rising. -/
def Rising (cs : List Host.Cell) : Prop := (cs.map (·.1)).Pairwise (· < ·)

theorem Memory.wf_iff (m : MemSys) : Memory.wf m = true ↔ (∀ c ∈ m.cells, c.2 ≠ m.default c.1) ∧ Rising m.cells := by
  simp [Memory.wf, Rising]

theorem rising_tail {c : Host.Cell} {cs : List Host.Cell} (h : Rising (c :: cs)) : Rising cs := (List.pairwise_cons.mp h).2

theorem rising_head {c : Host.Cell} {cs : List Host.Cell} (h : Rising (c :: cs)) : ∀ x ∈ cs, c.1 < x.1 := fun x hx =>
  (List.pairwise_cons.mp h).1 x.1 (List.mem_map_of_mem hx)

theorem readCell_absent (d : Byte) (cs : List Host.Cell) (l : Nat) (h : ∀ c ∈ cs, c.1 ≠ l) : readCell d cs l = d := by
  induction cs with
  | nil => rfl
  | cons c cs ih =>
    obtain ⟨k, v⟩ := c
    have hk : k ≠ l := h (k, v) (List.mem_cons_self ..)
    simp only [readCell, hk, if_false]
    exact ih fun x hx => h x (List.mem_cons_of_mem _ hx)

/-- Read after write at the same cell. -/
theorem readCell_writeCell (d : Byte) (cs : List Host.Cell) (l : Nat) (v : Byte) (h : Rising cs) : readCell d (writeCell d cs l v) l = v := by
  induction cs with
  | nil =>
    simp only [writeCell]
    split
    · simp_all [readCell]
    · simp [readCell]
  | cons c cs ih =>
    obtain ⟨k, w⟩ := c
    have hh := rising_head h
    simp only [writeCell]
    split
    · rename_i hlt
      split
      · rename_i hv
        refine (readCell_absent d _ l fun x hx => ?_).trans hv.symm
        rcases List.mem_cons.mp hx with rfl | hx
        · exact Nat.ne_of_gt hlt
        · exact Nat.ne_of_gt (Nat.lt_trans hlt (hh x hx))
      · simp [readCell]
    · split
      · rename_i _ he
        split
        · rename_i hv
          refine (readCell_absent d _ l fun x hx => ?_).trans hv.symm
          exact Nat.ne_of_gt (by rw [he]; exact hh x hx)
        · simp [readCell]
      · rename_i _ hne
        simp only [readCell]
        rw [if_neg (fun hh => hne hh.symm)]
        exact ih (rising_tail h)

/-- A write leaves every other cell alone. -/
theorem readCell_writeCell_other (d e : Byte) (cs : List Host.Cell) (l k : Nat) (v : Byte) (hk : k ≠ l) : readCell e (writeCell d cs l v) k = readCell e cs k := by
  have hlk : l ≠ k := fun h => hk h.symm
  induction cs with
  | nil =>
    simp only [writeCell]
    split
    · rfl
    · simp [readCell, hlk]
  | cons c cs ih =>
    obtain ⟨j, w⟩ := c
    simp only [writeCell]
    split
    · split
      · rfl
      · simp [readCell, hlk]
    · split
      · rename_i _ he
        have hjk : j ≠ k := fun h => hlk (he.trans h)
        split
        · simp [readCell, hjk]
        · simp [readCell, hjk, hlk]
      · simp only [readCell]
        split
        · rfl
        · exact ih

theorem writeCell_mem (d : Byte) (cs : List Host.Cell) (l : Nat) (v : Byte) : ∀ c ∈ writeCell d cs l v, c ∈ cs ∨ (c = (l, v) ∧ v ≠ d) := by
  induction cs with
  | nil =>
    intro c hc
    simp only [writeCell] at hc
    split at hc
    · simp at hc
    · simp_all
  | cons x cs ih =>
    obtain ⟨j, w⟩ := x
    intro c hc
    simp only [writeCell] at hc
    split at hc
    · split at hc
      · exact .inl hc
      · rename_i hv
        rcases List.mem_cons.mp hc with rfl | hc
        · exact .inr ⟨rfl, hv⟩
        · exact .inl hc
    · split at hc
      · split at hc
        · exact .inl (List.mem_cons_of_mem _ hc)
        · rename_i hv
          rcases List.mem_cons.mp hc with rfl | hc
          · exact .inr ⟨rfl, hv⟩
          · exact .inl (List.mem_cons_of_mem _ hc)
      · rcases List.mem_cons.mp hc with rfl | hc
        · exact .inl (List.mem_cons_self ..)
        · rcases ih c hc with h | h
          · exact .inl (List.mem_cons_of_mem _ h)
          · exact .inr h

theorem writeCell_rising (d : Byte) (cs : List Host.Cell) (l : Nat) (v : Byte) (h : Rising cs) : Rising (writeCell d cs l v) := by
  induction cs with
  | nil =>
    simp only [writeCell]
    split <;> simp [Rising]
  | cons x cs ih =>
    obtain ⟨j, w⟩ := x
    have hh := rising_head h
    simp only [writeCell]
    split
    · rename_i hlt
      split
      · exact h
      · refine List.pairwise_cons.mpr ⟨fun k hk => ?_, h⟩
        obtain ⟨c, hc, rfl⟩ := List.mem_map.mp hk
        rcases List.mem_cons.mp hc with rfl | hc
        · exact hlt
        · exact Nat.lt_trans hlt (hh c hc)
    · split
      · rename_i _ he
        split
        · exact rising_tail h
        · rw [he]
          exact h
      · rename_i hnlt hne
        refine List.pairwise_cons.mpr ⟨fun k hk => ?_, ih (rising_tail h)⟩
        obtain ⟨c, hc, rfl⟩ := List.mem_map.mp hk
        rcases writeCell_mem d cs l v c hc with hc | ⟨rfl, -⟩
        · exact hh c hc
        · exact Nat.lt_of_le_of_ne (Nat.not_lt.mp hnlt) fun h => hne h.symm

/-! ### Addresses and cells -/

/-- The bank of an address lies in its octet, and the offset in the bank. -/
theorem MemSys.locate_octet (m : MemSys) (a : Nat) : (m.locate a).1 / 8 = octetOf a ∧ (m.locate a).2 < bankBytes := by
  unfold MemSys.locate bankBytes
  have hx : (a - memBase) % 0x400000 < 0x400000 := Nat.mod_lt _ (by decide)
  generalize (a - memBase) % 0x400000 = x at hx
  dsimp only
  split <;> dsimp only <;> omega

/-- Two addresses of managed memory share no cell (R336). -/
theorem MemSys.loc_injective (m : MemSys) (a b : Nat) (ha : inMem a = true) (hb : inMem b = true) (h : m.loc a = m.loc b) : a = b := by
  have ha : memBase ≤ a ∧ a < memLimit := of_decide_eq_true ha
  have hb : memBase ≤ b ∧ b < memLimit := of_decide_eq_true hb
  have key (p q r s : Nat) (hq : q < 524288) (hs : s < 524288) (h : p * 524288 + q = r * 524288 + s) : p = r ∧ q = s := by omega
  obtain ⟨a1, a2⟩ := m.locate_octet a
  obtain ⟨b1, b2⟩ := m.locate_octet b
  obtain ⟨h1, h2⟩ := key (m.locate a).1 (m.locate a).2 (m.locate b).1 (m.locate b).2 a2 b2 h
  have ho : octetOf a = octetOf b := by rw [← a1, ← b1, h1]
  have hxa : (a - memBase) = octetOf a * 0x400000 + (a - memBase) % 0x400000 := by unfold octetOf; omega
  have hxb : (b - memBase) = octetOf b * 0x400000 + (b - memBase) % 0x400000 := by unfold octetOf; omega
  have hla : (a - memBase) % 0x400000 < 0x400000 := Nat.mod_lt _ (by decide)
  have hlb : (b - memBase) % 0x400000 < 0x400000 := Nat.mod_lt _ (by decide)
  have hx : (a - memBase) % 0x400000 = (b - memBase) % 0x400000 := by
    unfold MemSys.locate bankBytes at h1 h2
    rw [ho] at h1 h2
    generalize (a - memBase) % 0x400000 = x at *
    generalize (b - memBase) % 0x400000 = y at *
    by_cases hi : (m.bank (8 * octetOf b)).interleaved = true
    · simp only [hi, if_true] at h1 h2
      clear hxa hxb a1 b1 a2 b2 h
      generalize octetOf b = o at *
      have e1 : x / 8 % 8 = y / 8 % 8 := by omega
      have e2 : x % 8 = y % 8 ∧ x / 64 = y / 64 := by omega
      omega
    · dsimp only at h1 h2
      rw [eq_false_of_ne_true hi] at h1 h2
      simp only [Bool.false_eq_true, if_false] at h1 h2
      omega
  have : a - memBase = b - memBase := by rw [hxa, hxb, ho, hx]
  unfold memBase at *
  omega

@[simp] theorem MemSys.loc_setByte (m : MemSys) (a b : Nat) (v : Byte) : (m.setByte a v).loc b = m.loc b := rfl
@[simp] theorem MemSys.default_setByte (m : MemSys) (a l : Nat) (v : Byte) : (m.setByte a v).default l = m.default l := rfl

theorem MemSys.byte_setByte (m : MemSys) (a : Nat) (v : Byte) (h : Memory.wf m = true) : (m.setByte a v).byte a = v :=
  readCell_writeCell _ _ _ _ ((Memory.wf_iff m).mp h).2

theorem MemSys.byte_setByte_other (m : MemSys) (a b : Nat) (v : Byte) (h : m.loc b ≠ m.loc a) : (m.setByte a v).byte b = m.byte b :=
  readCell_writeCell_other _ _ _ _ _ _ h

theorem Memory.wf_setByte (m : MemSys) (a : Nat) (v : Byte) (h : Memory.wf m = true) : Memory.wf (m.setByte a v) = true := by
  obtain ⟨h1, h2⟩ := (Memory.wf_iff m).mp h
  refine (Memory.wf_iff _).mpr ⟨fun c hc => ?_, writeCell_rising _ _ _ _ h2⟩
  rcases writeCell_mem _ _ _ _ c hc with hc | ⟨rfl, hv⟩
  · exact h1 c hc
  · exact hv

theorem Memory.wf_write (bs : List Byte) (m : MemSys) (a : Nat) (h : Memory.wf m = true) : Memory.wf (m.write a bs) = true := by
  induction bs generalizing m a with
  | nil => exact h
  | cons b bs ih => exact ih _ _ (Memory.wf_setByte m a b h)

/-- A store keeps the canonical form. -/
theorem Memory.wf_memWrite (s : State) (a : Nat) (bs : List Byte) (h : Memory.wf s.mem = true) : Memory.wf (s.memWrite a bs).mem = true :=
  Memory.wf_write bs s.mem a h

/-- Cells that a predicate keeps are in canonical form where the bytes they would read as unlisted stay. -/
theorem Memory.wf_filter (m n : MemSys) (p : Host.Cell → Bool) (hc : n.cells = m.cells.filter p) (hd : ∀ c ∈ m.cells, p c = true → n.default c.1 = m.default c.1)
    (h : Memory.wf m = true) : Memory.wf n = true := by
  obtain ⟨h1, h2⟩ := (Memory.wf_iff m).mp h
  refine (Memory.wf_iff n).mpr ⟨fun c hx => ?_, ?_⟩
  · rw [hc, List.mem_filter] at hx
    rw [hd c hx.1 hx.2]
    exact h1 c hx.1
  · rw [hc]
    exact h2.sublist ((List.filter_sublist).map _)

theorem MemSys.default_congr (m n : MemSys) (l : Nat) (h : (n.bank (l / bankBytes)).stamp = (m.bank (l / bankBytes)).stamp) : n.default l = m.default l := by
  unfold MemSys.default
  rw [h]

theorem MemSys.bank_modBank (m : MemSys) (b k : Nat) (f : Bank → Bank) : (m.modBank b f).bank k = if b = k ∧ k < m.banks.length then f (m.bank k) else m.bank k := by
  unfold MemSys.modBank MemSys.bank modAt
  rw [List.getElem?_modify]
  by_cases hk : k < m.banks.length
  · by_cases hb : b = k <;> simp [hb, hk]
  · simp [hk, List.getElem?_eq_none (Nat.not_lt.mp hk)]

/-- A change of a bank that keeps its stamp keeps the canonical form. -/
theorem Memory.wf_modBank (m : MemSys) (b : Nat) (f : Bank → Bank) (hf : ∀ k, (f k).stamp = k.stamp) (h : Memory.wf m = true) : Memory.wf (m.modBank b f) = true := by
  refine Memory.wf_filter m _ (fun _ => true) (List.filter_eq_self.mpr fun _ _ => rfl).symm (fun c _ _ => MemSys.default_congr _ _ _ ?_) h
  rw [MemSys.bank_modBank]
  split
  · exact hf _
  · rfl

/-- Emptying a bank keeps the canonical form. -/
theorem Memory.wf_clearBank (m : MemSys) (b stamp : Nat) (h : Memory.wf m = true) : Memory.wf (m.clearBank b stamp) = true := by
  refine Memory.wf_filter m _ (fun c => c.1 / bankBytes != b) rfl (fun c _ hc => MemSys.default_congr _ _ _ ?_) h
  show ((m.modBank b _).bank _).stamp = _
  rw [MemSys.bank_modBank]
  have : ¬b = c.1 / bankBytes := fun hb => by simp [hb] at hc
  simp [this]

/-- The loss of banks at the entry to WATCH keeps the canonical form. -/
theorem Memory.wf_retainBanks (keep : List Nat) (s : State) (h : Memory.wf s.mem = true) : Memory.wf (retainBanks keep s).mem = true := by
  refine Memory.wf_filter s.mem _ (fun c => keep.contains (c.1 / bankBytes)) rfl (fun c _ hc => MemSys.default_congr _ _ _ ?_) h
  unfold retainBanks MemSys.bank
  simp only [List.getElem?_mapIdx]
  cases s.mem.banks[c.1 / bankBytes]? with
  | none => rfl
  | some b => simp only [Option.map_some, Option.getD_some, hc, if_true]

theorem Memory.wf_restoreBanks (s : State) (h : Memory.wf s.mem = true) : Memory.wf (restoreBanks s).mem = true := by
  refine Memory.wf_filter s.mem _ (fun c => decide ((s.bank (c.1 / bankBytes)).power ≠ .off)) rfl (fun c _ _ => MemSys.default_congr _ _ _ ?_) h
  unfold restoreBanks MemSys.bank
  simp only [List.getElem?_map]
  cases s.mem.banks[c.1 / bankBytes]? <;> rfl

theorem Memory.wf_reset : Memory.wf State.reset.mem = true := rfl

end Sys2Proof.Machine
end

