-- ==== Sys2Proof/Laws/Pipeline.lean ====
section
/-! SUPPORT. The spec lemmas of the command pipeline and of the Torpin instruction boundary. -/

namespace Sys2Proof.Machine
open Sys2Proof

/-- A command that the pipeline admits has its effect and its reply. -/
theorem runHost_admits (c : HostCmd) (q : Qcp) (s : State) (h : admits c q s = true) :
    runHost c q s = .next (c.answer q (c.effect q s).1 (c.effect q s).2) := by
  unfold admits at h
  unfold runHost processFrame HostCmd.answer
  cases he : s.sessions[q.session]? with
  | none => simp [he] at h
  | some e =>
    simp only [he, Bool.and_eq_true, Bool.or_eq_true, decide_eq_true_eq, Option.isNone_iff_eq_none] at h
    obtain ⟨⟨⟨h1, h2⟩, h3⟩, h4, h5⟩ := h
    simp only [h1, h2, h3, Bool.not_true, if_true, Bool.false_eq_true, if_false]
    have hr : c.run q e.priv s = c.effect q s := by simp [HostCmd.run, h5]
    rcases h4 with hu | ⟨⟨⟨⟨hb, hh⟩, hc⟩, hl⟩, hn⟩
    · simp [hu, hr]
    · cases hu : c.unsequenced
      · simp [sequenced, hb, hh, hc, hr, Nat.not_le.mpr hl, Nat.not_le.mpr hn]
      · simp [hr]

theorem State.core_modCore (s : State) (n : Nat) (f : Core → Core) (p : Core → Word) (h : ∀ k, p (f k) = p k) : p ((s.modCore n f).core n) = p (s.core n) := by
  unfold State.core State.modCore modAt
  simp only [List.getElem?_modify_eq]
  cases s.cores[n]? <;> simp [h]

/-- A command that the pipeline admits passes the checks of every group: field ranges, its own conditions, and the conditions checked last (R322). -/
theorem admits_checks (c : HostCmd) (q : Qcp) (s : State) (h : admits c q s = true) :
    (∀ x ∈ c.range q s, x.2 = true) ∧ (∀ b ∈ c.state q s, b = true) ∧ c.late q s = none := by
  unfold admits at h
  cases he : s.sessions[q.session]? with
  | none => simp [he] at h
  | some e =>
    simp only [he, Bool.and_eq_true, Option.isNone_iff_eq_none] at h
    have hc := h.2.2
    unfold HostCmd.check at hc
    simp only [List.findSome?_cons, List.findSome?_nil, id] at hc
    have h4 : (c.range q s).find? (fun x => !x.2) = none := by
      cases hr : (c.range q s).find? (fun x => !x.2) with
      | none => rfl
      | some x =>
        rw [hr] at hc
        simp only [Option.map_some] at hc
        repeat' split at hc
        all_goals simp_all
    have h6 : (c.state q s).all id = true := by
      cases hs : (c.state q s).all id with
      | true => rfl
      | false =>
        rw [hs] at hc
        simp only [Bool.false_eq_true, if_false] at hc
        repeat' split at hc
        all_goals simp_all
    have h7 : c.late q s = none := by
      cases hl : c.late q s with
      | none => rfl
      | some x =>
        rw [hl] at hc
        repeat' split at hc
        all_goals simp_all
    refine ⟨fun x hx => ?_, fun b hb => ?_, h7⟩
    · have := List.find?_eq_none.mp h4 x hx
      simpa using this
    · exact List.all_eq_true.mp h6 b hb

/-- An instruction row whose instruction is fetched leaves what its effect leaves. -/
theorem runInsn_fetches (want : Nat → Bool) (body : Body) (x : Fetch) (d : Dec) (s : State) (h : fetches x d s = true) (hk : want d.key = true) :
    runInsn want body x s = settle (x.ctx d (s.fetched x d)) (body (x.ctx d (s.fetched x d)) (s.fetched x d)) := by
  simp only [fetches, Bool.and_eq_true, decide_eq_true_eq, Bool.not_eq_true', Option.isNone_iff_eq_none] at h
  obtain ⟨⟨⟨⟨h1, h2⟩, h3⟩, h4⟩, h5⟩ := h
  unfold runInsn
  have hl : (decodeInsn x.core x.bytes).len = d.len := by rw [h3]; rfl
  have hk' : want (decodeInsn x.core x.bytes).key = true := by rw [h3]; exact hk
  have hs : decide (decodeInsn x.core x.bytes = .short) = false := by rw [h3]; rfl
  rw [← hl] at h4 h5
  simp only [h1, h2, hs, hk', Bool.not_true, Bool.or_false, Bool.false_eq_true, if_false]
  rcases hf : fetchJudge s x.core (s.core x.core).pc (decodeInsn x.core x.bytes).len with ⟨v, a⟩
  rw [hf] at h4
  subst h4
  rcases he : s.eccRead x.core ((s.core x.core).pc).toNat (decodeInsn x.core x.bytes).len with ⟨u, o⟩
  rw [he] at h5
  subst h5
  have hp (u : State) : ((u.modCore x.core fun k => { k with ie := k.ie || k.ieNext, ieNext := false, mode := .running }).core x.core).pc = (u.core x.core).pc :=
    State.core_modCore u _ _ (·.pc) fun _ => rfl
  rw [hl] at he
  have hu : s.fetched x d = u.modCore x.core fun k => { k with ie := k.ie || k.ieNext, ieNext := false, mode := .running } := by
    simp only [State.fetched, he]
  simp only [runDecoded, h3, hu, Fetch.ctx, State.after, hp]

theorem insn_fetches (key : Nat) (body : Body) (x : Fetch) (d : Dec) (s : State) (h : fetches x d s = true) (hk : d.key = key) :
    insn key body x s = .next (settle (x.ctx d (s.fetched x d)) (body (x.ctx d (s.fetched x d)) (s.fetched x d))) :=
  congrArg Host.Outcome.next (runInsn_fetches _ _ _ _ _ h (by simp [hk]))

/-- The second state differs from the first in its sessions and its transports alone. -/
def Only (s t : State) : Prop := ∃ ss ts, t = { s with sessions := ss, transports := ts }

theorem Only.refl (s : State) : Only s s := ⟨_, _, rfl⟩

theorem Only.trans {s t u : State} (h : Only s t) (k : Only t u) : Only s u := by
  obtain ⟨a, b, rfl⟩ := h
  obtain ⟨c, d, rfl⟩ := k
  exact ⟨c, d, rfl⟩

theorem State.send_only (s : State) (t : Nat) (x : OutItem) : Only s (s.send t x) := by
  unfold State.send
  split
  · exact ⟨_, _, rfl⟩
  · exact .refl s

theorem State.reply_only (s : State) (q : Qcp) (f : Frame) : Only s (s.reply q f) := State.send_only ..

theorem State.reportLost_only (s : State) (i : Nat) : Only s (s.reportLost i) := by
  unfold State.reportLost
  split
  · split
    · split
      · exact Only.trans ⟨_, _, rfl⟩ (State.send_only ..)
      · exact .refl s
    · exact .refl s
  · exact .refl s

/-- A notice changes sessions and transports alone (R319). -/
theorem State.noticeTo_only (s : State) (i opc : Nat) (f : Bool) (p : List Byte) : Only s (s.noticeTo i opc f p) := by
  unfold State.noticeTo
  refine (State.reportLost_only s i).trans ?_
  dsimp only
  generalize (if f = true then (2 : BitVec 8) else 0) = g
  split
  · split
    · split
      · exact Only.trans ⟨_, _, rfl⟩ (State.send_only ..)
      · exact ⟨_, _, rfl⟩
    · exact .refl _
  · exact .refl _

theorem State.notifyF_only (s : State) (opc : Nat) (f : Bool) (p : List Byte) : Only s (s.notifyF opc f p) := by
  unfold State.notifyF
  induction List.range 16 generalizing s with
  | nil => exact .refl s
  | cons i is ih =>
    refine Only.trans ?_ (ih _)
    dsimp only
    split
    · split
      · exact State.noticeTo_only ..
      · exact .refl s
    · exact .refl s

theorem State.notify_only (s : State) (opc : Nat) (p : List Byte) : Only s (s.notify opc p) := State.notifyF_only ..

/-- A completion changes sessions and transports alone (R317). -/
theorem State.complete_only (s : State) (o : Origin) (stat : Nat) (r : List Byte) : Only s (s.complete o stat r) := by
  unfold State.complete
  exact Only.trans ⟨_, _, rfl⟩ (State.noticeTo_only ..)

/-- What follows a command's effect changes sessions and transports alone. -/
theorem HostCmd.answer_only (c : HostCmd) (q : Qcp) (t : State) (r : Reply) : Only t (c.answer q t r) := by
  unfold HostCmd.answer
  split
  · exact State.reply_only ..
  · exact Only.trans ⟨_, _, rfl⟩ (State.reply_only ..)

end Sys2Proof.Machine
end

