-- ==== Sys2Proof/Laws/Restart.lean ====
section
/-! SUPPORT. What the twelve other commands do to the bundle of `State.keep`: time moves on, the device goes down or starts, or RK1 is programmed. -/

namespace Sys2Proof.Machine
open Sys2Proof

/-- The four counts of time. -/
def State.instant (s : State) : BitVec 64 × Nat × Nat × Nat := s.keep.2.1

/-- The OTP after a programming that may be cut off: some bits of the key are blown, and no marker. -/
def Cut (s t : State) : Prop :=
  (t.nv.rk1 = s.nv.rk1 ∧ t.nv.rk1Open = s.nv.rk1Open ∧ s.tap.prov ≠ 1 ∨ s.tap.prov = 1 ∧ t.nv.rk1Open = true ∧ ∃ m, t.nv.rk1 = s.nv.rk1 ||| (s.tap.key &&& m))
  ∧ t.nv.rk1Done = s.nv.rk1Done ∧ t.nv.rollback = s.nv.rollback ∧ t.nv.epoch = s.nv.epoch ∧ t.pending = s.pending

/-- Down: time is at its reset values, the tap too. -/
def Down (s t : State) : Prop := Cut s t ∧ t.time = TimeBase.reset ∧ t.tap = Tap.reset

theorem Cut.of_keep {s u t : State} (hk : u.keep = s.keep) (h : Cut u t) : Cut s t := by
  simp only [State.keep, Prod.mk.injEq] at hk
  obtain ⟨k1, -, k3, ⟨k4, k5, k6, k7⟩, k8⟩ := hk
  unfold Cut at *
  rw [k1, k3, k4, k5, k6, k7, k8] at h
  exact h

theorem cutProvision_cut (s : State) : Cut s (cutProvision s) := by
  unfold Cut cutProvision
  split
  · rename_i hp
    exact ⟨.inr ⟨hp, rfl, _, rfl⟩, rfl, rfl, rfl, rfl⟩
  · rename_i hp
    exact ⟨.inl ⟨rfl, rfl, hp⟩, rfl, rfl, rfl, rfl⟩

theorem lost_down (s : State) : Down s (lost s) := ⟨cutProvision_cut s, rfl, rfl⟩

theorem goDown_down (ph : Phase) (s u : State) (hk : u.keep = s.keep) : Down s (goDown ph u) :=
  ⟨(show Cut u (goDown ph u) from cutProvision_cut u).of_keep hk, rfl, rfl⟩

theorem Down.setPower {s t : State} {p : Power} (h : Down s t) : Down s { t with power := p } := h

/-- A trip entry changes neither the time nor the tap, and of the MRAM only the tail of the trip log. -/
theorem Down.logTrip {s t : State} (h : Down s t) (kind : Nat) (code : Option Nat) (value : Option Int) : Down s (t.logTrip kind code value) := by
  have ht : (t.logTrip kind code value).time = t.time := by
    unfold State.logTrip
    dsimp only
    (repeat' split) <;> rfl
  have k := State.logTrip_keep t kind code value
  simp only [State.keep, Prod.mk.injEq] at k
  obtain ⟨k1, -, k3, ⟨k4, k5, k6, k7⟩, k8⟩ := k
  unfold Down Cut at *
  rw [k1, k3, k4, k5, k6, k7, k8, ht]
  exact h

/-- A device that falls to PARKED has gone down; the trip entry changes no register of the bundle. -/
theorem fallDown_down (ph : Phase) (cause : Nat) (save : SaveEnd) (s u : State) (hk : (decant cause save u).keep = s.keep) : Down s (fallDown ph cause save u) := by
  unfold fallDown
  dsimp only
  exact (goDown_down ph s _ hk).setPower.logTrip _ _ _

theorem park_down (save : SaveEnd) (s : State) : Down s (park save s) :=
  goDown_down .parked s _ (by simp)

/-- A start of the device: DT at 0 in the next epoch; the tap reports an RK1 left incomplete. -/
def Booted (s t : State) : Prop :=
  t.instant = (0, 0, 0, 0) ∧ t.nv.epoch = nextEpoch s.nv.epoch ∧ t.nv.rk1 = s.nv.rk1 ∧ t.nv.rk1Done = s.nv.rk1Done ∧ t.nv.rk1Open = s.nv.rk1Open
  ∧ t.nv.rollback = s.nv.rollback ∧ t.pending = s.pending ∧ t.tap.prov ≠ 1

theorem restoreRecords_tap (s : State) :
    (restoreRecords s).keep = (s.pending, s.instant, s.nv.epoch, (s.nv.rk1, s.nv.rk1Done, s.nv.rk1Open, s.nv.rollback),
      Tap.mk s.tap.ir (if s.nv.rk1Open && !s.nv.rk1Done then 6 else 0) s.tap.key) := by
  unfold restoreRecords
  extract_lets u1 m u2 u3 tp u4 w v
  have h1 : u1.keep = s.keep := State.modPeriph_keep ..
  have h2 : u2.keep = u1.keep := keep_mk ..
  have h3 : u3.keep = u2.keep := State.modNav_keep ..
  have h : u3.keep = s.keep := h3.trans (h2.trans h1)
  have h4 : u4.keep = (s.pending, s.instant, s.nv.epoch, (s.nv.rk1, s.nv.rk1Done, s.nv.rk1Open, s.nv.rollback),
      Tap.mk s.tap.ir (if s.nv.rk1Open && !s.nv.rk1Done then 6 else 0) s.tap.key) := by
    clear_value u3
    clear h3 h2 h1
    simp only [State.keep, Prod.mk.injEq] at h
    obtain ⟨k1, ⟨k2, k3, k4, k5⟩, k6, ⟨k7, k8, k9, k10⟩, k11⟩ := h
    simp only [u4, tp, State.keep, State.instant, k1, k2, k3, k4, k5, k6, k7, k8, k9, k10, k11]
  have h5 : w.keep = u4.keep := State.logFault_keep ..
  clear_value w
  have h6 : State.keep { w with nv := { u4.nv with marchOpen := none } } = u4.keep := by
    clear h h1 h2 h3 h4
    clear_value u4
    simp only [State.keep, Prod.mk.injEq] at h5 ⊢
    simp [h5]
  split
  · exact Eq.trans (b := u4.keep) h6 h4
  · exact h4

theorem bootDevice_booted (images : List ImageRead) (cause : StartCause) (target : PowerState) (s : State) : Booted s (bootDevice images cause target s) := by
  suffices h : (bootDevice images cause target s).keep = (s.pending, (0, 0, 0, 0), nextEpoch s.nv.epoch, (s.nv.rk1, s.nv.rk1Done, s.nv.rk1Open, s.nv.rollback),
      Tap.mk s.tap.ir (if s.nv.rk1Open && !s.nv.rk1Done then 6 else 0) s.tap.key) by
    simp only [State.keep, Prod.mk.injEq] at h
    obtain ⟨h1, ⟨h2, h3, h4, h5⟩, h6, ⟨h7, h8, h9, h10⟩, h11⟩ := h
    refine ⟨by simp [State.instant, State.keep, h2, h3, h4, h5], h6, h7, h8, h9, h10, h1, ?_⟩
    rw [h11]
    dsimp only
    split <;> decide
  have hr (u : State) : (restoreRecords (restoreSeal (restoreLogs (restoreSessions u)))).keep = (u.pending, u.instant, u.nv.epoch,
      (u.nv.rk1, u.nv.rk1Done, u.nv.rk1Open, u.nv.rollback), Tap.mk u.tap.ir (if u.nv.rk1Open && !u.nv.rk1Done then 6 else 0) u.tap.key) := by
    have hk : (restoreSeal (restoreLogs (restoreSessions u))).keep = u.keep := by simp
    rw [restoreRecords_tap]
    simp only [State.keep, State.instant, Prod.mk.injEq] at hk ⊢
    obtain ⟨h1, ⟨h2, h3, h4, h5⟩, h6, ⟨h7, h8, h9, h10⟩, h11⟩ := hk
    simp [h1, h2, h3, h4, h5, h6, h7, h8, h9, h10, h11]
  have hb (u : State) : (restoreRecords (restoreSeal (restoreLogs (restoreSessions (bootSelector cause u))))).keep = (u.pending, u.instant, u.nv.epoch,
      (u.nv.rk1, u.nv.rk1Done, u.nv.rk1Open, u.nv.rollback), Tap.mk u.tap.ir (if u.nv.rk1Open && !u.nv.rk1Done then 6 else 0) u.tap.key) := by
    have hk : (bootSelector cause u).keep = u.keep := by simp
    rw [hr]
    simp only [State.keep, State.instant, Prod.mk.injEq] at hk ⊢
    obtain ⟨h1, ⟨h2, h3, h4, h5⟩, h6, ⟨h7, h8, h9, h10⟩, h11⟩ := hk
    simp [h1, h2, h3, h4, h5, h6, h7, h8, h9, h10, h11]
  unfold bootDevice
  extract_lets n0 s0 s1 sel valid slot fell code s2 s3 trial img bi
  have h2 : s2.keep = _ := hb s0
  have h3 : s3.keep = s2.keep := logImages_keep ..
  have h4 : s3.keep = (s.pending, (0, 0, 0, 0), nextEpoch s.nv.epoch, (s.nv.rk1, s.nv.rk1Done, s.nv.rk1Open, s.nv.rollback),
      Tap.mk s.tap.ir (if s.nv.rk1Open && !s.nv.rk1Done then 6 else 0) s.tap.key) := h3.trans h2
  have h5 : (s3.openVal 94).1.keep = s3.keep := State.openVal_keep ..
  have h6 := h5.trans h4
  clear hr hb h2 h3 h4 h5
  clear_value trial s3
  rcases hx : s3.openVal 94 with ⟨o, m⟩
  rw [hx] at h6
  refine Eq.trans ?_ h6
  have hs (v : State) : (enterService cause target v).keep = v.keep := enterService_keep ..
  have hf (v : State) (k : Nat) (e f g : Option Nat) : (v.fwEvent k e f g).keep = v.keep := State.fwEvent_keep ..
  dsimp only
  split
  · rw [hf, hf, hs]
    rfl
  · rw [hf, hs]
    rfl

/-- A programming that is cut off changes RK1, its open mark and the counter of free values alone. -/
theorem cutProvision_only (s : State) : ∃ v o n, cutProvision s = { s with nv := { s.nv with rk1 := v, rk1Open := o }, freeCtr := n } := by
  unfold cutProvision
  split
  · unfold State.openVal State.fresh
    dsimp only
    exact ⟨_, _, _, rfl⟩
  · exact ⟨_, _, _, rfl⟩

/-- A programming that is cut off has blown some bits of its key (R502). -/
theorem cutProvision_blows (s : State) (h : s.tap.prov = 1) :
    ∃ m n, cutProvision s = { s with nv := { s.nv with rk1 := s.nv.rk1 ||| (s.tap.key &&& m), rk1Open := true }, freeCtr := n } := by
  unfold cutProvision
  rw [if_pos h]
  unfold State.openVal State.fresh
  dsimp only
  exact ⟨_, _, rfl⟩

theorem State.fwEvent_power (s : State) (k : Nat) (a b c : Option Nat) : (s.fwEvent k a b c).power = s.power := by
  have h (u : State) (o : Nat) (p : List Byte) : (u.notify o p).power = u.power := by
    obtain ⟨a, b, h⟩ := State.notify_only u o p
    rw [h]
  unfold State.fwEvent State.openVal State.fresh
  cases a <;> cases b <;> cases c <;> dsimp only <;> rw [h]

theorem State.holdupEvent_power (s : State) (k : Nat) (a : Option Nat) : (s.holdupEvent k a).power = s.power := by
  have h (u : State) (o : Nat) (p : List Byte) : (u.notify o p).power = u.power := by
    obtain ⟨a, b, h⟩ := State.notify_only u o p
    rw [h]
  unfold State.holdupEvent State.openVal State.fresh
  cases a <;> dsimp only <;> rw [h]

theorem State.logTrip_power (s : State) (k : Nat) (c : Option Nat) (v : Option Int) : (s.logTrip k c v).power = s.power := by
  unfold State.logTrip State.openVal State.fresh
  cases c <;> cases v <;> dsimp only <;> split <;> rfl

theorem State.logFault_power (s : State) (k : Nat) : (s.logFault k).power = s.power := by
  have h (u : State) (o : Nat) (p : List Byte) : (u.notify o p).power = u.power := by
    obtain ⟨a, b, h⟩ := State.notify_only u o p
    rw [h]
  unfold State.logFault State.openVal State.fresh
  dsimp only
  rw [h]

/-- What entering a power state records (R470). -/
theorem enterState_power (st : PowerState) (c : StartCause) (r : Nat) (s : State) :
    (enterState st c r s).power.state = st ∧ (enterState st c r s).power.prev = s.power.state ∧ (enterState st c r s).power.rule = r
    ∧ (enterState st c r s).power.transitions = sat32 (s.power.transitions + 1) ∧ (enterState st c r s).power.lastDt = s.time.dt
    ∧ (enterState st c r s).power.domains = s.power.domains ∧ (enterState st c r s).power.phase = s.power.phase := by
  have h (u : State) (o : Nat) (p : List Byte) : (u.notify o p).power = u.power := by
    obtain ⟨a, b, h⟩ := State.notify_only u o p
    rw [h]
  unfold enterState
  dsimp only
  rw [h]
  split
  · exact ⟨rfl, rfl, rfl, rfl, rfl, rfl, rfl⟩
  · rw [State.logTrip_power]
    exact ⟨rfl, rfl, rfl, rfl, rfl, rfl, rfl⟩

theorem enterService_phase (c : StartCause) (p : PowerState) (s : State) : (enterService c p s).power.phase = .on := by
  unfold enterService
  extract_lets u1 u2 u3 u4 u5
  clear_value u2
  have h3 : u3.power.phase = .on := rfl
  have h4 : u4.power = u3.power := by
    clear_value u3
    simp only [u4]
    split
    · exact State.holdupEvent_power ..
    · split
      · exact State.holdupEvent_power ..
      · rfl
  clear_value u4
  have h := enterState_power (if u4.boot.recovery then .run else p) c u4.power.rule u4
  have h2 := h.2.2.2.2.2.2
  have hu5 : u5 = enterState (if u4.boot.recovery then .run else p) c u4.power.rule u4 := rfl
  clear_value u5
  rw [← hu5] at h2
  have h6 := h2.trans ((congrArg Power.phase h4).trans h3)
  clear h h2 h3 h4 hu5 u4 u3 u2 u1
  exact h6

theorem bootDevice_phase (images : List ImageRead) (c : StartCause) (p : PowerState) (s : State) : (bootDevice images c p s).power.phase = .on := by
  unfold bootDevice
  extract_lets n0 s0 s1 sel valid slot fell code s2 s3 trial img bi
  clear_value s3 trial
  rcases s3.openVal 94 with ⟨o, m⟩
  dsimp only
  split
  · rw [State.fwEvent_power, State.fwEvent_power, enterService_phase]
  · rw [State.fwEvent_power, enterService_phase]

/-- DT moves; the queue, the OTP, the tap and the grid stay, and the epoch only by a carry. -/
theorem State.addDt_moves (u : State) (n : Nat) :
    (u.addDt n).time = { u.time with dt := u.time.dt + BitVec.ofNat 64 n }
    ∧ (u.addDt n).nv = { u.nv with epoch := if 2 ^ 64 ≤ u.time.dt.toNat + n then nextEpoch u.nv.epoch else u.nv.epoch }
    ∧ (u.addDt n).pending = u.pending ∧ (u.addDt n).tap = u.tap := by
  unfold State.addDt
  dsimp only
  split
  · exact ⟨rfl, rfl, rfl, rfl⟩
  · exact ⟨rfl, rfl, rfl, rfl⟩

/-- One tick is `addDt` on the state at the next tick. -/
theorem State.advance_addDt (s : State) :
    s.advance = State.addDt { s with time := { s.time with
      acc := (tickStep s.time.acc).1
      beat := if s.time.tick = 25999 then s.time.beat + 1 else s.time.beat
      tick := if s.time.tick = 25999 then 0 else s.time.tick + 1 } } (tickStep s.time.acc).2 := by
  unfold State.advance
  dsimp only
  split <;> rfl

theorem State.advance_pending (s : State) : s.advance.pending = s.pending := by
  rw [State.advance_addDt, (State.addDt_moves _ _).2.2.1]

theorem State.toNextBeat_pending (s : State) : s.toNextBeat.pending = s.pending := by
  unfold State.toNextBeat
  exact (State.addDt_moves _ _).2.2.1

/-- What a step may do to the bundle. -/
inductive Effect (s t : State) : Prop where
  | same (h : t.keep = s.keep)
  | tick (h : t.keep = s.advance.keep)
  | beat (h : t.keep = s.toNextBeat.keep)
  | down (h : Down s t)
  | booted (h : Booted s t)
  /-- a committed image raises the anti-rollback counter -/
  | commit (n : Nat) (h : t.keep = (s.pending, s.instant, s.nv.epoch, (s.nv.rk1, s.nv.rk1Done, s.nv.rk1Open, max s.nv.rollback n), s.tap))
  /-- the debug port is reset, or takes a key -/
  | port (ir : BitVec 8) (h : t.keep = (s.pending, s.instant, s.nv.epoch, (s.nv.rk1, s.nv.rk1Done, s.nv.rk1Open, s.nv.rollback), { s.tap with ir := ir }))
  | key (p : Nat) (k : BitVec 256) (h : t.keep = (s.pending, s.instant, s.nv.epoch, (s.nv.rk1, s.nv.rk1Done, s.nv.rk1Open, s.nv.rollback), ⟨0xA0, p, k⟩))
      (hp : p = 1 → s.nv.rk1Done = false ∧ (s.nv.rk1Open = true → s.nv.rk1 &&& ~~~k = 0))
  /-- a programming ends -/
  | blown (p : Nat) (h : t.keep = (s.pending, s.instant, s.nv.epoch, (s.tap.key, true, false, s.nv.rollback), { s.tap with prov := p })) (hb : s.tap.prov = 1) (hp : p ≠ 1)
  | cut (h : Cut s t) (hb : t.tap.prov ≠ 1) (hi : t.instant = s.instant)

theorem powerState_effect (q : Qcp) (save : SaveEnd) (s : State) : ∃ t, execPowerState q save s = .next t ∧ Effect s t := by
  have hk : Keeps s (runHost powerStateCmd q s) := runHost_keep _ (by simp) _ _
  unfold execPowerState
  cases hr : runHost powerStateCmd q s with
  | next u =>
    rw [hr] at hk
    by_cases hp : u.power.parking = true
    · exact ⟨_, by dsimp only; rw [if_pos hp], .down ⟨(park_down save u).1.of_keep hk, (park_down save u).2⟩⟩
    · exact ⟨_, by dsimp only; rw [if_neg hp], .same hk⟩
  | fault f => simp [hr, Keeps] at hk
  | refused f => simp [hr, Keeps] at hk

theorem supplySag_effect (save : SaveEnd) (s : State) : ∃ t, execSupplySag save s = .next t ∧ Effect s t := by
  refine ⟨_, rfl, ?_⟩
  split
  · exact .down (fallDown_down _ 1 save s _ (by simp))
  · exact .same rfl
  · exact .same rfl

theorem resetN_effect (save : SaveEnd) (s : State) : ∃ t, execResetN save s = .next t ∧ Effect s t := by
  refine ⟨_, rfl, ?_⟩
  split
  · exact .down (fallDown_down _ 2 save s _ (by simp))
  · exact .same rfl
  · exact .same (captureRef_keep s)
  · exact .same rfl

theorem refinLoss_effect (save : SaveEnd) (s : State) : ∃ t, execRefinLoss save s = .next t ∧ Effect s t := by
  refine ⟨_, rfl, ?_⟩
  split
  · exact .down (fallDown_down _ 3 save s _ (by simp))
  · exact .same rfl
  · exact .same rfl

theorem watchdogReset_effect (save : SaveEnd) (s : State) : ∃ t, execWatchdogReset save s = .next t ∧ Effect s t := by
  refine ⟨_, rfl, ?_⟩
  split
  · exact .same rfl
  · split
    · split
      · refine .down (fallDown_down _ 2 save s _ ?_)
        split <;> simp
      · exact .same rfl
    · exact .down (fallDown_down _ 2 save s _ (by simp))

theorem boot_effect (images : List ImageRead) (s : State) : ∃ t, execBoot images s = .next t ∧ Effect s t := by
  refine ⟨_, rfl, ?_⟩
  split
  · exact .booted (bootDevice_booted ..)
  · exact .same rfl

theorem dtWrap_effect (s : State) : ∃ t, execDtWrap s = .next t ∧ Effect s t := by
  unfold execDtWrap
  split
  · exact ⟨_, rfl, .tick rfl⟩
  · exact ⟨_, rfl, .same rfl⟩

theorem beatBoundary_effect (inputs : List InputBeat) (short : List (Nat × Nat)) (s : State) : ∃ t, execBeatBoundary inputs short s = .next t ∧ Effect s t := by
  refine ⟨_, rfl, ?_⟩
  split
  · exact .same rfl
  · refine .beat ?_
    dsimp only
    split
    · rw [boundaryActions_keep, ticksPass_keep]
    · rw [ticksPass_keep]

theorem tapReset_effect (s : State) : ∃ t, execTapReset s = .next t ∧ Effect s t := by
  refine ⟨_, rfl, ?_⟩
  split
  · exact .port 0xFF rfl
  · exact .same rfl

theorem provisionUpdate_effect (key : BitVec 256) (check : Word) (s : State) : ∃ t, execProvisionUpdate key check s = .next t ∧ Effect s t := by
  refine ⟨_, rfl, ?_⟩
  split
  · exact .same rfl
  · refine .key (provisionState key check s) _ rfl fun hp => ?_
    rw [if_pos hp]
    unfold provisionState at hp
    split at hp
    · cases hp
    split at hp
    · cases hp
    split at hp
    · cases hp
    split at hp
    · cases hp
    rename_i h2 _ h4
    exact ⟨by simpa using h2, fun ho => by simpa [ho] using h4⟩

theorem provisionDone_effect (blown : Bool) (s : State) : ∃ t, execProvisionDone blown s = .next t ∧ Effect s t := by
  refine ⟨_, rfl, ?_⟩
  split
  · exact .same rfl
  · rename_i h
    have hp : s.tap.prov = 1 := by
      have : s.on 2 = true ∧ s.tap.prov = 1 := by simpa using h
      exact this.2
    split
    · exact .blown 2 rfl hp (by decide)
    · refine .cut (cutProvision_cut s) (show (6 : Nat) ≠ 1 by decide) ?_
      unfold cutProvision
      rw [if_pos hp]
      rfl

/-- The pipeline keeps the bundle but for what the command's own run does to it. -/
theorem processFrame_run (opc priv : Nat) (un : Bool) (run : Nat → State → State × Reply) (q : Qcp) (s : State) :
    (processFrame opc priv un run q s).keep = s.keep ∨ ∃ held, (processFrame opc priv un run q s).keep = (run held s).1.keep := by
  unfold processFrame sequenced
  dsimp only
  (repeat' split) <;> first
    | exact .inl rfl
    | exact .inl (State.reply_keep ..)
    | exact .inr ⟨_, State.reply_keep ..⟩
    | exact .inr ⟨_, (State.reply_keep ..).trans rfl⟩

theorem fwActivateCmd_commit (q : Qcp) (s : State) : (fwActivateCmd.effect q s).1.keep = s.keep ∨ (fwActivateCmd.effect q s).1.keep
    = (s.pending, s.instant, s.nv.epoch, (s.nv.rk1, s.nv.rk1Done, s.nv.rk1Open, max s.nv.rollback s.boot.level), s.tap) := by
  unfold fwActivateCmd
  dsimp only
  split
  · exact .inl rfl
  · refine .inr ?_
    rw [State.fwEvent_keep, State.modBoot_keep]
    rfl

theorem fwActivate_effect (q : Qcp) (s : State) : ∃ t, execFwActivate q s = .next t ∧ Effect s t := by
  refine ⟨_, rfl, ?_⟩
  have hp := processFrame_run fwActivateCmd.opcode fwActivateCmd.priv fwActivateCmd.unsequenced (fun held s => fwActivateCmd.run q held s) q s
  have hc := fwActivateCmd_commit q s
  generalize processFrame fwActivateCmd.opcode fwActivateCmd.priv fwActivateCmd.unsequenced (fun held s => fwActivateCmd.run q held s) q s = t at hp ⊢
  rcases hp with h | ⟨held, h⟩
  · exact .same h
  · unfold HostCmd.run at h
    split at h
    · exact .same h
    · rcases hc with hc | hc
      · exact .same (h.trans hc)
      · exact .commit _ (h.trans hc)

/-- Every command answers a next state, with one of these effects. -/
theorem exec_effect (i : Instr) (s : State) : ∃ t, exec i s = .next t ∧ Effect s t := by
  by_cases h : plain i
  · have hk := exec_keep i s h
    cases he : exec i s with
    | next t => exact ⟨t, rfl, .same (by rw [he] at hk; exact hk)⟩
    | fault f => simp [he, Keeps] at hk
    | refused f => simp [he, Keeps] at hk
  · cases i with
    | powerState q save => exact powerState_effect q save s
    | supplySag save => exact supplySag_effect save s
    | resetN save => exact resetN_effect save s
    | refinLoss save => exact refinLoss_effect save s
    | watchdogReset save => exact watchdogReset_effect save s
    | boot images => exact boot_effect images s
    | dtWrap => exact dtWrap_effect s
    | beatBoundary inputs short => exact beatBoundary_effect inputs short s
    | tapReset => exact tapReset_effect s
    | provisionUpdate key check => exact provisionUpdate_effect key check s
    | provisionDone blown => exact provisionDone_effect blown s
    | fwActivate q => exact fwActivate_effect q s
    | _ => exact absurd trivial h

/-- An idle step. -/
theorem idleTick_effect (s : State) : Effect s (idleTick s) := by
  unfold idleTick
  split
  · exact .tick (ticksPass_keep ..)
  · exact .same (drains_keep s)

end Sys2Proof.Machine
end

