-- ==== Sys2Proof/Laws/State.lean ====
section
/-! SUPPORT. What each named update of `State` leaves in each field: one lemma per field and update, so that no later proof unfolds a record update. -/

namespace Sys2Proof.Machine
open Sys2Proof

variable (s : State) (i : Nat)

@[simp] theorem State.modPower_pending (f : Power → Power) : (s.modPower f).pending = s.pending := rfl
@[simp] theorem State.modPower_nv (f : Power → Power) : (s.modPower f).nv = s.nv := rfl
@[simp] theorem State.modPower_time (f : Power → Power) : (s.modPower f).time = s.time := rfl
@[simp] theorem State.modPower_overruns (f : Power → Power) : (s.modPower f).overruns = s.overruns := rfl
@[simp] theorem State.modPower_sessions (f : Power → Power) : (s.modPower f).sessions = s.sessions := rfl
@[simp] theorem State.modPower_transports (f : Power → Power) : (s.modPower f).transports = s.transports := rfl
@[simp] theorem State.modPower_power (f : Power → Power) : (s.modPower f).power = f s.power := rfl
@[simp] theorem State.modPower_holdup (f : Power → Power) : (s.modPower f).holdup = s.holdup := rfl
@[simp] theorem State.modPower_perc (f : Power → Power) : (s.modPower f).perc = s.perc := rfl
@[simp] theorem State.modPower_boot (f : Power → Power) : (s.modPower f).boot = s.boot := rfl
@[simp] theorem State.modPower_tap (f : Power → Power) : (s.modPower f).tap = s.tap := rfl
@[simp] theorem State.modPower_tripLog (f : Power → Power) : (s.modPower f).tripLog = s.tripLog := rfl
@[simp] theorem State.modPower_faultLog (f : Power → Power) : (s.modPower f).faultLog = s.faultLog := rfl
@[simp] theorem State.modPower_mem (f : Power → Power) : (s.modPower f).mem = s.mem := rfl
@[simp] theorem State.modPower_cores (f : Power → Power) : (s.modPower f).cores = s.cores := rfl
@[simp] theorem State.modPower_uc (f : Power → Power) : (s.modPower f).uc = s.uc := rfl
@[simp] theorem State.modPower_cipher (f : Power → Power) : (s.modPower f).cipher = s.cipher := rfl
@[simp] theorem State.modPower_sealing (f : Power → Power) : (s.modPower f).sealing = s.sealing := rfl
@[simp] theorem State.modPower_periph (f : Power → Power) : (s.modPower f).periph = s.periph := rfl
@[simp] theorem State.modPower_inputs (f : Power → Power) : (s.modPower f).inputs = s.inputs := rfl
@[simp] theorem State.modPower_subbands (f : Power → Power) : (s.modPower f).subbands = s.subbands := rfl
@[simp] theorem State.modPower_grinder (f : Power → Power) : (s.modPower f).grinder = s.grinder := rfl
@[simp] theorem State.modPower_fabric (f : Power → Power) : (s.modPower f).fabric = s.fabric := rfl
@[simp] theorem State.modPower_tracking (f : Power → Power) : (s.modPower f).tracking = s.tracking := rfl
@[simp] theorem State.modPower_carafe (f : Power → Power) : (s.modPower f).carafe = s.carafe := rfl
@[simp] theorem State.modPower_timeSys (f : Power → Power) : (s.modPower f).timeSys = s.timeSys := rfl
@[simp] theorem State.modPower_nav (f : Power → Power) : (s.modPower f).nav = s.nav := rfl
@[simp] theorem State.modPower_corr (f : Power → Power) : (s.modPower f).corr = s.corr := rfl
@[simp] theorem State.modPower_eth (f : Power → Power) : (s.modPower f).eth = s.eth := rfl
@[simp] theorem State.modPower_freeCtr (f : Power → Power) : (s.modPower f).freeCtr = s.freeCtr := rfl

@[simp] theorem State.modHoldup_pending (f : Holdup → Holdup) : (s.modHoldup f).pending = s.pending := rfl
@[simp] theorem State.modHoldup_nv (f : Holdup → Holdup) : (s.modHoldup f).nv = s.nv := rfl
@[simp] theorem State.modHoldup_time (f : Holdup → Holdup) : (s.modHoldup f).time = s.time := rfl
@[simp] theorem State.modHoldup_overruns (f : Holdup → Holdup) : (s.modHoldup f).overruns = s.overruns := rfl
@[simp] theorem State.modHoldup_sessions (f : Holdup → Holdup) : (s.modHoldup f).sessions = s.sessions := rfl
@[simp] theorem State.modHoldup_transports (f : Holdup → Holdup) : (s.modHoldup f).transports = s.transports := rfl
@[simp] theorem State.modHoldup_power (f : Holdup → Holdup) : (s.modHoldup f).power = s.power := rfl
@[simp] theorem State.modHoldup_holdup (f : Holdup → Holdup) : (s.modHoldup f).holdup = f s.holdup := rfl
@[simp] theorem State.modHoldup_perc (f : Holdup → Holdup) : (s.modHoldup f).perc = s.perc := rfl
@[simp] theorem State.modHoldup_boot (f : Holdup → Holdup) : (s.modHoldup f).boot = s.boot := rfl
@[simp] theorem State.modHoldup_tap (f : Holdup → Holdup) : (s.modHoldup f).tap = s.tap := rfl
@[simp] theorem State.modHoldup_tripLog (f : Holdup → Holdup) : (s.modHoldup f).tripLog = s.tripLog := rfl
@[simp] theorem State.modHoldup_faultLog (f : Holdup → Holdup) : (s.modHoldup f).faultLog = s.faultLog := rfl
@[simp] theorem State.modHoldup_mem (f : Holdup → Holdup) : (s.modHoldup f).mem = s.mem := rfl
@[simp] theorem State.modHoldup_cores (f : Holdup → Holdup) : (s.modHoldup f).cores = s.cores := rfl
@[simp] theorem State.modHoldup_uc (f : Holdup → Holdup) : (s.modHoldup f).uc = s.uc := rfl
@[simp] theorem State.modHoldup_cipher (f : Holdup → Holdup) : (s.modHoldup f).cipher = s.cipher := rfl
@[simp] theorem State.modHoldup_sealing (f : Holdup → Holdup) : (s.modHoldup f).sealing = s.sealing := rfl
@[simp] theorem State.modHoldup_periph (f : Holdup → Holdup) : (s.modHoldup f).periph = s.periph := rfl
@[simp] theorem State.modHoldup_inputs (f : Holdup → Holdup) : (s.modHoldup f).inputs = s.inputs := rfl
@[simp] theorem State.modHoldup_subbands (f : Holdup → Holdup) : (s.modHoldup f).subbands = s.subbands := rfl
@[simp] theorem State.modHoldup_grinder (f : Holdup → Holdup) : (s.modHoldup f).grinder = s.grinder := rfl
@[simp] theorem State.modHoldup_fabric (f : Holdup → Holdup) : (s.modHoldup f).fabric = s.fabric := rfl
@[simp] theorem State.modHoldup_tracking (f : Holdup → Holdup) : (s.modHoldup f).tracking = s.tracking := rfl
@[simp] theorem State.modHoldup_carafe (f : Holdup → Holdup) : (s.modHoldup f).carafe = s.carafe := rfl
@[simp] theorem State.modHoldup_timeSys (f : Holdup → Holdup) : (s.modHoldup f).timeSys = s.timeSys := rfl
@[simp] theorem State.modHoldup_nav (f : Holdup → Holdup) : (s.modHoldup f).nav = s.nav := rfl
@[simp] theorem State.modHoldup_corr (f : Holdup → Holdup) : (s.modHoldup f).corr = s.corr := rfl
@[simp] theorem State.modHoldup_eth (f : Holdup → Holdup) : (s.modHoldup f).eth = s.eth := rfl
@[simp] theorem State.modHoldup_freeCtr (f : Holdup → Holdup) : (s.modHoldup f).freeCtr = s.freeCtr := rfl

@[simp] theorem State.modPerc_pending (f : Perc → Perc) : (s.modPerc f).pending = s.pending := rfl
@[simp] theorem State.modPerc_nv (f : Perc → Perc) : (s.modPerc f).nv = s.nv := rfl
@[simp] theorem State.modPerc_time (f : Perc → Perc) : (s.modPerc f).time = s.time := rfl
@[simp] theorem State.modPerc_overruns (f : Perc → Perc) : (s.modPerc f).overruns = s.overruns := rfl
@[simp] theorem State.modPerc_sessions (f : Perc → Perc) : (s.modPerc f).sessions = s.sessions := rfl
@[simp] theorem State.modPerc_transports (f : Perc → Perc) : (s.modPerc f).transports = s.transports := rfl
@[simp] theorem State.modPerc_power (f : Perc → Perc) : (s.modPerc f).power = s.power := rfl
@[simp] theorem State.modPerc_holdup (f : Perc → Perc) : (s.modPerc f).holdup = s.holdup := rfl
@[simp] theorem State.modPerc_perc (f : Perc → Perc) : (s.modPerc f).perc = f s.perc := rfl
@[simp] theorem State.modPerc_boot (f : Perc → Perc) : (s.modPerc f).boot = s.boot := rfl
@[simp] theorem State.modPerc_tap (f : Perc → Perc) : (s.modPerc f).tap = s.tap := rfl
@[simp] theorem State.modPerc_tripLog (f : Perc → Perc) : (s.modPerc f).tripLog = s.tripLog := rfl
@[simp] theorem State.modPerc_faultLog (f : Perc → Perc) : (s.modPerc f).faultLog = s.faultLog := rfl
@[simp] theorem State.modPerc_mem (f : Perc → Perc) : (s.modPerc f).mem = s.mem := rfl
@[simp] theorem State.modPerc_cores (f : Perc → Perc) : (s.modPerc f).cores = s.cores := rfl
@[simp] theorem State.modPerc_uc (f : Perc → Perc) : (s.modPerc f).uc = s.uc := rfl
@[simp] theorem State.modPerc_cipher (f : Perc → Perc) : (s.modPerc f).cipher = s.cipher := rfl
@[simp] theorem State.modPerc_sealing (f : Perc → Perc) : (s.modPerc f).sealing = s.sealing := rfl
@[simp] theorem State.modPerc_periph (f : Perc → Perc) : (s.modPerc f).periph = s.periph := rfl
@[simp] theorem State.modPerc_inputs (f : Perc → Perc) : (s.modPerc f).inputs = s.inputs := rfl
@[simp] theorem State.modPerc_subbands (f : Perc → Perc) : (s.modPerc f).subbands = s.subbands := rfl
@[simp] theorem State.modPerc_grinder (f : Perc → Perc) : (s.modPerc f).grinder = s.grinder := rfl
@[simp] theorem State.modPerc_fabric (f : Perc → Perc) : (s.modPerc f).fabric = s.fabric := rfl
@[simp] theorem State.modPerc_tracking (f : Perc → Perc) : (s.modPerc f).tracking = s.tracking := rfl
@[simp] theorem State.modPerc_carafe (f : Perc → Perc) : (s.modPerc f).carafe = s.carafe := rfl
@[simp] theorem State.modPerc_timeSys (f : Perc → Perc) : (s.modPerc f).timeSys = s.timeSys := rfl
@[simp] theorem State.modPerc_nav (f : Perc → Perc) : (s.modPerc f).nav = s.nav := rfl
@[simp] theorem State.modPerc_corr (f : Perc → Perc) : (s.modPerc f).corr = s.corr := rfl
@[simp] theorem State.modPerc_eth (f : Perc → Perc) : (s.modPerc f).eth = s.eth := rfl
@[simp] theorem State.modPerc_freeCtr (f : Perc → Perc) : (s.modPerc f).freeCtr = s.freeCtr := rfl

@[simp] theorem State.modBoot_pending (f : BootInfo → BootInfo) : (s.modBoot f).pending = s.pending := rfl
@[simp] theorem State.modBoot_nv (f : BootInfo → BootInfo) : (s.modBoot f).nv = s.nv := rfl
@[simp] theorem State.modBoot_time (f : BootInfo → BootInfo) : (s.modBoot f).time = s.time := rfl
@[simp] theorem State.modBoot_overruns (f : BootInfo → BootInfo) : (s.modBoot f).overruns = s.overruns := rfl
@[simp] theorem State.modBoot_sessions (f : BootInfo → BootInfo) : (s.modBoot f).sessions = s.sessions := rfl
@[simp] theorem State.modBoot_transports (f : BootInfo → BootInfo) : (s.modBoot f).transports = s.transports := rfl
@[simp] theorem State.modBoot_power (f : BootInfo → BootInfo) : (s.modBoot f).power = s.power := rfl
@[simp] theorem State.modBoot_holdup (f : BootInfo → BootInfo) : (s.modBoot f).holdup = s.holdup := rfl
@[simp] theorem State.modBoot_perc (f : BootInfo → BootInfo) : (s.modBoot f).perc = s.perc := rfl
@[simp] theorem State.modBoot_boot (f : BootInfo → BootInfo) : (s.modBoot f).boot = f s.boot := rfl
@[simp] theorem State.modBoot_tap (f : BootInfo → BootInfo) : (s.modBoot f).tap = s.tap := rfl
@[simp] theorem State.modBoot_tripLog (f : BootInfo → BootInfo) : (s.modBoot f).tripLog = s.tripLog := rfl
@[simp] theorem State.modBoot_faultLog (f : BootInfo → BootInfo) : (s.modBoot f).faultLog = s.faultLog := rfl
@[simp] theorem State.modBoot_mem (f : BootInfo → BootInfo) : (s.modBoot f).mem = s.mem := rfl
@[simp] theorem State.modBoot_cores (f : BootInfo → BootInfo) : (s.modBoot f).cores = s.cores := rfl
@[simp] theorem State.modBoot_uc (f : BootInfo → BootInfo) : (s.modBoot f).uc = s.uc := rfl
@[simp] theorem State.modBoot_cipher (f : BootInfo → BootInfo) : (s.modBoot f).cipher = s.cipher := rfl
@[simp] theorem State.modBoot_sealing (f : BootInfo → BootInfo) : (s.modBoot f).sealing = s.sealing := rfl
@[simp] theorem State.modBoot_periph (f : BootInfo → BootInfo) : (s.modBoot f).periph = s.periph := rfl
@[simp] theorem State.modBoot_inputs (f : BootInfo → BootInfo) : (s.modBoot f).inputs = s.inputs := rfl
@[simp] theorem State.modBoot_subbands (f : BootInfo → BootInfo) : (s.modBoot f).subbands = s.subbands := rfl
@[simp] theorem State.modBoot_grinder (f : BootInfo → BootInfo) : (s.modBoot f).grinder = s.grinder := rfl
@[simp] theorem State.modBoot_fabric (f : BootInfo → BootInfo) : (s.modBoot f).fabric = s.fabric := rfl
@[simp] theorem State.modBoot_tracking (f : BootInfo → BootInfo) : (s.modBoot f).tracking = s.tracking := rfl
@[simp] theorem State.modBoot_carafe (f : BootInfo → BootInfo) : (s.modBoot f).carafe = s.carafe := rfl
@[simp] theorem State.modBoot_timeSys (f : BootInfo → BootInfo) : (s.modBoot f).timeSys = s.timeSys := rfl
@[simp] theorem State.modBoot_nav (f : BootInfo → BootInfo) : (s.modBoot f).nav = s.nav := rfl
@[simp] theorem State.modBoot_corr (f : BootInfo → BootInfo) : (s.modBoot f).corr = s.corr := rfl
@[simp] theorem State.modBoot_eth (f : BootInfo → BootInfo) : (s.modBoot f).eth = s.eth := rfl
@[simp] theorem State.modBoot_freeCtr (f : BootInfo → BootInfo) : (s.modBoot f).freeCtr = s.freeCtr := rfl

@[simp] theorem State.modTap_pending (f : Tap → Tap) : (s.modTap f).pending = s.pending := rfl
@[simp] theorem State.modTap_nv (f : Tap → Tap) : (s.modTap f).nv = s.nv := rfl
@[simp] theorem State.modTap_time (f : Tap → Tap) : (s.modTap f).time = s.time := rfl
@[simp] theorem State.modTap_overruns (f : Tap → Tap) : (s.modTap f).overruns = s.overruns := rfl
@[simp] theorem State.modTap_sessions (f : Tap → Tap) : (s.modTap f).sessions = s.sessions := rfl
@[simp] theorem State.modTap_transports (f : Tap → Tap) : (s.modTap f).transports = s.transports := rfl
@[simp] theorem State.modTap_power (f : Tap → Tap) : (s.modTap f).power = s.power := rfl
@[simp] theorem State.modTap_holdup (f : Tap → Tap) : (s.modTap f).holdup = s.holdup := rfl
@[simp] theorem State.modTap_perc (f : Tap → Tap) : (s.modTap f).perc = s.perc := rfl
@[simp] theorem State.modTap_boot (f : Tap → Tap) : (s.modTap f).boot = s.boot := rfl
@[simp] theorem State.modTap_tap (f : Tap → Tap) : (s.modTap f).tap = f s.tap := rfl
@[simp] theorem State.modTap_tripLog (f : Tap → Tap) : (s.modTap f).tripLog = s.tripLog := rfl
@[simp] theorem State.modTap_faultLog (f : Tap → Tap) : (s.modTap f).faultLog = s.faultLog := rfl
@[simp] theorem State.modTap_mem (f : Tap → Tap) : (s.modTap f).mem = s.mem := rfl
@[simp] theorem State.modTap_cores (f : Tap → Tap) : (s.modTap f).cores = s.cores := rfl
@[simp] theorem State.modTap_uc (f : Tap → Tap) : (s.modTap f).uc = s.uc := rfl
@[simp] theorem State.modTap_cipher (f : Tap → Tap) : (s.modTap f).cipher = s.cipher := rfl
@[simp] theorem State.modTap_sealing (f : Tap → Tap) : (s.modTap f).sealing = s.sealing := rfl
@[simp] theorem State.modTap_periph (f : Tap → Tap) : (s.modTap f).periph = s.periph := rfl
@[simp] theorem State.modTap_inputs (f : Tap → Tap) : (s.modTap f).inputs = s.inputs := rfl
@[simp] theorem State.modTap_subbands (f : Tap → Tap) : (s.modTap f).subbands = s.subbands := rfl
@[simp] theorem State.modTap_grinder (f : Tap → Tap) : (s.modTap f).grinder = s.grinder := rfl
@[simp] theorem State.modTap_fabric (f : Tap → Tap) : (s.modTap f).fabric = s.fabric := rfl
@[simp] theorem State.modTap_tracking (f : Tap → Tap) : (s.modTap f).tracking = s.tracking := rfl
@[simp] theorem State.modTap_carafe (f : Tap → Tap) : (s.modTap f).carafe = s.carafe := rfl
@[simp] theorem State.modTap_timeSys (f : Tap → Tap) : (s.modTap f).timeSys = s.timeSys := rfl
@[simp] theorem State.modTap_nav (f : Tap → Tap) : (s.modTap f).nav = s.nav := rfl
@[simp] theorem State.modTap_corr (f : Tap → Tap) : (s.modTap f).corr = s.corr := rfl
@[simp] theorem State.modTap_eth (f : Tap → Tap) : (s.modTap f).eth = s.eth := rfl
@[simp] theorem State.modTap_freeCtr (f : Tap → Tap) : (s.modTap f).freeCtr = s.freeCtr := rfl

@[simp] theorem State.modSession_pending (f : Session → Session) : (s.modSession i f).pending = s.pending := rfl
@[simp] theorem State.modSession_nv (f : Session → Session) : (s.modSession i f).nv = s.nv := rfl
@[simp] theorem State.modSession_time (f : Session → Session) : (s.modSession i f).time = s.time := rfl
@[simp] theorem State.modSession_overruns (f : Session → Session) : (s.modSession i f).overruns = s.overruns := rfl
@[simp] theorem State.modSession_sessions (f : Session → Session) : (s.modSession i f).sessions = modAt s.sessions i f := rfl
@[simp] theorem State.modSession_transports (f : Session → Session) : (s.modSession i f).transports = s.transports := rfl
@[simp] theorem State.modSession_power (f : Session → Session) : (s.modSession i f).power = s.power := rfl
@[simp] theorem State.modSession_holdup (f : Session → Session) : (s.modSession i f).holdup = s.holdup := rfl
@[simp] theorem State.modSession_perc (f : Session → Session) : (s.modSession i f).perc = s.perc := rfl
@[simp] theorem State.modSession_boot (f : Session → Session) : (s.modSession i f).boot = s.boot := rfl
@[simp] theorem State.modSession_tap (f : Session → Session) : (s.modSession i f).tap = s.tap := rfl
@[simp] theorem State.modSession_tripLog (f : Session → Session) : (s.modSession i f).tripLog = s.tripLog := rfl
@[simp] theorem State.modSession_faultLog (f : Session → Session) : (s.modSession i f).faultLog = s.faultLog := rfl
@[simp] theorem State.modSession_mem (f : Session → Session) : (s.modSession i f).mem = s.mem := rfl
@[simp] theorem State.modSession_cores (f : Session → Session) : (s.modSession i f).cores = s.cores := rfl
@[simp] theorem State.modSession_uc (f : Session → Session) : (s.modSession i f).uc = s.uc := rfl
@[simp] theorem State.modSession_cipher (f : Session → Session) : (s.modSession i f).cipher = s.cipher := rfl
@[simp] theorem State.modSession_sealing (f : Session → Session) : (s.modSession i f).sealing = s.sealing := rfl
@[simp] theorem State.modSession_periph (f : Session → Session) : (s.modSession i f).periph = s.periph := rfl
@[simp] theorem State.modSession_inputs (f : Session → Session) : (s.modSession i f).inputs = s.inputs := rfl
@[simp] theorem State.modSession_subbands (f : Session → Session) : (s.modSession i f).subbands = s.subbands := rfl
@[simp] theorem State.modSession_grinder (f : Session → Session) : (s.modSession i f).grinder = s.grinder := rfl
@[simp] theorem State.modSession_fabric (f : Session → Session) : (s.modSession i f).fabric = s.fabric := rfl
@[simp] theorem State.modSession_tracking (f : Session → Session) : (s.modSession i f).tracking = s.tracking := rfl
@[simp] theorem State.modSession_carafe (f : Session → Session) : (s.modSession i f).carafe = s.carafe := rfl
@[simp] theorem State.modSession_timeSys (f : Session → Session) : (s.modSession i f).timeSys = s.timeSys := rfl
@[simp] theorem State.modSession_nav (f : Session → Session) : (s.modSession i f).nav = s.nav := rfl
@[simp] theorem State.modSession_corr (f : Session → Session) : (s.modSession i f).corr = s.corr := rfl
@[simp] theorem State.modSession_eth (f : Session → Session) : (s.modSession i f).eth = s.eth := rfl
@[simp] theorem State.modSession_freeCtr (f : Session → Session) : (s.modSession i f).freeCtr = s.freeCtr := rfl

@[simp] theorem State.modBank_pending (f : Bank → Bank) : (s.modBank i f).pending = s.pending := rfl
@[simp] theorem State.modBank_nv (f : Bank → Bank) : (s.modBank i f).nv = s.nv := rfl
@[simp] theorem State.modBank_time (f : Bank → Bank) : (s.modBank i f).time = s.time := rfl
@[simp] theorem State.modBank_overruns (f : Bank → Bank) : (s.modBank i f).overruns = s.overruns := rfl
@[simp] theorem State.modBank_sessions (f : Bank → Bank) : (s.modBank i f).sessions = s.sessions := rfl
@[simp] theorem State.modBank_transports (f : Bank → Bank) : (s.modBank i f).transports = s.transports := rfl
@[simp] theorem State.modBank_power (f : Bank → Bank) : (s.modBank i f).power = s.power := rfl
@[simp] theorem State.modBank_holdup (f : Bank → Bank) : (s.modBank i f).holdup = s.holdup := rfl
@[simp] theorem State.modBank_perc (f : Bank → Bank) : (s.modBank i f).perc = s.perc := rfl
@[simp] theorem State.modBank_boot (f : Bank → Bank) : (s.modBank i f).boot = s.boot := rfl
@[simp] theorem State.modBank_tap (f : Bank → Bank) : (s.modBank i f).tap = s.tap := rfl
@[simp] theorem State.modBank_tripLog (f : Bank → Bank) : (s.modBank i f).tripLog = s.tripLog := rfl
@[simp] theorem State.modBank_faultLog (f : Bank → Bank) : (s.modBank i f).faultLog = s.faultLog := rfl
@[simp] theorem State.modBank_mem (f : Bank → Bank) : (s.modBank i f).mem = s.mem.modBank i f := rfl
@[simp] theorem State.modBank_cores (f : Bank → Bank) : (s.modBank i f).cores = s.cores := rfl
@[simp] theorem State.modBank_uc (f : Bank → Bank) : (s.modBank i f).uc = s.uc := rfl
@[simp] theorem State.modBank_cipher (f : Bank → Bank) : (s.modBank i f).cipher = s.cipher := rfl
@[simp] theorem State.modBank_sealing (f : Bank → Bank) : (s.modBank i f).sealing = s.sealing := rfl
@[simp] theorem State.modBank_periph (f : Bank → Bank) : (s.modBank i f).periph = s.periph := rfl
@[simp] theorem State.modBank_inputs (f : Bank → Bank) : (s.modBank i f).inputs = s.inputs := rfl
@[simp] theorem State.modBank_subbands (f : Bank → Bank) : (s.modBank i f).subbands = s.subbands := rfl
@[simp] theorem State.modBank_grinder (f : Bank → Bank) : (s.modBank i f).grinder = s.grinder := rfl
@[simp] theorem State.modBank_fabric (f : Bank → Bank) : (s.modBank i f).fabric = s.fabric := rfl
@[simp] theorem State.modBank_tracking (f : Bank → Bank) : (s.modBank i f).tracking = s.tracking := rfl
@[simp] theorem State.modBank_carafe (f : Bank → Bank) : (s.modBank i f).carafe = s.carafe := rfl
@[simp] theorem State.modBank_timeSys (f : Bank → Bank) : (s.modBank i f).timeSys = s.timeSys := rfl
@[simp] theorem State.modBank_nav (f : Bank → Bank) : (s.modBank i f).nav = s.nav := rfl
@[simp] theorem State.modBank_corr (f : Bank → Bank) : (s.modBank i f).corr = s.corr := rfl
@[simp] theorem State.modBank_eth (f : Bank → Bank) : (s.modBank i f).eth = s.eth := rfl
@[simp] theorem State.modBank_freeCtr (f : Bank → Bank) : (s.modBank i f).freeCtr = s.freeCtr := rfl

@[simp] theorem State.modDma_pending (f : DmaChan → DmaChan) : (s.modDma i f).pending = s.pending := rfl
@[simp] theorem State.modDma_nv (f : DmaChan → DmaChan) : (s.modDma i f).nv = s.nv := rfl
@[simp] theorem State.modDma_time (f : DmaChan → DmaChan) : (s.modDma i f).time = s.time := rfl
@[simp] theorem State.modDma_overruns (f : DmaChan → DmaChan) : (s.modDma i f).overruns = s.overruns := rfl
@[simp] theorem State.modDma_sessions (f : DmaChan → DmaChan) : (s.modDma i f).sessions = s.sessions := rfl
@[simp] theorem State.modDma_transports (f : DmaChan → DmaChan) : (s.modDma i f).transports = s.transports := rfl
@[simp] theorem State.modDma_power (f : DmaChan → DmaChan) : (s.modDma i f).power = s.power := rfl
@[simp] theorem State.modDma_holdup (f : DmaChan → DmaChan) : (s.modDma i f).holdup = s.holdup := rfl
@[simp] theorem State.modDma_perc (f : DmaChan → DmaChan) : (s.modDma i f).perc = s.perc := rfl
@[simp] theorem State.modDma_boot (f : DmaChan → DmaChan) : (s.modDma i f).boot = s.boot := rfl
@[simp] theorem State.modDma_tap (f : DmaChan → DmaChan) : (s.modDma i f).tap = s.tap := rfl
@[simp] theorem State.modDma_tripLog (f : DmaChan → DmaChan) : (s.modDma i f).tripLog = s.tripLog := rfl
@[simp] theorem State.modDma_faultLog (f : DmaChan → DmaChan) : (s.modDma i f).faultLog = s.faultLog := rfl
@[simp] theorem State.modDma_mem (f : DmaChan → DmaChan) : (s.modDma i f).mem = { s.mem with dma := modAt s.mem.dma i f } := rfl
@[simp] theorem State.modDma_cores (f : DmaChan → DmaChan) : (s.modDma i f).cores = s.cores := rfl
@[simp] theorem State.modDma_uc (f : DmaChan → DmaChan) : (s.modDma i f).uc = s.uc := rfl
@[simp] theorem State.modDma_cipher (f : DmaChan → DmaChan) : (s.modDma i f).cipher = s.cipher := rfl
@[simp] theorem State.modDma_sealing (f : DmaChan → DmaChan) : (s.modDma i f).sealing = s.sealing := rfl
@[simp] theorem State.modDma_periph (f : DmaChan → DmaChan) : (s.modDma i f).periph = s.periph := rfl
@[simp] theorem State.modDma_inputs (f : DmaChan → DmaChan) : (s.modDma i f).inputs = s.inputs := rfl
@[simp] theorem State.modDma_subbands (f : DmaChan → DmaChan) : (s.modDma i f).subbands = s.subbands := rfl
@[simp] theorem State.modDma_grinder (f : DmaChan → DmaChan) : (s.modDma i f).grinder = s.grinder := rfl
@[simp] theorem State.modDma_fabric (f : DmaChan → DmaChan) : (s.modDma i f).fabric = s.fabric := rfl
@[simp] theorem State.modDma_tracking (f : DmaChan → DmaChan) : (s.modDma i f).tracking = s.tracking := rfl
@[simp] theorem State.modDma_carafe (f : DmaChan → DmaChan) : (s.modDma i f).carafe = s.carafe := rfl
@[simp] theorem State.modDma_timeSys (f : DmaChan → DmaChan) : (s.modDma i f).timeSys = s.timeSys := rfl
@[simp] theorem State.modDma_nav (f : DmaChan → DmaChan) : (s.modDma i f).nav = s.nav := rfl
@[simp] theorem State.modDma_corr (f : DmaChan → DmaChan) : (s.modDma i f).corr = s.corr := rfl
@[simp] theorem State.modDma_eth (f : DmaChan → DmaChan) : (s.modDma i f).eth = s.eth := rfl
@[simp] theorem State.modDma_freeCtr (f : DmaChan → DmaChan) : (s.modDma i f).freeCtr = s.freeCtr := rfl

@[simp] theorem State.modCore_pending (f : Core → Core) : (s.modCore i f).pending = s.pending := rfl
@[simp] theorem State.modCore_nv (f : Core → Core) : (s.modCore i f).nv = s.nv := rfl
@[simp] theorem State.modCore_time (f : Core → Core) : (s.modCore i f).time = s.time := rfl
@[simp] theorem State.modCore_overruns (f : Core → Core) : (s.modCore i f).overruns = s.overruns := rfl
@[simp] theorem State.modCore_sessions (f : Core → Core) : (s.modCore i f).sessions = s.sessions := rfl
@[simp] theorem State.modCore_transports (f : Core → Core) : (s.modCore i f).transports = s.transports := rfl
@[simp] theorem State.modCore_power (f : Core → Core) : (s.modCore i f).power = s.power := rfl
@[simp] theorem State.modCore_holdup (f : Core → Core) : (s.modCore i f).holdup = s.holdup := rfl
@[simp] theorem State.modCore_perc (f : Core → Core) : (s.modCore i f).perc = s.perc := rfl
@[simp] theorem State.modCore_boot (f : Core → Core) : (s.modCore i f).boot = s.boot := rfl
@[simp] theorem State.modCore_tap (f : Core → Core) : (s.modCore i f).tap = s.tap := rfl
@[simp] theorem State.modCore_tripLog (f : Core → Core) : (s.modCore i f).tripLog = s.tripLog := rfl
@[simp] theorem State.modCore_faultLog (f : Core → Core) : (s.modCore i f).faultLog = s.faultLog := rfl
@[simp] theorem State.modCore_mem (f : Core → Core) : (s.modCore i f).mem = s.mem := rfl
@[simp] theorem State.modCore_cores (f : Core → Core) : (s.modCore i f).cores = modAt s.cores i f := rfl
@[simp] theorem State.modCore_uc (f : Core → Core) : (s.modCore i f).uc = s.uc := rfl
@[simp] theorem State.modCore_cipher (f : Core → Core) : (s.modCore i f).cipher = s.cipher := rfl
@[simp] theorem State.modCore_sealing (f : Core → Core) : (s.modCore i f).sealing = s.sealing := rfl
@[simp] theorem State.modCore_periph (f : Core → Core) : (s.modCore i f).periph = s.periph := rfl
@[simp] theorem State.modCore_inputs (f : Core → Core) : (s.modCore i f).inputs = s.inputs := rfl
@[simp] theorem State.modCore_subbands (f : Core → Core) : (s.modCore i f).subbands = s.subbands := rfl
@[simp] theorem State.modCore_grinder (f : Core → Core) : (s.modCore i f).grinder = s.grinder := rfl
@[simp] theorem State.modCore_fabric (f : Core → Core) : (s.modCore i f).fabric = s.fabric := rfl
@[simp] theorem State.modCore_tracking (f : Core → Core) : (s.modCore i f).tracking = s.tracking := rfl
@[simp] theorem State.modCore_carafe (f : Core → Core) : (s.modCore i f).carafe = s.carafe := rfl
@[simp] theorem State.modCore_timeSys (f : Core → Core) : (s.modCore i f).timeSys = s.timeSys := rfl
@[simp] theorem State.modCore_nav (f : Core → Core) : (s.modCore i f).nav = s.nav := rfl
@[simp] theorem State.modCore_corr (f : Core → Core) : (s.modCore i f).corr = s.corr := rfl
@[simp] theorem State.modCore_eth (f : Core → Core) : (s.modCore i f).eth = s.eth := rfl
@[simp] theorem State.modCore_freeCtr (f : Core → Core) : (s.modCore i f).freeCtr = s.freeCtr := rfl

@[simp] theorem State.modUc_pending (f : UcBlock → UcBlock) : (s.modUc f).pending = s.pending := rfl
@[simp] theorem State.modUc_nv (f : UcBlock → UcBlock) : (s.modUc f).nv = s.nv := rfl
@[simp] theorem State.modUc_time (f : UcBlock → UcBlock) : (s.modUc f).time = s.time := rfl
@[simp] theorem State.modUc_overruns (f : UcBlock → UcBlock) : (s.modUc f).overruns = s.overruns := rfl
@[simp] theorem State.modUc_sessions (f : UcBlock → UcBlock) : (s.modUc f).sessions = s.sessions := rfl
@[simp] theorem State.modUc_transports (f : UcBlock → UcBlock) : (s.modUc f).transports = s.transports := rfl
@[simp] theorem State.modUc_power (f : UcBlock → UcBlock) : (s.modUc f).power = s.power := rfl
@[simp] theorem State.modUc_holdup (f : UcBlock → UcBlock) : (s.modUc f).holdup = s.holdup := rfl
@[simp] theorem State.modUc_perc (f : UcBlock → UcBlock) : (s.modUc f).perc = s.perc := rfl
@[simp] theorem State.modUc_boot (f : UcBlock → UcBlock) : (s.modUc f).boot = s.boot := rfl
@[simp] theorem State.modUc_tap (f : UcBlock → UcBlock) : (s.modUc f).tap = s.tap := rfl
@[simp] theorem State.modUc_tripLog (f : UcBlock → UcBlock) : (s.modUc f).tripLog = s.tripLog := rfl
@[simp] theorem State.modUc_faultLog (f : UcBlock → UcBlock) : (s.modUc f).faultLog = s.faultLog := rfl
@[simp] theorem State.modUc_mem (f : UcBlock → UcBlock) : (s.modUc f).mem = s.mem := rfl
@[simp] theorem State.modUc_cores (f : UcBlock → UcBlock) : (s.modUc f).cores = s.cores := rfl
@[simp] theorem State.modUc_uc (f : UcBlock → UcBlock) : (s.modUc f).uc = f s.uc := rfl
@[simp] theorem State.modUc_cipher (f : UcBlock → UcBlock) : (s.modUc f).cipher = s.cipher := rfl
@[simp] theorem State.modUc_sealing (f : UcBlock → UcBlock) : (s.modUc f).sealing = s.sealing := rfl
@[simp] theorem State.modUc_periph (f : UcBlock → UcBlock) : (s.modUc f).periph = s.periph := rfl
@[simp] theorem State.modUc_inputs (f : UcBlock → UcBlock) : (s.modUc f).inputs = s.inputs := rfl
@[simp] theorem State.modUc_subbands (f : UcBlock → UcBlock) : (s.modUc f).subbands = s.subbands := rfl
@[simp] theorem State.modUc_grinder (f : UcBlock → UcBlock) : (s.modUc f).grinder = s.grinder := rfl
@[simp] theorem State.modUc_fabric (f : UcBlock → UcBlock) : (s.modUc f).fabric = s.fabric := rfl
@[simp] theorem State.modUc_tracking (f : UcBlock → UcBlock) : (s.modUc f).tracking = s.tracking := rfl
@[simp] theorem State.modUc_carafe (f : UcBlock → UcBlock) : (s.modUc f).carafe = s.carafe := rfl
@[simp] theorem State.modUc_timeSys (f : UcBlock → UcBlock) : (s.modUc f).timeSys = s.timeSys := rfl
@[simp] theorem State.modUc_nav (f : UcBlock → UcBlock) : (s.modUc f).nav = s.nav := rfl
@[simp] theorem State.modUc_corr (f : UcBlock → UcBlock) : (s.modUc f).corr = s.corr := rfl
@[simp] theorem State.modUc_eth (f : UcBlock → UcBlock) : (s.modUc f).eth = s.eth := rfl
@[simp] theorem State.modUc_freeCtr (f : UcBlock → UcBlock) : (s.modUc f).freeCtr = s.freeCtr := rfl

@[simp] theorem State.modTimer_pending (f : UcTimer → UcTimer) : (s.modTimer i f).pending = s.pending := rfl
@[simp] theorem State.modTimer_nv (f : UcTimer → UcTimer) : (s.modTimer i f).nv = s.nv := rfl
@[simp] theorem State.modTimer_time (f : UcTimer → UcTimer) : (s.modTimer i f).time = s.time := rfl
@[simp] theorem State.modTimer_overruns (f : UcTimer → UcTimer) : (s.modTimer i f).overruns = s.overruns := rfl
@[simp] theorem State.modTimer_sessions (f : UcTimer → UcTimer) : (s.modTimer i f).sessions = s.sessions := rfl
@[simp] theorem State.modTimer_transports (f : UcTimer → UcTimer) : (s.modTimer i f).transports = s.transports := rfl
@[simp] theorem State.modTimer_power (f : UcTimer → UcTimer) : (s.modTimer i f).power = s.power := rfl
@[simp] theorem State.modTimer_holdup (f : UcTimer → UcTimer) : (s.modTimer i f).holdup = s.holdup := rfl
@[simp] theorem State.modTimer_perc (f : UcTimer → UcTimer) : (s.modTimer i f).perc = s.perc := rfl
@[simp] theorem State.modTimer_boot (f : UcTimer → UcTimer) : (s.modTimer i f).boot = s.boot := rfl
@[simp] theorem State.modTimer_tap (f : UcTimer → UcTimer) : (s.modTimer i f).tap = s.tap := rfl
@[simp] theorem State.modTimer_tripLog (f : UcTimer → UcTimer) : (s.modTimer i f).tripLog = s.tripLog := rfl
@[simp] theorem State.modTimer_faultLog (f : UcTimer → UcTimer) : (s.modTimer i f).faultLog = s.faultLog := rfl
@[simp] theorem State.modTimer_mem (f : UcTimer → UcTimer) : (s.modTimer i f).mem = s.mem := rfl
@[simp] theorem State.modTimer_cores (f : UcTimer → UcTimer) : (s.modTimer i f).cores = s.cores := rfl
@[simp] theorem State.modTimer_uc (f : UcTimer → UcTimer) : (s.modTimer i f).uc = { s.uc with timers := modAt s.uc.timers i f } := rfl
@[simp] theorem State.modTimer_cipher (f : UcTimer → UcTimer) : (s.modTimer i f).cipher = s.cipher := rfl
@[simp] theorem State.modTimer_sealing (f : UcTimer → UcTimer) : (s.modTimer i f).sealing = s.sealing := rfl
@[simp] theorem State.modTimer_periph (f : UcTimer → UcTimer) : (s.modTimer i f).periph = s.periph := rfl
@[simp] theorem State.modTimer_inputs (f : UcTimer → UcTimer) : (s.modTimer i f).inputs = s.inputs := rfl
@[simp] theorem State.modTimer_subbands (f : UcTimer → UcTimer) : (s.modTimer i f).subbands = s.subbands := rfl
@[simp] theorem State.modTimer_grinder (f : UcTimer → UcTimer) : (s.modTimer i f).grinder = s.grinder := rfl
@[simp] theorem State.modTimer_fabric (f : UcTimer → UcTimer) : (s.modTimer i f).fabric = s.fabric := rfl
@[simp] theorem State.modTimer_tracking (f : UcTimer → UcTimer) : (s.modTimer i f).tracking = s.tracking := rfl
@[simp] theorem State.modTimer_carafe (f : UcTimer → UcTimer) : (s.modTimer i f).carafe = s.carafe := rfl
@[simp] theorem State.modTimer_timeSys (f : UcTimer → UcTimer) : (s.modTimer i f).timeSys = s.timeSys := rfl
@[simp] theorem State.modTimer_nav (f : UcTimer → UcTimer) : (s.modTimer i f).nav = s.nav := rfl
@[simp] theorem State.modTimer_corr (f : UcTimer → UcTimer) : (s.modTimer i f).corr = s.corr := rfl
@[simp] theorem State.modTimer_eth (f : UcTimer → UcTimer) : (s.modTimer i f).eth = s.eth := rfl
@[simp] theorem State.modTimer_freeCtr (f : UcTimer → UcTimer) : (s.modTimer i f).freeCtr = s.freeCtr := rfl

@[simp] theorem State.modCipher_pending (f : Cipher → Cipher) : (s.modCipher f).pending = s.pending := rfl
@[simp] theorem State.modCipher_nv (f : Cipher → Cipher) : (s.modCipher f).nv = s.nv := rfl
@[simp] theorem State.modCipher_time (f : Cipher → Cipher) : (s.modCipher f).time = s.time := rfl
@[simp] theorem State.modCipher_overruns (f : Cipher → Cipher) : (s.modCipher f).overruns = s.overruns := rfl
@[simp] theorem State.modCipher_sessions (f : Cipher → Cipher) : (s.modCipher f).sessions = s.sessions := rfl
@[simp] theorem State.modCipher_transports (f : Cipher → Cipher) : (s.modCipher f).transports = s.transports := rfl
@[simp] theorem State.modCipher_power (f : Cipher → Cipher) : (s.modCipher f).power = s.power := rfl
@[simp] theorem State.modCipher_holdup (f : Cipher → Cipher) : (s.modCipher f).holdup = s.holdup := rfl
@[simp] theorem State.modCipher_perc (f : Cipher → Cipher) : (s.modCipher f).perc = s.perc := rfl
@[simp] theorem State.modCipher_boot (f : Cipher → Cipher) : (s.modCipher f).boot = s.boot := rfl
@[simp] theorem State.modCipher_tap (f : Cipher → Cipher) : (s.modCipher f).tap = s.tap := rfl
@[simp] theorem State.modCipher_tripLog (f : Cipher → Cipher) : (s.modCipher f).tripLog = s.tripLog := rfl
@[simp] theorem State.modCipher_faultLog (f : Cipher → Cipher) : (s.modCipher f).faultLog = s.faultLog := rfl
@[simp] theorem State.modCipher_mem (f : Cipher → Cipher) : (s.modCipher f).mem = s.mem := rfl
@[simp] theorem State.modCipher_cores (f : Cipher → Cipher) : (s.modCipher f).cores = s.cores := rfl
@[simp] theorem State.modCipher_uc (f : Cipher → Cipher) : (s.modCipher f).uc = s.uc := rfl
@[simp] theorem State.modCipher_cipher (f : Cipher → Cipher) : (s.modCipher f).cipher = f s.cipher := rfl
@[simp] theorem State.modCipher_sealing (f : Cipher → Cipher) : (s.modCipher f).sealing = s.sealing := rfl
@[simp] theorem State.modCipher_periph (f : Cipher → Cipher) : (s.modCipher f).periph = s.periph := rfl
@[simp] theorem State.modCipher_inputs (f : Cipher → Cipher) : (s.modCipher f).inputs = s.inputs := rfl
@[simp] theorem State.modCipher_subbands (f : Cipher → Cipher) : (s.modCipher f).subbands = s.subbands := rfl
@[simp] theorem State.modCipher_grinder (f : Cipher → Cipher) : (s.modCipher f).grinder = s.grinder := rfl
@[simp] theorem State.modCipher_fabric (f : Cipher → Cipher) : (s.modCipher f).fabric = s.fabric := rfl
@[simp] theorem State.modCipher_tracking (f : Cipher → Cipher) : (s.modCipher f).tracking = s.tracking := rfl
@[simp] theorem State.modCipher_carafe (f : Cipher → Cipher) : (s.modCipher f).carafe = s.carafe := rfl
@[simp] theorem State.modCipher_timeSys (f : Cipher → Cipher) : (s.modCipher f).timeSys = s.timeSys := rfl
@[simp] theorem State.modCipher_nav (f : Cipher → Cipher) : (s.modCipher f).nav = s.nav := rfl
@[simp] theorem State.modCipher_corr (f : Cipher → Cipher) : (s.modCipher f).corr = s.corr := rfl
@[simp] theorem State.modCipher_eth (f : Cipher → Cipher) : (s.modCipher f).eth = s.eth := rfl
@[simp] theorem State.modCipher_freeCtr (f : Cipher → Cipher) : (s.modCipher f).freeCtr = s.freeCtr := rfl

@[simp] theorem State.modUnit_pending (f : CipherUnit → CipherUnit) : (s.modUnit i f).pending = s.pending := rfl
@[simp] theorem State.modUnit_nv (f : CipherUnit → CipherUnit) : (s.modUnit i f).nv = s.nv := rfl
@[simp] theorem State.modUnit_time (f : CipherUnit → CipherUnit) : (s.modUnit i f).time = s.time := rfl
@[simp] theorem State.modUnit_overruns (f : CipherUnit → CipherUnit) : (s.modUnit i f).overruns = s.overruns := rfl
@[simp] theorem State.modUnit_sessions (f : CipherUnit → CipherUnit) : (s.modUnit i f).sessions = s.sessions := rfl
@[simp] theorem State.modUnit_transports (f : CipherUnit → CipherUnit) : (s.modUnit i f).transports = s.transports := rfl
@[simp] theorem State.modUnit_power (f : CipherUnit → CipherUnit) : (s.modUnit i f).power = s.power := rfl
@[simp] theorem State.modUnit_holdup (f : CipherUnit → CipherUnit) : (s.modUnit i f).holdup = s.holdup := rfl
@[simp] theorem State.modUnit_perc (f : CipherUnit → CipherUnit) : (s.modUnit i f).perc = s.perc := rfl
@[simp] theorem State.modUnit_boot (f : CipherUnit → CipherUnit) : (s.modUnit i f).boot = s.boot := rfl
@[simp] theorem State.modUnit_tap (f : CipherUnit → CipherUnit) : (s.modUnit i f).tap = s.tap := rfl
@[simp] theorem State.modUnit_tripLog (f : CipherUnit → CipherUnit) : (s.modUnit i f).tripLog = s.tripLog := rfl
@[simp] theorem State.modUnit_faultLog (f : CipherUnit → CipherUnit) : (s.modUnit i f).faultLog = s.faultLog := rfl
@[simp] theorem State.modUnit_mem (f : CipherUnit → CipherUnit) : (s.modUnit i f).mem = s.mem := rfl
@[simp] theorem State.modUnit_cores (f : CipherUnit → CipherUnit) : (s.modUnit i f).cores = s.cores := rfl
@[simp] theorem State.modUnit_uc (f : CipherUnit → CipherUnit) : (s.modUnit i f).uc = s.uc := rfl
@[simp] theorem State.modUnit_cipher (f : CipherUnit → CipherUnit) : (s.modUnit i f).cipher = { s.cipher with units := modAt s.cipher.units i f } := rfl
@[simp] theorem State.modUnit_sealing (f : CipherUnit → CipherUnit) : (s.modUnit i f).sealing = s.sealing := rfl
@[simp] theorem State.modUnit_periph (f : CipherUnit → CipherUnit) : (s.modUnit i f).periph = s.periph := rfl
@[simp] theorem State.modUnit_inputs (f : CipherUnit → CipherUnit) : (s.modUnit i f).inputs = s.inputs := rfl
@[simp] theorem State.modUnit_subbands (f : CipherUnit → CipherUnit) : (s.modUnit i f).subbands = s.subbands := rfl
@[simp] theorem State.modUnit_grinder (f : CipherUnit → CipherUnit) : (s.modUnit i f).grinder = s.grinder := rfl
@[simp] theorem State.modUnit_fabric (f : CipherUnit → CipherUnit) : (s.modUnit i f).fabric = s.fabric := rfl
@[simp] theorem State.modUnit_tracking (f : CipherUnit → CipherUnit) : (s.modUnit i f).tracking = s.tracking := rfl
@[simp] theorem State.modUnit_carafe (f : CipherUnit → CipherUnit) : (s.modUnit i f).carafe = s.carafe := rfl
@[simp] theorem State.modUnit_timeSys (f : CipherUnit → CipherUnit) : (s.modUnit i f).timeSys = s.timeSys := rfl
@[simp] theorem State.modUnit_nav (f : CipherUnit → CipherUnit) : (s.modUnit i f).nav = s.nav := rfl
@[simp] theorem State.modUnit_corr (f : CipherUnit → CipherUnit) : (s.modUnit i f).corr = s.corr := rfl
@[simp] theorem State.modUnit_eth (f : CipherUnit → CipherUnit) : (s.modUnit i f).eth = s.eth := rfl
@[simp] theorem State.modUnit_freeCtr (f : CipherUnit → CipherUnit) : (s.modUnit i f).freeCtr = s.freeCtr := rfl

@[simp] theorem State.modSlot_pending (f : KeySlot → KeySlot) : (s.modSlot i f).pending = s.pending := rfl
@[simp] theorem State.modSlot_nv (f : KeySlot → KeySlot) : (s.modSlot i f).nv = s.nv := rfl
@[simp] theorem State.modSlot_time (f : KeySlot → KeySlot) : (s.modSlot i f).time = s.time := rfl
@[simp] theorem State.modSlot_overruns (f : KeySlot → KeySlot) : (s.modSlot i f).overruns = s.overruns := rfl
@[simp] theorem State.modSlot_sessions (f : KeySlot → KeySlot) : (s.modSlot i f).sessions = s.sessions := rfl
@[simp] theorem State.modSlot_transports (f : KeySlot → KeySlot) : (s.modSlot i f).transports = s.transports := rfl
@[simp] theorem State.modSlot_power (f : KeySlot → KeySlot) : (s.modSlot i f).power = s.power := rfl
@[simp] theorem State.modSlot_holdup (f : KeySlot → KeySlot) : (s.modSlot i f).holdup = s.holdup := rfl
@[simp] theorem State.modSlot_perc (f : KeySlot → KeySlot) : (s.modSlot i f).perc = s.perc := rfl
@[simp] theorem State.modSlot_boot (f : KeySlot → KeySlot) : (s.modSlot i f).boot = s.boot := rfl
@[simp] theorem State.modSlot_tap (f : KeySlot → KeySlot) : (s.modSlot i f).tap = s.tap := rfl
@[simp] theorem State.modSlot_tripLog (f : KeySlot → KeySlot) : (s.modSlot i f).tripLog = s.tripLog := rfl
@[simp] theorem State.modSlot_faultLog (f : KeySlot → KeySlot) : (s.modSlot i f).faultLog = s.faultLog := rfl
@[simp] theorem State.modSlot_mem (f : KeySlot → KeySlot) : (s.modSlot i f).mem = s.mem := rfl
@[simp] theorem State.modSlot_cores (f : KeySlot → KeySlot) : (s.modSlot i f).cores = s.cores := rfl
@[simp] theorem State.modSlot_uc (f : KeySlot → KeySlot) : (s.modSlot i f).uc = s.uc := rfl
@[simp] theorem State.modSlot_cipher (f : KeySlot → KeySlot) : (s.modSlot i f).cipher = { s.cipher with slots := modAt s.cipher.slots i f } := rfl
@[simp] theorem State.modSlot_sealing (f : KeySlot → KeySlot) : (s.modSlot i f).sealing = s.sealing := rfl
@[simp] theorem State.modSlot_periph (f : KeySlot → KeySlot) : (s.modSlot i f).periph = s.periph := rfl
@[simp] theorem State.modSlot_inputs (f : KeySlot → KeySlot) : (s.modSlot i f).inputs = s.inputs := rfl
@[simp] theorem State.modSlot_subbands (f : KeySlot → KeySlot) : (s.modSlot i f).subbands = s.subbands := rfl
@[simp] theorem State.modSlot_grinder (f : KeySlot → KeySlot) : (s.modSlot i f).grinder = s.grinder := rfl
@[simp] theorem State.modSlot_fabric (f : KeySlot → KeySlot) : (s.modSlot i f).fabric = s.fabric := rfl
@[simp] theorem State.modSlot_tracking (f : KeySlot → KeySlot) : (s.modSlot i f).tracking = s.tracking := rfl
@[simp] theorem State.modSlot_carafe (f : KeySlot → KeySlot) : (s.modSlot i f).carafe = s.carafe := rfl
@[simp] theorem State.modSlot_timeSys (f : KeySlot → KeySlot) : (s.modSlot i f).timeSys = s.timeSys := rfl
@[simp] theorem State.modSlot_nav (f : KeySlot → KeySlot) : (s.modSlot i f).nav = s.nav := rfl
@[simp] theorem State.modSlot_corr (f : KeySlot → KeySlot) : (s.modSlot i f).corr = s.corr := rfl
@[simp] theorem State.modSlot_eth (f : KeySlot → KeySlot) : (s.modSlot i f).eth = s.eth := rfl
@[simp] theorem State.modSlot_freeCtr (f : KeySlot → KeySlot) : (s.modSlot i f).freeCtr = s.freeCtr := rfl

@[simp] theorem State.modSeal_pending (f : Seal → Seal) : (s.modSeal f).pending = s.pending := rfl
@[simp] theorem State.modSeal_nv (f : Seal → Seal) : (s.modSeal f).nv = s.nv := rfl
@[simp] theorem State.modSeal_time (f : Seal → Seal) : (s.modSeal f).time = s.time := rfl
@[simp] theorem State.modSeal_overruns (f : Seal → Seal) : (s.modSeal f).overruns = s.overruns := rfl
@[simp] theorem State.modSeal_sessions (f : Seal → Seal) : (s.modSeal f).sessions = s.sessions := rfl
@[simp] theorem State.modSeal_transports (f : Seal → Seal) : (s.modSeal f).transports = s.transports := rfl
@[simp] theorem State.modSeal_power (f : Seal → Seal) : (s.modSeal f).power = s.power := rfl
@[simp] theorem State.modSeal_holdup (f : Seal → Seal) : (s.modSeal f).holdup = s.holdup := rfl
@[simp] theorem State.modSeal_perc (f : Seal → Seal) : (s.modSeal f).perc = s.perc := rfl
@[simp] theorem State.modSeal_boot (f : Seal → Seal) : (s.modSeal f).boot = s.boot := rfl
@[simp] theorem State.modSeal_tap (f : Seal → Seal) : (s.modSeal f).tap = s.tap := rfl
@[simp] theorem State.modSeal_tripLog (f : Seal → Seal) : (s.modSeal f).tripLog = s.tripLog := rfl
@[simp] theorem State.modSeal_faultLog (f : Seal → Seal) : (s.modSeal f).faultLog = s.faultLog := rfl
@[simp] theorem State.modSeal_mem (f : Seal → Seal) : (s.modSeal f).mem = s.mem := rfl
@[simp] theorem State.modSeal_cores (f : Seal → Seal) : (s.modSeal f).cores = s.cores := rfl
@[simp] theorem State.modSeal_uc (f : Seal → Seal) : (s.modSeal f).uc = s.uc := rfl
@[simp] theorem State.modSeal_cipher (f : Seal → Seal) : (s.modSeal f).cipher = s.cipher := rfl
@[simp] theorem State.modSeal_sealing (f : Seal → Seal) : (s.modSeal f).sealing = f s.sealing := rfl
@[simp] theorem State.modSeal_periph (f : Seal → Seal) : (s.modSeal f).periph = s.periph := rfl
@[simp] theorem State.modSeal_inputs (f : Seal → Seal) : (s.modSeal f).inputs = s.inputs := rfl
@[simp] theorem State.modSeal_subbands (f : Seal → Seal) : (s.modSeal f).subbands = s.subbands := rfl
@[simp] theorem State.modSeal_grinder (f : Seal → Seal) : (s.modSeal f).grinder = s.grinder := rfl
@[simp] theorem State.modSeal_fabric (f : Seal → Seal) : (s.modSeal f).fabric = s.fabric := rfl
@[simp] theorem State.modSeal_tracking (f : Seal → Seal) : (s.modSeal f).tracking = s.tracking := rfl
@[simp] theorem State.modSeal_carafe (f : Seal → Seal) : (s.modSeal f).carafe = s.carafe := rfl
@[simp] theorem State.modSeal_timeSys (f : Seal → Seal) : (s.modSeal f).timeSys = s.timeSys := rfl
@[simp] theorem State.modSeal_nav (f : Seal → Seal) : (s.modSeal f).nav = s.nav := rfl
@[simp] theorem State.modSeal_corr (f : Seal → Seal) : (s.modSeal f).corr = s.corr := rfl
@[simp] theorem State.modSeal_eth (f : Seal → Seal) : (s.modSeal f).eth = s.eth := rfl
@[simp] theorem State.modSeal_freeCtr (f : Seal → Seal) : (s.modSeal f).freeCtr = s.freeCtr := rfl

@[simp] theorem State.modPeriph_pending (f : Periph → Periph) : (s.modPeriph f).pending = s.pending := rfl
@[simp] theorem State.modPeriph_nv (f : Periph → Periph) : (s.modPeriph f).nv = s.nv := rfl
@[simp] theorem State.modPeriph_time (f : Periph → Periph) : (s.modPeriph f).time = s.time := rfl
@[simp] theorem State.modPeriph_overruns (f : Periph → Periph) : (s.modPeriph f).overruns = s.overruns := rfl
@[simp] theorem State.modPeriph_sessions (f : Periph → Periph) : (s.modPeriph f).sessions = s.sessions := rfl
@[simp] theorem State.modPeriph_transports (f : Periph → Periph) : (s.modPeriph f).transports = s.transports := rfl
@[simp] theorem State.modPeriph_power (f : Periph → Periph) : (s.modPeriph f).power = s.power := rfl
@[simp] theorem State.modPeriph_holdup (f : Periph → Periph) : (s.modPeriph f).holdup = s.holdup := rfl
@[simp] theorem State.modPeriph_perc (f : Periph → Periph) : (s.modPeriph f).perc = s.perc := rfl
@[simp] theorem State.modPeriph_boot (f : Periph → Periph) : (s.modPeriph f).boot = s.boot := rfl
@[simp] theorem State.modPeriph_tap (f : Periph → Periph) : (s.modPeriph f).tap = s.tap := rfl
@[simp] theorem State.modPeriph_tripLog (f : Periph → Periph) : (s.modPeriph f).tripLog = s.tripLog := rfl
@[simp] theorem State.modPeriph_faultLog (f : Periph → Periph) : (s.modPeriph f).faultLog = s.faultLog := rfl
@[simp] theorem State.modPeriph_mem (f : Periph → Periph) : (s.modPeriph f).mem = s.mem := rfl
@[simp] theorem State.modPeriph_cores (f : Periph → Periph) : (s.modPeriph f).cores = s.cores := rfl
@[simp] theorem State.modPeriph_uc (f : Periph → Periph) : (s.modPeriph f).uc = s.uc := rfl
@[simp] theorem State.modPeriph_cipher (f : Periph → Periph) : (s.modPeriph f).cipher = s.cipher := rfl
@[simp] theorem State.modPeriph_sealing (f : Periph → Periph) : (s.modPeriph f).sealing = s.sealing := rfl
@[simp] theorem State.modPeriph_periph (f : Periph → Periph) : (s.modPeriph f).periph = f s.periph := rfl
@[simp] theorem State.modPeriph_inputs (f : Periph → Periph) : (s.modPeriph f).inputs = s.inputs := rfl
@[simp] theorem State.modPeriph_subbands (f : Periph → Periph) : (s.modPeriph f).subbands = s.subbands := rfl
@[simp] theorem State.modPeriph_grinder (f : Periph → Periph) : (s.modPeriph f).grinder = s.grinder := rfl
@[simp] theorem State.modPeriph_fabric (f : Periph → Periph) : (s.modPeriph f).fabric = s.fabric := rfl
@[simp] theorem State.modPeriph_tracking (f : Periph → Periph) : (s.modPeriph f).tracking = s.tracking := rfl
@[simp] theorem State.modPeriph_carafe (f : Periph → Periph) : (s.modPeriph f).carafe = s.carafe := rfl
@[simp] theorem State.modPeriph_timeSys (f : Periph → Periph) : (s.modPeriph f).timeSys = s.timeSys := rfl
@[simp] theorem State.modPeriph_nav (f : Periph → Periph) : (s.modPeriph f).nav = s.nav := rfl
@[simp] theorem State.modPeriph_corr (f : Periph → Periph) : (s.modPeriph f).corr = s.corr := rfl
@[simp] theorem State.modPeriph_eth (f : Periph → Periph) : (s.modPeriph f).eth = s.eth := rfl
@[simp] theorem State.modPeriph_freeCtr (f : Periph → Periph) : (s.modPeriph f).freeCtr = s.freeCtr := rfl

@[simp] theorem State.modUart_pending (f : Uart → Uart) : (s.modUart i f).pending = s.pending := rfl
@[simp] theorem State.modUart_nv (f : Uart → Uart) : (s.modUart i f).nv = s.nv := rfl
@[simp] theorem State.modUart_time (f : Uart → Uart) : (s.modUart i f).time = s.time := rfl
@[simp] theorem State.modUart_overruns (f : Uart → Uart) : (s.modUart i f).overruns = s.overruns := rfl
@[simp] theorem State.modUart_sessions (f : Uart → Uart) : (s.modUart i f).sessions = s.sessions := rfl
@[simp] theorem State.modUart_transports (f : Uart → Uart) : (s.modUart i f).transports = s.transports := rfl
@[simp] theorem State.modUart_power (f : Uart → Uart) : (s.modUart i f).power = s.power := rfl
@[simp] theorem State.modUart_holdup (f : Uart → Uart) : (s.modUart i f).holdup = s.holdup := rfl
@[simp] theorem State.modUart_perc (f : Uart → Uart) : (s.modUart i f).perc = s.perc := rfl
@[simp] theorem State.modUart_boot (f : Uart → Uart) : (s.modUart i f).boot = s.boot := rfl
@[simp] theorem State.modUart_tap (f : Uart → Uart) : (s.modUart i f).tap = s.tap := rfl
@[simp] theorem State.modUart_tripLog (f : Uart → Uart) : (s.modUart i f).tripLog = s.tripLog := rfl
@[simp] theorem State.modUart_faultLog (f : Uart → Uart) : (s.modUart i f).faultLog = s.faultLog := rfl
@[simp] theorem State.modUart_mem (f : Uart → Uart) : (s.modUart i f).mem = s.mem := rfl
@[simp] theorem State.modUart_cores (f : Uart → Uart) : (s.modUart i f).cores = s.cores := rfl
@[simp] theorem State.modUart_uc (f : Uart → Uart) : (s.modUart i f).uc = s.uc := rfl
@[simp] theorem State.modUart_cipher (f : Uart → Uart) : (s.modUart i f).cipher = s.cipher := rfl
@[simp] theorem State.modUart_sealing (f : Uart → Uart) : (s.modUart i f).sealing = s.sealing := rfl
@[simp] theorem State.modUart_periph (f : Uart → Uart) : (s.modUart i f).periph = { s.periph with uarts := modAt s.periph.uarts i f } := rfl
@[simp] theorem State.modUart_inputs (f : Uart → Uart) : (s.modUart i f).inputs = s.inputs := rfl
@[simp] theorem State.modUart_subbands (f : Uart → Uart) : (s.modUart i f).subbands = s.subbands := rfl
@[simp] theorem State.modUart_grinder (f : Uart → Uart) : (s.modUart i f).grinder = s.grinder := rfl
@[simp] theorem State.modUart_fabric (f : Uart → Uart) : (s.modUart i f).fabric = s.fabric := rfl
@[simp] theorem State.modUart_tracking (f : Uart → Uart) : (s.modUart i f).tracking = s.tracking := rfl
@[simp] theorem State.modUart_carafe (f : Uart → Uart) : (s.modUart i f).carafe = s.carafe := rfl
@[simp] theorem State.modUart_timeSys (f : Uart → Uart) : (s.modUart i f).timeSys = s.timeSys := rfl
@[simp] theorem State.modUart_nav (f : Uart → Uart) : (s.modUart i f).nav = s.nav := rfl
@[simp] theorem State.modUart_corr (f : Uart → Uart) : (s.modUart i f).corr = s.corr := rfl
@[simp] theorem State.modUart_eth (f : Uart → Uart) : (s.modUart i f).eth = s.eth := rfl
@[simp] theorem State.modUart_freeCtr (f : Uart → Uart) : (s.modUart i f).freeCtr = s.freeCtr := rfl

@[simp] theorem State.modCan_pending (f : CanPort → CanPort) : (s.modCan i f).pending = s.pending := rfl
@[simp] theorem State.modCan_nv (f : CanPort → CanPort) : (s.modCan i f).nv = s.nv := rfl
@[simp] theorem State.modCan_time (f : CanPort → CanPort) : (s.modCan i f).time = s.time := rfl
@[simp] theorem State.modCan_overruns (f : CanPort → CanPort) : (s.modCan i f).overruns = s.overruns := rfl
@[simp] theorem State.modCan_sessions (f : CanPort → CanPort) : (s.modCan i f).sessions = s.sessions := rfl
@[simp] theorem State.modCan_transports (f : CanPort → CanPort) : (s.modCan i f).transports = s.transports := rfl
@[simp] theorem State.modCan_power (f : CanPort → CanPort) : (s.modCan i f).power = s.power := rfl
@[simp] theorem State.modCan_holdup (f : CanPort → CanPort) : (s.modCan i f).holdup = s.holdup := rfl
@[simp] theorem State.modCan_perc (f : CanPort → CanPort) : (s.modCan i f).perc = s.perc := rfl
@[simp] theorem State.modCan_boot (f : CanPort → CanPort) : (s.modCan i f).boot = s.boot := rfl
@[simp] theorem State.modCan_tap (f : CanPort → CanPort) : (s.modCan i f).tap = s.tap := rfl
@[simp] theorem State.modCan_tripLog (f : CanPort → CanPort) : (s.modCan i f).tripLog = s.tripLog := rfl
@[simp] theorem State.modCan_faultLog (f : CanPort → CanPort) : (s.modCan i f).faultLog = s.faultLog := rfl
@[simp] theorem State.modCan_mem (f : CanPort → CanPort) : (s.modCan i f).mem = s.mem := rfl
@[simp] theorem State.modCan_cores (f : CanPort → CanPort) : (s.modCan i f).cores = s.cores := rfl
@[simp] theorem State.modCan_uc (f : CanPort → CanPort) : (s.modCan i f).uc = s.uc := rfl
@[simp] theorem State.modCan_cipher (f : CanPort → CanPort) : (s.modCan i f).cipher = s.cipher := rfl
@[simp] theorem State.modCan_sealing (f : CanPort → CanPort) : (s.modCan i f).sealing = s.sealing := rfl
@[simp] theorem State.modCan_periph (f : CanPort → CanPort) : (s.modCan i f).periph = { s.periph with cans := modAt s.periph.cans i f } := rfl
@[simp] theorem State.modCan_inputs (f : CanPort → CanPort) : (s.modCan i f).inputs = s.inputs := rfl
@[simp] theorem State.modCan_subbands (f : CanPort → CanPort) : (s.modCan i f).subbands = s.subbands := rfl
@[simp] theorem State.modCan_grinder (f : CanPort → CanPort) : (s.modCan i f).grinder = s.grinder := rfl
@[simp] theorem State.modCan_fabric (f : CanPort → CanPort) : (s.modCan i f).fabric = s.fabric := rfl
@[simp] theorem State.modCan_tracking (f : CanPort → CanPort) : (s.modCan i f).tracking = s.tracking := rfl
@[simp] theorem State.modCan_carafe (f : CanPort → CanPort) : (s.modCan i f).carafe = s.carafe := rfl
@[simp] theorem State.modCan_timeSys (f : CanPort → CanPort) : (s.modCan i f).timeSys = s.timeSys := rfl
@[simp] theorem State.modCan_nav (f : CanPort → CanPort) : (s.modCan i f).nav = s.nav := rfl
@[simp] theorem State.modCan_corr (f : CanPort → CanPort) : (s.modCan i f).corr = s.corr := rfl
@[simp] theorem State.modCan_eth (f : CanPort → CanPort) : (s.modCan i f).eth = s.eth := rfl
@[simp] theorem State.modCan_freeCtr (f : CanPort → CanPort) : (s.modCan i f).freeCtr = s.freeCtr := rfl

@[simp] theorem State.modWheel_pending (f : WheelIn → WheelIn) : (s.modWheel i f).pending = s.pending := rfl
@[simp] theorem State.modWheel_nv (f : WheelIn → WheelIn) : (s.modWheel i f).nv = s.nv := rfl
@[simp] theorem State.modWheel_time (f : WheelIn → WheelIn) : (s.modWheel i f).time = s.time := rfl
@[simp] theorem State.modWheel_overruns (f : WheelIn → WheelIn) : (s.modWheel i f).overruns = s.overruns := rfl
@[simp] theorem State.modWheel_sessions (f : WheelIn → WheelIn) : (s.modWheel i f).sessions = s.sessions := rfl
@[simp] theorem State.modWheel_transports (f : WheelIn → WheelIn) : (s.modWheel i f).transports = s.transports := rfl
@[simp] theorem State.modWheel_power (f : WheelIn → WheelIn) : (s.modWheel i f).power = s.power := rfl
@[simp] theorem State.modWheel_holdup (f : WheelIn → WheelIn) : (s.modWheel i f).holdup = s.holdup := rfl
@[simp] theorem State.modWheel_perc (f : WheelIn → WheelIn) : (s.modWheel i f).perc = s.perc := rfl
@[simp] theorem State.modWheel_boot (f : WheelIn → WheelIn) : (s.modWheel i f).boot = s.boot := rfl
@[simp] theorem State.modWheel_tap (f : WheelIn → WheelIn) : (s.modWheel i f).tap = s.tap := rfl
@[simp] theorem State.modWheel_tripLog (f : WheelIn → WheelIn) : (s.modWheel i f).tripLog = s.tripLog := rfl
@[simp] theorem State.modWheel_faultLog (f : WheelIn → WheelIn) : (s.modWheel i f).faultLog = s.faultLog := rfl
@[simp] theorem State.modWheel_mem (f : WheelIn → WheelIn) : (s.modWheel i f).mem = s.mem := rfl
@[simp] theorem State.modWheel_cores (f : WheelIn → WheelIn) : (s.modWheel i f).cores = s.cores := rfl
@[simp] theorem State.modWheel_uc (f : WheelIn → WheelIn) : (s.modWheel i f).uc = s.uc := rfl
@[simp] theorem State.modWheel_cipher (f : WheelIn → WheelIn) : (s.modWheel i f).cipher = s.cipher := rfl
@[simp] theorem State.modWheel_sealing (f : WheelIn → WheelIn) : (s.modWheel i f).sealing = s.sealing := rfl
@[simp] theorem State.modWheel_periph (f : WheelIn → WheelIn) : (s.modWheel i f).periph = { s.periph with wheels := modAt s.periph.wheels i f } := rfl
@[simp] theorem State.modWheel_inputs (f : WheelIn → WheelIn) : (s.modWheel i f).inputs = s.inputs := rfl
@[simp] theorem State.modWheel_subbands (f : WheelIn → WheelIn) : (s.modWheel i f).subbands = s.subbands := rfl
@[simp] theorem State.modWheel_grinder (f : WheelIn → WheelIn) : (s.modWheel i f).grinder = s.grinder := rfl
@[simp] theorem State.modWheel_fabric (f : WheelIn → WheelIn) : (s.modWheel i f).fabric = s.fabric := rfl
@[simp] theorem State.modWheel_tracking (f : WheelIn → WheelIn) : (s.modWheel i f).tracking = s.tracking := rfl
@[simp] theorem State.modWheel_carafe (f : WheelIn → WheelIn) : (s.modWheel i f).carafe = s.carafe := rfl
@[simp] theorem State.modWheel_timeSys (f : WheelIn → WheelIn) : (s.modWheel i f).timeSys = s.timeSys := rfl
@[simp] theorem State.modWheel_nav (f : WheelIn → WheelIn) : (s.modWheel i f).nav = s.nav := rfl
@[simp] theorem State.modWheel_corr (f : WheelIn → WheelIn) : (s.modWheel i f).corr = s.corr := rfl
@[simp] theorem State.modWheel_eth (f : WheelIn → WheelIn) : (s.modWheel i f).eth = s.eth := rfl
@[simp] theorem State.modWheel_freeCtr (f : WheelIn → WheelIn) : (s.modWheel i f).freeCtr = s.freeCtr := rfl

@[simp] theorem State.modGpio_pending (f : GpioPin → GpioPin) : (s.modGpio i f).pending = s.pending := rfl
@[simp] theorem State.modGpio_nv (f : GpioPin → GpioPin) : (s.modGpio i f).nv = s.nv := rfl
@[simp] theorem State.modGpio_time (f : GpioPin → GpioPin) : (s.modGpio i f).time = s.time := rfl
@[simp] theorem State.modGpio_overruns (f : GpioPin → GpioPin) : (s.modGpio i f).overruns = s.overruns := rfl
@[simp] theorem State.modGpio_sessions (f : GpioPin → GpioPin) : (s.modGpio i f).sessions = s.sessions := rfl
@[simp] theorem State.modGpio_transports (f : GpioPin → GpioPin) : (s.modGpio i f).transports = s.transports := rfl
@[simp] theorem State.modGpio_power (f : GpioPin → GpioPin) : (s.modGpio i f).power = s.power := rfl
@[simp] theorem State.modGpio_holdup (f : GpioPin → GpioPin) : (s.modGpio i f).holdup = s.holdup := rfl
@[simp] theorem State.modGpio_perc (f : GpioPin → GpioPin) : (s.modGpio i f).perc = s.perc := rfl
@[simp] theorem State.modGpio_boot (f : GpioPin → GpioPin) : (s.modGpio i f).boot = s.boot := rfl
@[simp] theorem State.modGpio_tap (f : GpioPin → GpioPin) : (s.modGpio i f).tap = s.tap := rfl
@[simp] theorem State.modGpio_tripLog (f : GpioPin → GpioPin) : (s.modGpio i f).tripLog = s.tripLog := rfl
@[simp] theorem State.modGpio_faultLog (f : GpioPin → GpioPin) : (s.modGpio i f).faultLog = s.faultLog := rfl
@[simp] theorem State.modGpio_mem (f : GpioPin → GpioPin) : (s.modGpio i f).mem = s.mem := rfl
@[simp] theorem State.modGpio_cores (f : GpioPin → GpioPin) : (s.modGpio i f).cores = s.cores := rfl
@[simp] theorem State.modGpio_uc (f : GpioPin → GpioPin) : (s.modGpio i f).uc = s.uc := rfl
@[simp] theorem State.modGpio_cipher (f : GpioPin → GpioPin) : (s.modGpio i f).cipher = s.cipher := rfl
@[simp] theorem State.modGpio_sealing (f : GpioPin → GpioPin) : (s.modGpio i f).sealing = s.sealing := rfl
@[simp] theorem State.modGpio_periph (f : GpioPin → GpioPin) : (s.modGpio i f).periph = { s.periph with gpio := modAt s.periph.gpio i f } := rfl
@[simp] theorem State.modGpio_inputs (f : GpioPin → GpioPin) : (s.modGpio i f).inputs = s.inputs := rfl
@[simp] theorem State.modGpio_subbands (f : GpioPin → GpioPin) : (s.modGpio i f).subbands = s.subbands := rfl
@[simp] theorem State.modGpio_grinder (f : GpioPin → GpioPin) : (s.modGpio i f).grinder = s.grinder := rfl
@[simp] theorem State.modGpio_fabric (f : GpioPin → GpioPin) : (s.modGpio i f).fabric = s.fabric := rfl
@[simp] theorem State.modGpio_tracking (f : GpioPin → GpioPin) : (s.modGpio i f).tracking = s.tracking := rfl
@[simp] theorem State.modGpio_carafe (f : GpioPin → GpioPin) : (s.modGpio i f).carafe = s.carafe := rfl
@[simp] theorem State.modGpio_timeSys (f : GpioPin → GpioPin) : (s.modGpio i f).timeSys = s.timeSys := rfl
@[simp] theorem State.modGpio_nav (f : GpioPin → GpioPin) : (s.modGpio i f).nav = s.nav := rfl
@[simp] theorem State.modGpio_corr (f : GpioPin → GpioPin) : (s.modGpio i f).corr = s.corr := rfl
@[simp] theorem State.modGpio_eth (f : GpioPin → GpioPin) : (s.modGpio i f).eth = s.eth := rfl
@[simp] theorem State.modGpio_freeCtr (f : GpioPin → GpioPin) : (s.modGpio i f).freeCtr = s.freeCtr := rfl

@[simp] theorem State.modInput_pending (f : SampleInput → SampleInput) : (s.modInput i f).pending = s.pending := rfl
@[simp] theorem State.modInput_nv (f : SampleInput → SampleInput) : (s.modInput i f).nv = s.nv := rfl
@[simp] theorem State.modInput_time (f : SampleInput → SampleInput) : (s.modInput i f).time = s.time := rfl
@[simp] theorem State.modInput_overruns (f : SampleInput → SampleInput) : (s.modInput i f).overruns = s.overruns := rfl
@[simp] theorem State.modInput_sessions (f : SampleInput → SampleInput) : (s.modInput i f).sessions = s.sessions := rfl
@[simp] theorem State.modInput_transports (f : SampleInput → SampleInput) : (s.modInput i f).transports = s.transports := rfl
@[simp] theorem State.modInput_power (f : SampleInput → SampleInput) : (s.modInput i f).power = s.power := rfl
@[simp] theorem State.modInput_holdup (f : SampleInput → SampleInput) : (s.modInput i f).holdup = s.holdup := rfl
@[simp] theorem State.modInput_perc (f : SampleInput → SampleInput) : (s.modInput i f).perc = s.perc := rfl
@[simp] theorem State.modInput_boot (f : SampleInput → SampleInput) : (s.modInput i f).boot = s.boot := rfl
@[simp] theorem State.modInput_tap (f : SampleInput → SampleInput) : (s.modInput i f).tap = s.tap := rfl
@[simp] theorem State.modInput_tripLog (f : SampleInput → SampleInput) : (s.modInput i f).tripLog = s.tripLog := rfl
@[simp] theorem State.modInput_faultLog (f : SampleInput → SampleInput) : (s.modInput i f).faultLog = s.faultLog := rfl
@[simp] theorem State.modInput_mem (f : SampleInput → SampleInput) : (s.modInput i f).mem = s.mem := rfl
@[simp] theorem State.modInput_cores (f : SampleInput → SampleInput) : (s.modInput i f).cores = s.cores := rfl
@[simp] theorem State.modInput_uc (f : SampleInput → SampleInput) : (s.modInput i f).uc = s.uc := rfl
@[simp] theorem State.modInput_cipher (f : SampleInput → SampleInput) : (s.modInput i f).cipher = s.cipher := rfl
@[simp] theorem State.modInput_sealing (f : SampleInput → SampleInput) : (s.modInput i f).sealing = s.sealing := rfl
@[simp] theorem State.modInput_periph (f : SampleInput → SampleInput) : (s.modInput i f).periph = s.periph := rfl
@[simp] theorem State.modInput_inputs (f : SampleInput → SampleInput) : (s.modInput i f).inputs = modAt s.inputs i f := rfl
@[simp] theorem State.modInput_subbands (f : SampleInput → SampleInput) : (s.modInput i f).subbands = s.subbands := rfl
@[simp] theorem State.modInput_grinder (f : SampleInput → SampleInput) : (s.modInput i f).grinder = s.grinder := rfl
@[simp] theorem State.modInput_fabric (f : SampleInput → SampleInput) : (s.modInput i f).fabric = s.fabric := rfl
@[simp] theorem State.modInput_tracking (f : SampleInput → SampleInput) : (s.modInput i f).tracking = s.tracking := rfl
@[simp] theorem State.modInput_carafe (f : SampleInput → SampleInput) : (s.modInput i f).carafe = s.carafe := rfl
@[simp] theorem State.modInput_timeSys (f : SampleInput → SampleInput) : (s.modInput i f).timeSys = s.timeSys := rfl
@[simp] theorem State.modInput_nav (f : SampleInput → SampleInput) : (s.modInput i f).nav = s.nav := rfl
@[simp] theorem State.modInput_corr (f : SampleInput → SampleInput) : (s.modInput i f).corr = s.corr := rfl
@[simp] theorem State.modInput_eth (f : SampleInput → SampleInput) : (s.modInput i f).eth = s.eth := rfl
@[simp] theorem State.modInput_freeCtr (f : SampleInput → SampleInput) : (s.modInput i f).freeCtr = s.freeCtr := rfl

@[simp] theorem State.modSubband_pending (f : Subband → Subband) : (s.modSubband i f).pending = s.pending := rfl
@[simp] theorem State.modSubband_nv (f : Subband → Subband) : (s.modSubband i f).nv = s.nv := rfl
@[simp] theorem State.modSubband_time (f : Subband → Subband) : (s.modSubband i f).time = s.time := rfl
@[simp] theorem State.modSubband_overruns (f : Subband → Subband) : (s.modSubband i f).overruns = s.overruns := rfl
@[simp] theorem State.modSubband_sessions (f : Subband → Subband) : (s.modSubband i f).sessions = s.sessions := rfl
@[simp] theorem State.modSubband_transports (f : Subband → Subband) : (s.modSubband i f).transports = s.transports := rfl
@[simp] theorem State.modSubband_power (f : Subband → Subband) : (s.modSubband i f).power = s.power := rfl
@[simp] theorem State.modSubband_holdup (f : Subband → Subband) : (s.modSubband i f).holdup = s.holdup := rfl
@[simp] theorem State.modSubband_perc (f : Subband → Subband) : (s.modSubband i f).perc = s.perc := rfl
@[simp] theorem State.modSubband_boot (f : Subband → Subband) : (s.modSubband i f).boot = s.boot := rfl
@[simp] theorem State.modSubband_tap (f : Subband → Subband) : (s.modSubband i f).tap = s.tap := rfl
@[simp] theorem State.modSubband_tripLog (f : Subband → Subband) : (s.modSubband i f).tripLog = s.tripLog := rfl
@[simp] theorem State.modSubband_faultLog (f : Subband → Subband) : (s.modSubband i f).faultLog = s.faultLog := rfl
@[simp] theorem State.modSubband_mem (f : Subband → Subband) : (s.modSubband i f).mem = s.mem := rfl
@[simp] theorem State.modSubband_cores (f : Subband → Subband) : (s.modSubband i f).cores = s.cores := rfl
@[simp] theorem State.modSubband_uc (f : Subband → Subband) : (s.modSubband i f).uc = s.uc := rfl
@[simp] theorem State.modSubband_cipher (f : Subband → Subband) : (s.modSubband i f).cipher = s.cipher := rfl
@[simp] theorem State.modSubband_sealing (f : Subband → Subband) : (s.modSubband i f).sealing = s.sealing := rfl
@[simp] theorem State.modSubband_periph (f : Subband → Subband) : (s.modSubband i f).periph = s.periph := rfl
@[simp] theorem State.modSubband_inputs (f : Subband → Subband) : (s.modSubband i f).inputs = s.inputs := rfl
@[simp] theorem State.modSubband_subbands (f : Subband → Subband) : (s.modSubband i f).subbands = modAt s.subbands i f := rfl
@[simp] theorem State.modSubband_grinder (f : Subband → Subband) : (s.modSubband i f).grinder = s.grinder := rfl
@[simp] theorem State.modSubband_fabric (f : Subband → Subband) : (s.modSubband i f).fabric = s.fabric := rfl
@[simp] theorem State.modSubband_tracking (f : Subband → Subband) : (s.modSubband i f).tracking = s.tracking := rfl
@[simp] theorem State.modSubband_carafe (f : Subband → Subband) : (s.modSubband i f).carafe = s.carafe := rfl
@[simp] theorem State.modSubband_timeSys (f : Subband → Subband) : (s.modSubband i f).timeSys = s.timeSys := rfl
@[simp] theorem State.modSubband_nav (f : Subband → Subband) : (s.modSubband i f).nav = s.nav := rfl
@[simp] theorem State.modSubband_corr (f : Subband → Subband) : (s.modSubband i f).corr = s.corr := rfl
@[simp] theorem State.modSubband_eth (f : Subband → Subband) : (s.modSubband i f).eth = s.eth := rfl
@[simp] theorem State.modSubband_freeCtr (f : Subband → Subband) : (s.modSubband i f).freeCtr = s.freeCtr := rfl

@[simp] theorem State.modCarafe_pending (f : Carafe → Carafe) : (s.modCarafe f).pending = s.pending := rfl
@[simp] theorem State.modCarafe_nv (f : Carafe → Carafe) : (s.modCarafe f).nv = s.nv := rfl
@[simp] theorem State.modCarafe_time (f : Carafe → Carafe) : (s.modCarafe f).time = s.time := rfl
@[simp] theorem State.modCarafe_overruns (f : Carafe → Carafe) : (s.modCarafe f).overruns = s.overruns := rfl
@[simp] theorem State.modCarafe_sessions (f : Carafe → Carafe) : (s.modCarafe f).sessions = s.sessions := rfl
@[simp] theorem State.modCarafe_transports (f : Carafe → Carafe) : (s.modCarafe f).transports = s.transports := rfl
@[simp] theorem State.modCarafe_power (f : Carafe → Carafe) : (s.modCarafe f).power = s.power := rfl
@[simp] theorem State.modCarafe_holdup (f : Carafe → Carafe) : (s.modCarafe f).holdup = s.holdup := rfl
@[simp] theorem State.modCarafe_perc (f : Carafe → Carafe) : (s.modCarafe f).perc = s.perc := rfl
@[simp] theorem State.modCarafe_boot (f : Carafe → Carafe) : (s.modCarafe f).boot = s.boot := rfl
@[simp] theorem State.modCarafe_tap (f : Carafe → Carafe) : (s.modCarafe f).tap = s.tap := rfl
@[simp] theorem State.modCarafe_tripLog (f : Carafe → Carafe) : (s.modCarafe f).tripLog = s.tripLog := rfl
@[simp] theorem State.modCarafe_faultLog (f : Carafe → Carafe) : (s.modCarafe f).faultLog = s.faultLog := rfl
@[simp] theorem State.modCarafe_mem (f : Carafe → Carafe) : (s.modCarafe f).mem = s.mem := rfl
@[simp] theorem State.modCarafe_cores (f : Carafe → Carafe) : (s.modCarafe f).cores = s.cores := rfl
@[simp] theorem State.modCarafe_uc (f : Carafe → Carafe) : (s.modCarafe f).uc = s.uc := rfl
@[simp] theorem State.modCarafe_cipher (f : Carafe → Carafe) : (s.modCarafe f).cipher = s.cipher := rfl
@[simp] theorem State.modCarafe_sealing (f : Carafe → Carafe) : (s.modCarafe f).sealing = s.sealing := rfl
@[simp] theorem State.modCarafe_periph (f : Carafe → Carafe) : (s.modCarafe f).periph = s.periph := rfl
@[simp] theorem State.modCarafe_inputs (f : Carafe → Carafe) : (s.modCarafe f).inputs = s.inputs := rfl
@[simp] theorem State.modCarafe_subbands (f : Carafe → Carafe) : (s.modCarafe f).subbands = s.subbands := rfl
@[simp] theorem State.modCarafe_grinder (f : Carafe → Carafe) : (s.modCarafe f).grinder = s.grinder := rfl
@[simp] theorem State.modCarafe_fabric (f : Carafe → Carafe) : (s.modCarafe f).fabric = s.fabric := rfl
@[simp] theorem State.modCarafe_tracking (f : Carafe → Carafe) : (s.modCarafe f).tracking = s.tracking := rfl
@[simp] theorem State.modCarafe_carafe (f : Carafe → Carafe) : (s.modCarafe f).carafe = f s.carafe := rfl
@[simp] theorem State.modCarafe_timeSys (f : Carafe → Carafe) : (s.modCarafe f).timeSys = s.timeSys := rfl
@[simp] theorem State.modCarafe_nav (f : Carafe → Carafe) : (s.modCarafe f).nav = s.nav := rfl
@[simp] theorem State.modCarafe_corr (f : Carafe → Carafe) : (s.modCarafe f).corr = s.corr := rfl
@[simp] theorem State.modCarafe_eth (f : Carafe → Carafe) : (s.modCarafe f).eth = s.eth := rfl
@[simp] theorem State.modCarafe_freeCtr (f : Carafe → Carafe) : (s.modCarafe f).freeCtr = s.freeCtr := rfl

@[simp] theorem State.modClock_pending (f : Clock → Clock) : (s.modClock f).pending = s.pending := rfl
@[simp] theorem State.modClock_nv (f : Clock → Clock) : (s.modClock f).nv = s.nv := rfl
@[simp] theorem State.modClock_time (f : Clock → Clock) : (s.modClock f).time = s.time := rfl
@[simp] theorem State.modClock_overruns (f : Clock → Clock) : (s.modClock f).overruns = s.overruns := rfl
@[simp] theorem State.modClock_sessions (f : Clock → Clock) : (s.modClock f).sessions = s.sessions := rfl
@[simp] theorem State.modClock_transports (f : Clock → Clock) : (s.modClock f).transports = s.transports := rfl
@[simp] theorem State.modClock_power (f : Clock → Clock) : (s.modClock f).power = s.power := rfl
@[simp] theorem State.modClock_holdup (f : Clock → Clock) : (s.modClock f).holdup = s.holdup := rfl
@[simp] theorem State.modClock_perc (f : Clock → Clock) : (s.modClock f).perc = s.perc := rfl
@[simp] theorem State.modClock_boot (f : Clock → Clock) : (s.modClock f).boot = s.boot := rfl
@[simp] theorem State.modClock_tap (f : Clock → Clock) : (s.modClock f).tap = s.tap := rfl
@[simp] theorem State.modClock_tripLog (f : Clock → Clock) : (s.modClock f).tripLog = s.tripLog := rfl
@[simp] theorem State.modClock_faultLog (f : Clock → Clock) : (s.modClock f).faultLog = s.faultLog := rfl
@[simp] theorem State.modClock_mem (f : Clock → Clock) : (s.modClock f).mem = s.mem := rfl
@[simp] theorem State.modClock_cores (f : Clock → Clock) : (s.modClock f).cores = s.cores := rfl
@[simp] theorem State.modClock_uc (f : Clock → Clock) : (s.modClock f).uc = s.uc := rfl
@[simp] theorem State.modClock_cipher (f : Clock → Clock) : (s.modClock f).cipher = s.cipher := rfl
@[simp] theorem State.modClock_sealing (f : Clock → Clock) : (s.modClock f).sealing = s.sealing := rfl
@[simp] theorem State.modClock_periph (f : Clock → Clock) : (s.modClock f).periph = s.periph := rfl
@[simp] theorem State.modClock_inputs (f : Clock → Clock) : (s.modClock f).inputs = s.inputs := rfl
@[simp] theorem State.modClock_subbands (f : Clock → Clock) : (s.modClock f).subbands = s.subbands := rfl
@[simp] theorem State.modClock_grinder (f : Clock → Clock) : (s.modClock f).grinder = s.grinder := rfl
@[simp] theorem State.modClock_fabric (f : Clock → Clock) : (s.modClock f).fabric = s.fabric := rfl
@[simp] theorem State.modClock_tracking (f : Clock → Clock) : (s.modClock f).tracking = s.tracking := rfl
@[simp] theorem State.modClock_carafe (f : Clock → Clock) : (s.modClock f).carafe = s.carafe := rfl
@[simp] theorem State.modClock_timeSys (f : Clock → Clock) : (s.modClock f).timeSys = { s.timeSys with clock := f s.timeSys.clock } := rfl
@[simp] theorem State.modClock_nav (f : Clock → Clock) : (s.modClock f).nav = s.nav := rfl
@[simp] theorem State.modClock_corr (f : Clock → Clock) : (s.modClock f).corr = s.corr := rfl
@[simp] theorem State.modClock_eth (f : Clock → Clock) : (s.modClock f).eth = s.eth := rfl
@[simp] theorem State.modClock_freeCtr (f : Clock → Clock) : (s.modClock f).freeCtr = s.freeCtr := rfl

@[simp] theorem State.modNav_pending (f : NavSys → NavSys) : (s.modNav f).pending = s.pending := rfl
@[simp] theorem State.modNav_nv (f : NavSys → NavSys) : (s.modNav f).nv = s.nv := rfl
@[simp] theorem State.modNav_time (f : NavSys → NavSys) : (s.modNav f).time = s.time := rfl
@[simp] theorem State.modNav_overruns (f : NavSys → NavSys) : (s.modNav f).overruns = s.overruns := rfl
@[simp] theorem State.modNav_sessions (f : NavSys → NavSys) : (s.modNav f).sessions = s.sessions := rfl
@[simp] theorem State.modNav_transports (f : NavSys → NavSys) : (s.modNav f).transports = s.transports := rfl
@[simp] theorem State.modNav_power (f : NavSys → NavSys) : (s.modNav f).power = s.power := rfl
@[simp] theorem State.modNav_holdup (f : NavSys → NavSys) : (s.modNav f).holdup = s.holdup := rfl
@[simp] theorem State.modNav_perc (f : NavSys → NavSys) : (s.modNav f).perc = s.perc := rfl
@[simp] theorem State.modNav_boot (f : NavSys → NavSys) : (s.modNav f).boot = s.boot := rfl
@[simp] theorem State.modNav_tap (f : NavSys → NavSys) : (s.modNav f).tap = s.tap := rfl
@[simp] theorem State.modNav_tripLog (f : NavSys → NavSys) : (s.modNav f).tripLog = s.tripLog := rfl
@[simp] theorem State.modNav_faultLog (f : NavSys → NavSys) : (s.modNav f).faultLog = s.faultLog := rfl
@[simp] theorem State.modNav_mem (f : NavSys → NavSys) : (s.modNav f).mem = s.mem := rfl
@[simp] theorem State.modNav_cores (f : NavSys → NavSys) : (s.modNav f).cores = s.cores := rfl
@[simp] theorem State.modNav_uc (f : NavSys → NavSys) : (s.modNav f).uc = s.uc := rfl
@[simp] theorem State.modNav_cipher (f : NavSys → NavSys) : (s.modNav f).cipher = s.cipher := rfl
@[simp] theorem State.modNav_sealing (f : NavSys → NavSys) : (s.modNav f).sealing = s.sealing := rfl
@[simp] theorem State.modNav_periph (f : NavSys → NavSys) : (s.modNav f).periph = s.periph := rfl
@[simp] theorem State.modNav_inputs (f : NavSys → NavSys) : (s.modNav f).inputs = s.inputs := rfl
@[simp] theorem State.modNav_subbands (f : NavSys → NavSys) : (s.modNav f).subbands = s.subbands := rfl
@[simp] theorem State.modNav_grinder (f : NavSys → NavSys) : (s.modNav f).grinder = s.grinder := rfl
@[simp] theorem State.modNav_fabric (f : NavSys → NavSys) : (s.modNav f).fabric = s.fabric := rfl
@[simp] theorem State.modNav_tracking (f : NavSys → NavSys) : (s.modNav f).tracking = s.tracking := rfl
@[simp] theorem State.modNav_carafe (f : NavSys → NavSys) : (s.modNav f).carafe = s.carafe := rfl
@[simp] theorem State.modNav_timeSys (f : NavSys → NavSys) : (s.modNav f).timeSys = s.timeSys := rfl
@[simp] theorem State.modNav_nav (f : NavSys → NavSys) : (s.modNav f).nav = f s.nav := rfl
@[simp] theorem State.modNav_corr (f : NavSys → NavSys) : (s.modNav f).corr = s.corr := rfl
@[simp] theorem State.modNav_eth (f : NavSys → NavSys) : (s.modNav f).eth = s.eth := rfl
@[simp] theorem State.modNav_freeCtr (f : NavSys → NavSys) : (s.modNav f).freeCtr = s.freeCtr := rfl

@[simp] theorem State.modImu_pending (f : ImuState → ImuState) : (s.modImu f).pending = s.pending := rfl
@[simp] theorem State.modImu_nv (f : ImuState → ImuState) : (s.modImu f).nv = s.nv := rfl
@[simp] theorem State.modImu_time (f : ImuState → ImuState) : (s.modImu f).time = s.time := rfl
@[simp] theorem State.modImu_overruns (f : ImuState → ImuState) : (s.modImu f).overruns = s.overruns := rfl
@[simp] theorem State.modImu_sessions (f : ImuState → ImuState) : (s.modImu f).sessions = s.sessions := rfl
@[simp] theorem State.modImu_transports (f : ImuState → ImuState) : (s.modImu f).transports = s.transports := rfl
@[simp] theorem State.modImu_power (f : ImuState → ImuState) : (s.modImu f).power = s.power := rfl
@[simp] theorem State.modImu_holdup (f : ImuState → ImuState) : (s.modImu f).holdup = s.holdup := rfl
@[simp] theorem State.modImu_perc (f : ImuState → ImuState) : (s.modImu f).perc = s.perc := rfl
@[simp] theorem State.modImu_boot (f : ImuState → ImuState) : (s.modImu f).boot = s.boot := rfl
@[simp] theorem State.modImu_tap (f : ImuState → ImuState) : (s.modImu f).tap = s.tap := rfl
@[simp] theorem State.modImu_tripLog (f : ImuState → ImuState) : (s.modImu f).tripLog = s.tripLog := rfl
@[simp] theorem State.modImu_faultLog (f : ImuState → ImuState) : (s.modImu f).faultLog = s.faultLog := rfl
@[simp] theorem State.modImu_mem (f : ImuState → ImuState) : (s.modImu f).mem = s.mem := rfl
@[simp] theorem State.modImu_cores (f : ImuState → ImuState) : (s.modImu f).cores = s.cores := rfl
@[simp] theorem State.modImu_uc (f : ImuState → ImuState) : (s.modImu f).uc = s.uc := rfl
@[simp] theorem State.modImu_cipher (f : ImuState → ImuState) : (s.modImu f).cipher = s.cipher := rfl
@[simp] theorem State.modImu_sealing (f : ImuState → ImuState) : (s.modImu f).sealing = s.sealing := rfl
@[simp] theorem State.modImu_periph (f : ImuState → ImuState) : (s.modImu f).periph = s.periph := rfl
@[simp] theorem State.modImu_inputs (f : ImuState → ImuState) : (s.modImu f).inputs = s.inputs := rfl
@[simp] theorem State.modImu_subbands (f : ImuState → ImuState) : (s.modImu f).subbands = s.subbands := rfl
@[simp] theorem State.modImu_grinder (f : ImuState → ImuState) : (s.modImu f).grinder = s.grinder := rfl
@[simp] theorem State.modImu_fabric (f : ImuState → ImuState) : (s.modImu f).fabric = s.fabric := rfl
@[simp] theorem State.modImu_tracking (f : ImuState → ImuState) : (s.modImu f).tracking = s.tracking := rfl
@[simp] theorem State.modImu_carafe (f : ImuState → ImuState) : (s.modImu f).carafe = s.carafe := rfl
@[simp] theorem State.modImu_timeSys (f : ImuState → ImuState) : (s.modImu f).timeSys = s.timeSys := rfl
@[simp] theorem State.modImu_nav (f : ImuState → ImuState) : (s.modImu f).nav = { s.nav with imu := f s.nav.imu } := rfl
@[simp] theorem State.modImu_corr (f : ImuState → ImuState) : (s.modImu f).corr = s.corr := rfl
@[simp] theorem State.modImu_eth (f : ImuState → ImuState) : (s.modImu f).eth = s.eth := rfl
@[simp] theorem State.modImu_freeCtr (f : ImuState → ImuState) : (s.modImu f).freeCtr = s.freeCtr := rfl

@[simp] theorem State.modCorr_pending (f : CorrSys → CorrSys) : (s.modCorr f).pending = s.pending := rfl
@[simp] theorem State.modCorr_nv (f : CorrSys → CorrSys) : (s.modCorr f).nv = s.nv := rfl
@[simp] theorem State.modCorr_time (f : CorrSys → CorrSys) : (s.modCorr f).time = s.time := rfl
@[simp] theorem State.modCorr_overruns (f : CorrSys → CorrSys) : (s.modCorr f).overruns = s.overruns := rfl
@[simp] theorem State.modCorr_sessions (f : CorrSys → CorrSys) : (s.modCorr f).sessions = s.sessions := rfl
@[simp] theorem State.modCorr_transports (f : CorrSys → CorrSys) : (s.modCorr f).transports = s.transports := rfl
@[simp] theorem State.modCorr_power (f : CorrSys → CorrSys) : (s.modCorr f).power = s.power := rfl
@[simp] theorem State.modCorr_holdup (f : CorrSys → CorrSys) : (s.modCorr f).holdup = s.holdup := rfl
@[simp] theorem State.modCorr_perc (f : CorrSys → CorrSys) : (s.modCorr f).perc = s.perc := rfl
@[simp] theorem State.modCorr_boot (f : CorrSys → CorrSys) : (s.modCorr f).boot = s.boot := rfl
@[simp] theorem State.modCorr_tap (f : CorrSys → CorrSys) : (s.modCorr f).tap = s.tap := rfl
@[simp] theorem State.modCorr_tripLog (f : CorrSys → CorrSys) : (s.modCorr f).tripLog = s.tripLog := rfl
@[simp] theorem State.modCorr_faultLog (f : CorrSys → CorrSys) : (s.modCorr f).faultLog = s.faultLog := rfl
@[simp] theorem State.modCorr_mem (f : CorrSys → CorrSys) : (s.modCorr f).mem = s.mem := rfl
@[simp] theorem State.modCorr_cores (f : CorrSys → CorrSys) : (s.modCorr f).cores = s.cores := rfl
@[simp] theorem State.modCorr_uc (f : CorrSys → CorrSys) : (s.modCorr f).uc = s.uc := rfl
@[simp] theorem State.modCorr_cipher (f : CorrSys → CorrSys) : (s.modCorr f).cipher = s.cipher := rfl
@[simp] theorem State.modCorr_sealing (f : CorrSys → CorrSys) : (s.modCorr f).sealing = s.sealing := rfl
@[simp] theorem State.modCorr_periph (f : CorrSys → CorrSys) : (s.modCorr f).periph = s.periph := rfl
@[simp] theorem State.modCorr_inputs (f : CorrSys → CorrSys) : (s.modCorr f).inputs = s.inputs := rfl
@[simp] theorem State.modCorr_subbands (f : CorrSys → CorrSys) : (s.modCorr f).subbands = s.subbands := rfl
@[simp] theorem State.modCorr_grinder (f : CorrSys → CorrSys) : (s.modCorr f).grinder = s.grinder := rfl
@[simp] theorem State.modCorr_fabric (f : CorrSys → CorrSys) : (s.modCorr f).fabric = s.fabric := rfl
@[simp] theorem State.modCorr_tracking (f : CorrSys → CorrSys) : (s.modCorr f).tracking = s.tracking := rfl
@[simp] theorem State.modCorr_carafe (f : CorrSys → CorrSys) : (s.modCorr f).carafe = s.carafe := rfl
@[simp] theorem State.modCorr_timeSys (f : CorrSys → CorrSys) : (s.modCorr f).timeSys = s.timeSys := rfl
@[simp] theorem State.modCorr_nav (f : CorrSys → CorrSys) : (s.modCorr f).nav = s.nav := rfl
@[simp] theorem State.modCorr_corr (f : CorrSys → CorrSys) : (s.modCorr f).corr = f s.corr := rfl
@[simp] theorem State.modCorr_eth (f : CorrSys → CorrSys) : (s.modCorr f).eth = s.eth := rfl
@[simp] theorem State.modCorr_freeCtr (f : CorrSys → CorrSys) : (s.modCorr f).freeCtr = s.freeCtr := rfl

@[simp] theorem State.modDomain_pending (f : Domain → Domain) : (s.modDomain f).pending = s.pending := rfl
@[simp] theorem State.modDomain_nv (f : Domain → Domain) : (s.modDomain f).nv = s.nv := rfl
@[simp] theorem State.modDomain_time (f : Domain → Domain) : (s.modDomain f).time = s.time := rfl
@[simp] theorem State.modDomain_overruns (f : Domain → Domain) : (s.modDomain f).overruns = s.overruns := rfl
@[simp] theorem State.modDomain_sessions (f : Domain → Domain) : (s.modDomain f).sessions = s.sessions := rfl
@[simp] theorem State.modDomain_transports (f : Domain → Domain) : (s.modDomain f).transports = s.transports := rfl
@[simp] theorem State.modDomain_power (f : Domain → Domain) : (s.modDomain f).power = s.power := rfl
@[simp] theorem State.modDomain_holdup (f : Domain → Domain) : (s.modDomain f).holdup = s.holdup := rfl
@[simp] theorem State.modDomain_perc (f : Domain → Domain) : (s.modDomain f).perc = s.perc := rfl
@[simp] theorem State.modDomain_boot (f : Domain → Domain) : (s.modDomain f).boot = s.boot := rfl
@[simp] theorem State.modDomain_tap (f : Domain → Domain) : (s.modDomain f).tap = s.tap := rfl
@[simp] theorem State.modDomain_tripLog (f : Domain → Domain) : (s.modDomain f).tripLog = s.tripLog := rfl
@[simp] theorem State.modDomain_faultLog (f : Domain → Domain) : (s.modDomain f).faultLog = s.faultLog := rfl
@[simp] theorem State.modDomain_mem (f : Domain → Domain) : (s.modDomain f).mem = s.mem := rfl
@[simp] theorem State.modDomain_cores (f : Domain → Domain) : (s.modDomain f).cores = s.cores := rfl
@[simp] theorem State.modDomain_uc (f : Domain → Domain) : (s.modDomain f).uc = s.uc := rfl
@[simp] theorem State.modDomain_cipher (f : Domain → Domain) : (s.modDomain f).cipher = s.cipher := rfl
@[simp] theorem State.modDomain_sealing (f : Domain → Domain) : (s.modDomain f).sealing = s.sealing := rfl
@[simp] theorem State.modDomain_periph (f : Domain → Domain) : (s.modDomain f).periph = s.periph := rfl
@[simp] theorem State.modDomain_inputs (f : Domain → Domain) : (s.modDomain f).inputs = s.inputs := rfl
@[simp] theorem State.modDomain_subbands (f : Domain → Domain) : (s.modDomain f).subbands = s.subbands := rfl
@[simp] theorem State.modDomain_grinder (f : Domain → Domain) : (s.modDomain f).grinder = s.grinder := rfl
@[simp] theorem State.modDomain_fabric (f : Domain → Domain) : (s.modDomain f).fabric = s.fabric := rfl
@[simp] theorem State.modDomain_tracking (f : Domain → Domain) : (s.modDomain f).tracking = s.tracking := rfl
@[simp] theorem State.modDomain_carafe (f : Domain → Domain) : (s.modDomain f).carafe = s.carafe := rfl
@[simp] theorem State.modDomain_timeSys (f : Domain → Domain) : (s.modDomain f).timeSys = s.timeSys := rfl
@[simp] theorem State.modDomain_nav (f : Domain → Domain) : (s.modDomain f).nav = s.nav := rfl
@[simp] theorem State.modDomain_corr (f : Domain → Domain) : (s.modDomain f).corr = { s.corr with domain := f s.corr.domain } := rfl
@[simp] theorem State.modDomain_eth (f : Domain → Domain) : (s.modDomain f).eth = s.eth := rfl
@[simp] theorem State.modDomain_freeCtr (f : Domain → Domain) : (s.modDomain f).freeCtr = s.freeCtr := rfl

@[simp] theorem State.modRef_pending (f : RefStn → RefStn) : (s.modRef f).pending = s.pending := rfl
@[simp] theorem State.modRef_nv (f : RefStn → RefStn) : (s.modRef f).nv = s.nv := rfl
@[simp] theorem State.modRef_time (f : RefStn → RefStn) : (s.modRef f).time = s.time := rfl
@[simp] theorem State.modRef_overruns (f : RefStn → RefStn) : (s.modRef f).overruns = s.overruns := rfl
@[simp] theorem State.modRef_sessions (f : RefStn → RefStn) : (s.modRef f).sessions = s.sessions := rfl
@[simp] theorem State.modRef_transports (f : RefStn → RefStn) : (s.modRef f).transports = s.transports := rfl
@[simp] theorem State.modRef_power (f : RefStn → RefStn) : (s.modRef f).power = s.power := rfl
@[simp] theorem State.modRef_holdup (f : RefStn → RefStn) : (s.modRef f).holdup = s.holdup := rfl
@[simp] theorem State.modRef_perc (f : RefStn → RefStn) : (s.modRef f).perc = s.perc := rfl
@[simp] theorem State.modRef_boot (f : RefStn → RefStn) : (s.modRef f).boot = s.boot := rfl
@[simp] theorem State.modRef_tap (f : RefStn → RefStn) : (s.modRef f).tap = s.tap := rfl
@[simp] theorem State.modRef_tripLog (f : RefStn → RefStn) : (s.modRef f).tripLog = s.tripLog := rfl
@[simp] theorem State.modRef_faultLog (f : RefStn → RefStn) : (s.modRef f).faultLog = s.faultLog := rfl
@[simp] theorem State.modRef_mem (f : RefStn → RefStn) : (s.modRef f).mem = s.mem := rfl
@[simp] theorem State.modRef_cores (f : RefStn → RefStn) : (s.modRef f).cores = s.cores := rfl
@[simp] theorem State.modRef_uc (f : RefStn → RefStn) : (s.modRef f).uc = s.uc := rfl
@[simp] theorem State.modRef_cipher (f : RefStn → RefStn) : (s.modRef f).cipher = s.cipher := rfl
@[simp] theorem State.modRef_sealing (f : RefStn → RefStn) : (s.modRef f).sealing = s.sealing := rfl
@[simp] theorem State.modRef_periph (f : RefStn → RefStn) : (s.modRef f).periph = s.periph := rfl
@[simp] theorem State.modRef_inputs (f : RefStn → RefStn) : (s.modRef f).inputs = s.inputs := rfl
@[simp] theorem State.modRef_subbands (f : RefStn → RefStn) : (s.modRef f).subbands = s.subbands := rfl
@[simp] theorem State.modRef_grinder (f : RefStn → RefStn) : (s.modRef f).grinder = s.grinder := rfl
@[simp] theorem State.modRef_fabric (f : RefStn → RefStn) : (s.modRef f).fabric = s.fabric := rfl
@[simp] theorem State.modRef_tracking (f : RefStn → RefStn) : (s.modRef f).tracking = s.tracking := rfl
@[simp] theorem State.modRef_carafe (f : RefStn → RefStn) : (s.modRef f).carafe = s.carafe := rfl
@[simp] theorem State.modRef_timeSys (f : RefStn → RefStn) : (s.modRef f).timeSys = s.timeSys := rfl
@[simp] theorem State.modRef_nav (f : RefStn → RefStn) : (s.modRef f).nav = s.nav := rfl
@[simp] theorem State.modRef_corr (f : RefStn → RefStn) : (s.modRef f).corr = { s.corr with ref := f s.corr.ref } := rfl
@[simp] theorem State.modRef_eth (f : RefStn → RefStn) : (s.modRef f).eth = s.eth := rfl
@[simp] theorem State.modRef_freeCtr (f : RefStn → RefStn) : (s.modRef f).freeCtr = s.freeCtr := rfl

@[simp] theorem State.modPort_pending (f : EthPort → EthPort) : (s.modPort i f).pending = s.pending := rfl
@[simp] theorem State.modPort_nv (f : EthPort → EthPort) : (s.modPort i f).nv = s.nv := rfl
@[simp] theorem State.modPort_time (f : EthPort → EthPort) : (s.modPort i f).time = s.time := rfl
@[simp] theorem State.modPort_overruns (f : EthPort → EthPort) : (s.modPort i f).overruns = s.overruns := rfl
@[simp] theorem State.modPort_sessions (f : EthPort → EthPort) : (s.modPort i f).sessions = s.sessions := rfl
@[simp] theorem State.modPort_transports (f : EthPort → EthPort) : (s.modPort i f).transports = s.transports := rfl
@[simp] theorem State.modPort_power (f : EthPort → EthPort) : (s.modPort i f).power = s.power := rfl
@[simp] theorem State.modPort_holdup (f : EthPort → EthPort) : (s.modPort i f).holdup = s.holdup := rfl
@[simp] theorem State.modPort_perc (f : EthPort → EthPort) : (s.modPort i f).perc = s.perc := rfl
@[simp] theorem State.modPort_boot (f : EthPort → EthPort) : (s.modPort i f).boot = s.boot := rfl
@[simp] theorem State.modPort_tap (f : EthPort → EthPort) : (s.modPort i f).tap = s.tap := rfl
@[simp] theorem State.modPort_tripLog (f : EthPort → EthPort) : (s.modPort i f).tripLog = s.tripLog := rfl
@[simp] theorem State.modPort_faultLog (f : EthPort → EthPort) : (s.modPort i f).faultLog = s.faultLog := rfl
@[simp] theorem State.modPort_mem (f : EthPort → EthPort) : (s.modPort i f).mem = s.mem := rfl
@[simp] theorem State.modPort_cores (f : EthPort → EthPort) : (s.modPort i f).cores = s.cores := rfl
@[simp] theorem State.modPort_uc (f : EthPort → EthPort) : (s.modPort i f).uc = s.uc := rfl
@[simp] theorem State.modPort_cipher (f : EthPort → EthPort) : (s.modPort i f).cipher = s.cipher := rfl
@[simp] theorem State.modPort_sealing (f : EthPort → EthPort) : (s.modPort i f).sealing = s.sealing := rfl
@[simp] theorem State.modPort_periph (f : EthPort → EthPort) : (s.modPort i f).periph = s.periph := rfl
@[simp] theorem State.modPort_inputs (f : EthPort → EthPort) : (s.modPort i f).inputs = s.inputs := rfl
@[simp] theorem State.modPort_subbands (f : EthPort → EthPort) : (s.modPort i f).subbands = s.subbands := rfl
@[simp] theorem State.modPort_grinder (f : EthPort → EthPort) : (s.modPort i f).grinder = s.grinder := rfl
@[simp] theorem State.modPort_fabric (f : EthPort → EthPort) : (s.modPort i f).fabric = s.fabric := rfl
@[simp] theorem State.modPort_tracking (f : EthPort → EthPort) : (s.modPort i f).tracking = s.tracking := rfl
@[simp] theorem State.modPort_carafe (f : EthPort → EthPort) : (s.modPort i f).carafe = s.carafe := rfl
@[simp] theorem State.modPort_timeSys (f : EthPort → EthPort) : (s.modPort i f).timeSys = s.timeSys := rfl
@[simp] theorem State.modPort_nav (f : EthPort → EthPort) : (s.modPort i f).nav = s.nav := rfl
@[simp] theorem State.modPort_corr (f : EthPort → EthPort) : (s.modPort i f).corr = s.corr := rfl
@[simp] theorem State.modPort_eth (f : EthPort → EthPort) : (s.modPort i f).eth = modAt s.eth i f := rfl
@[simp] theorem State.modPort_freeCtr (f : EthPort → EthPort) : (s.modPort i f).freeCtr = s.freeCtr := rfl

end Sys2Proof.Machine
end

