-- ==== Sys2Proof/Laws/Torpin.lean ====
section
/-! SUPPORT. The spec lemmas of the shared effects of Torpin instructions. -/

namespace Sys2Proof.Machine
open Sys2Proof

/-- An ALU row writes its result and goes on. -/
theorem alu_runs (key : Nat) (v : Ctx → State → Word) (f : Word → Word → Word) (x : Fetch) (d : Dec) (s : State) (h : fetches x d s = true) (hk : d.key = key) :
    insn key (alu v f) x s
      = .next ((s.fetched x d).result x d (f ((s.fetched x d).g x.core d.a) (v (x.ctx d (s.fetched x d)) (s.fetched x d)))) :=
  insn_fetches _ _ _ _ _ h hk

/-- A trapping ALU row whose operation has a result writes it and goes on. -/
theorem aluTrap_runs (key : Nat) (v : Ctx → State → Word) (f : Word → Word → Option Word) (x : Fetch) (d : Dec) (s : State) (r : Word)
    (h : fetches x d s = true) (hk : d.key = key) (hr : f ((s.fetched x d).g x.core d.a) (v (x.ctx d (s.fetched x d)) (s.fetched x d)) = some r) :
    insn key (aluTrap v f) x s = .next ((s.fetched x d).result x d r) := by
  rw [insn_fetches _ _ _ _ _ h hk]
  simp only [aluTrap, Fetch.ctx] at hr ⊢
  rw [hr]
  rfl

/-- One whose operation has no result raises ARITH. -/
theorem aluTrap_traps (key : Nat) (v : Ctx → State → Word) (f : Word → Word → Option Word) (x : Fetch) (d : Dec) (s : State)
    (h : fetches x d s = true) (hk : d.key = key) (hr : f ((s.fetched x d).g x.core d.a) (v (x.ctx d (s.fetched x d)) (s.fetched x d)) = none) :
    insn key (aluTrap v f) x s
      = .next (((x.ctx d (s.fetched x d)).raise 3 0 (s.fetched x d)).modCore x.core fun k => { k with stall := none }) := by
  rw [insn_fetches _ _ _ _ _ h hk]
  simp only [aluTrap, Fetch.ctx] at hr ⊢
  rw [hr]
  rfl

theorem udiv_ofNat (v w : Word) : v / w = BitVec.ofNat 32 (v.toNat / w.toNat) := by
  apply BitVec.eq_of_toNat_eq
  rw [BitVec.toNat_udiv, BitVec.toNat_ofNat, Nat.mod_eq_of_lt (Nat.lt_of_le_of_lt (Nat.div_le_self _ _) v.isLt)]

theorem umod_ofNat (v w : Word) : v % w = BitVec.ofNat 32 (v.toNat % w.toNat) := by
  apply BitVec.eq_of_toNat_eq
  rw [BitVec.toNat_umod, BitVec.toNat_ofNat, Nat.mod_eq_of_lt (Nat.lt_of_le_of_lt (Nat.mod_le _ _) v.isLt)]

theorem narrow_add (v w : Word) (h1 : -2147483648 ≤ v.toInt + w.toInt) (h2 : v.toInt + w.toInt ≤ 2147483647) : addv v w = some (v + w) := by
  simp [addv, narrow, h1, h2, BitVec.ofInt_add]

theorem narrow_sub (v w : Word) (h1 : -2147483648 ≤ v.toInt - w.toInt) (h2 : v.toInt - w.toInt ≤ 2147483647) : subv v w = some (v - w) := by
  have : BitVec.ofInt 32 (v.toInt - w.toInt) = v - w := by
    rw [Int.sub_eq_add_neg, BitVec.ofInt_add, BitVec.ofInt_neg, BitVec.ofInt_toInt, BitVec.ofInt_toInt, BitVec.sub_eq_add_neg]
  simp [subv, narrow, h1, h2, this]

/-- A compare-and-branch row goes where its condition says. -/
theorem branch_runs (key : Nat) (v : Ctx → State → Word) (f : Word → Word → Bool) (x : Fetch) (d : Dec) (s : State) (p : Prop) [Decidable p]
    (h : fetches x d s = true) (hk : d.key = key) (hp : f ((s.fetched x d).g x.core d.a) (v (x.ctx d (s.fetched x d)) (s.fetched x d)) = decide p) :
    insn key (opBranch v f) x s
      = .next ((s.fetched x d).goto x.core (if p then (s.fetched x d).after x.core d + d.off else (s.fetched x d).after x.core d)) := by
  rw [insn_fetches _ _ _ _ _ h hk]
  have hg (b c : Word) : (if f ((s.fetched x d).g x.core d.a) (v (x.ctx d (s.fetched x d)) (s.fetched x d)) = true then b else c) = if p then b else c := by
    by_cases hc : p <;> simp [hp, hc]
  exact congrArg (fun w => Host.Outcome.next ((s.fetched x d).goto x.core w)) (hg _ _)

/-- A push whose bytes may be written. -/
theorem pushStack_ok (c : Ctx) (bs : List Byte) (s : State)
    (h : (stackJudge s c.n ((s.core c.n).rsp - BitVec.ofNat 32 bs.length).toNat bs.length true).1 = .ok) :
    pushStack c bs s = .ok ((s.memWrite ((s.core c.n).rsp - BitVec.ofNat 32 bs.length).toNat bs).modCore c.n
      fun k => { k with rsp := BitVec.ofNat 32 ((s.core c.n).rsp - BitVec.ofNat 32 bs.length).toNat }) := by
  unfold pushStack
  dsimp only
  rcases hg : stackJudge s c.n ((s.core c.n).rsp - BitVec.ofNat 32 bs.length).toNat bs.length true with ⟨v, y⟩
  rw [hg] at h
  dsimp only at h
  subst h
  rfl

/-- A pop whose bytes may be read. -/
theorem popStack_ok (c : Ctx) (n : Nat) (s v : State) (h : (stackJudge s c.n (s.core c.n).rsp.toNat n false).1 = .ok)
    (he : s.eccRead c.n (s.core c.n).rsp.toNat n = (v, none)) :
    popStack c n s = .ok (v.modCore c.n fun k => { k with rsp := k.rsp + BitVec.ofNat 32 n }, s.memRead (s.core c.n).rsp.toNat n) := by
  unfold popStack
  dsimp only
  rcases hg : stackJudge s c.n (s.core c.n).rsp.toNat n false with ⟨w, y⟩
  rw [hg] at h
  dsimp only at h
  subst h
  dsimp only
  rw [he]

theorem checkAccess_granted {c : Ctx} {k : Access} {a size : Nat} {l : Bool} {u : State} (h : granted c k a size l u = true) :
    checkAccess c k a size size l u = .ok () := by
  unfold granted at h
  split at h
  · assumption
  · simp at h

/-- A read-modify-write whose accesses are permitted. -/
theorem rmwOp_ok (c : Ctx) (l : Bool) (f : Word → Word) (s v : State) (bs : List Byte) (h1 : granted c .load (c.ea c.d.b s) c.d.size l s = true)
    (h2 : granted c .store (c.ea c.d.b s) c.d.size l s = true) (hb : readBytes c (c.ea c.d.b s) c.d.size s = .ok (v, bs)) :
    c.rmwOp l f s = .ok (c.bump c.d.b (writeBytes c (c.ea c.d.b s) (leBytes c.d.size (f (extend false bs)).toNat) v), extend false bs) := by
  unfold Ctx.rmwOp
  dsimp only
  rw [checkAccess_granted h1]
  dsimp only
  rw [checkAccess_granted h2]
  dsimp only
  rw [hb]

theorem opExchange_ok (c : Ctx) (s v : State) (bs : List Byte) (h1 : granted c .load (c.ea c.d.b s) c.d.size true s = true)
    (h2 : granted c .store (c.ea c.d.b s) c.d.size true s = true) (hb : readBytes c (c.ea c.d.b s) c.d.size s = .ok (v, bs)) :
    opExchange c s = .ok ((c.bump c.d.b (writeBytes c (c.ea c.d.b s) (leBytes c.d.size (s.g c.n c.d.a).toNat) v)).setG c.n c.d.a (extend false bs), c.next) := by
  unfold opExchange
  rw [rmwOp_ok c true _ s v bs h1 h2 hb]

theorem opModify_ok (f : Word → Word → Word) (w : Ctx → State → Word) (c : Ctx) (s v : State) (bs : List Byte)
    (h1 : granted c .load (c.ea c.d.b s) c.d.size c.d.lock s = true)
    (h2 : granted c .store (c.ea c.d.b s) c.d.size c.d.lock s = true) (hb : readBytes c (c.ea c.d.b s) c.d.size s = .ok (v, bs)) :
    opModify f w c s = .ok (c.bump c.d.b (writeBytes c (c.ea c.d.b s) (leBytes c.d.size (f (extend false bs) (w c s)).toNat) v), c.next) := by
  unfold opModify
  rw [rmwOp_ok c c.d.lock _ s v bs h1 h2 hb]

/-- A service that is not masked does what it does and returns its status. -/
theorem service_runs (key k : Nat) (act : Ctx → State → Except Stop (State × Nat × Word)) (x : Fetch) (d : Dec) (s v : State) (st : Nat) (pc : Word)
    (h : fetches x d s = true) (hk : d.key = key) (hm : svcMasked x.core k ((s.fetched x d).counted x.core) = false)
    (ha : act (x.ctx d (s.fetched x d)) ((s.fetched x d).counted x.core) = .ok (v, st, pc)) :
    insn key (service k act) x s = .next (v.serviced x st pc) := by
  rw [insn_fetches _ _ _ _ _ h hk]
  unfold State.counted Fetch.ctx at *
  simp only [service, hm, ha, Bool.false_eq_true, if_false]
  rfl

/-- A masked one answers ST_BAD_OPCODE. -/
theorem service_masked (k : Nat) (act : Ctx → State → Except Stop (State × Nat × Word)) (c : Ctx) (u : State)
    (hm : svcMasked c.n k (u.counted c.n) = true) :
    service k act c u = .ok ((u.counted c.n).setG c.n 0 (BitVec.ofNat 32 stBadOpcode), c.next) := by
  unfold State.counted at hm
  unfold service State.counted
  simp only [hm, if_true]

/-- PVT_COPY of a record that is held, to an address that UC may write. -/
theorem svcPvtCopy_ok (c : Ctx) (w : State) (r : NavRec)
    (hr : ((w.g c.n 2).toNat = 0 ∧ w.nav.pvt = some r) ∨ ((w.g c.n 2).toNat = 1 ∧ w.nav.fused = some r)) (hi : inIo (w.g c.n 1).toNat = false)
    (hj : (w.judgeCore 7 .store (w.g c.n 1).toNat r.bytes.length).1 = .ok) :
    svcPvtCopy c w = .ok (storeAs c.x.clash 7 (w.g c.n 1).toNat r.bytes w, stOk, c.next) := by
  unfold svcPvtCopy
  rcases hg : w.judgeCore 7 .store (w.g c.n 1).toNat r.bytes.length with ⟨v, y⟩
  rw [hg] at hj
  dsimp only at hj
  subst hj
  rcases hr with ⟨h0, hr⟩ | ⟨h0, hr⟩ <;> simp [h0, hr, hi, hg]

end Sys2Proof.Machine
end

