-- ==== Sys2Proof/WellFormed.lean ====
section
/-! DEFINITION. Which commands and events the environment can send: the checks on operands that the spec's own ranges give. -/

namespace Sys2Proof.Machine
open Sys2Proof

/-- The address and port of a frame are those of its datagram on EP0 and EP1 and zeros elsewhere (R311). -/
def Endpoint.wf (e : Endpoint) (transport : Nat) : Bool := transport = 8 || transport = 9 || (e.addr = 0 && e.port = 0)

/-- A frame that passed R309: a transport of Table 13.3, and a payload of at most 4,080 bytes (R303). -/
def Qcp.wf (q : Qcp) : Bool := q.transport ≤ 10 && (Endpoint.mk q.addr q.port).wf q.transport && q.payload.length ≤ 4080

/-- An instruction comes from one of the eight Torpin cores (R367) and has a lead byte (R370). -/
def Fetch.wf (x : Fetch) : Bool := x.core ≤ 7 && 1 ≤ x.bytes.length

/-- A frame of R442: a port, an 11-bit or a 29-bit identifier, at most 8 bytes in a classical frame and 64 in an FD frame. -/
def CanFrame.wf (f : CanFrame) : Bool :=
  f.port ≤ 1 && f.id < (if f.ide then 536870912 else 2048) && f.data.length ≤ (if f.fd then 64 else 8)

/-- Wheel inputs 0 to 3, and the six data bytes of an accelerometer read (Table 20.6). -/
def PercIn.wf (p : PercIn) : Bool := p.edges.all (· ≤ 3) && (p.acc.map fun d => decide (d.length = 6)).getD true

/-- A slot that can be read gives its header of 160 bytes (R476). -/
def ImageRead.wf (i : ImageRead) : Bool := !i.readable || i.header.length = 160

/-- The look-ahead of a beat is 8 samples at most (R53). -/
def InputBeat.wf (b : InputBeat) : Bool := b.ahead.length ≤ 8

/-- A fit holds two echoes at most (R157). -/
def MpFit.wf (f : MpFit) : Bool := f.echoes.length ≤ 2

/-- An ATR of ISO/IEC 7816-3 has TS and at most 32 bytes after it (R438). -/
def CardAtr.wf (a : CardAtr) : Bool := 1 ≤ a.bytes.length && a.bytes.length ≤ 33

/-- A write through a port of a dual-port bank changes the lanes of one word of 8 bytes (R340). -/
def Clash.wf (c : Clash) : Bool := c.bytes.length = 8

end Sys2Proof.Machine

namespace Sys2Proof
open Sys2Proof.Machine

/-- The operands of a command are ones that its sender can give. -/
def Instr.wf : Instr → Bool
  | .identity q => q.wf
  | .sessionOpen q => q.wf
  | .sessionClose q => q.wf
  | .sessionStatus q => q.wf
  | .echo q => q.wf
  | .noticeMask q => q.wf
  | .transportCfg q => q.wf
  | .undefinedOpcode _ q => q.wf
  | .qcpFrameRejected transport ep _ => decide (transport ≤ 10) && ep.wf transport
  | .gapTimeout transport => decide (transport ≤ 7)
  | .reassemblyTimeout port => decide (port ≤ 1)
  | .noticeLost session => decide (session ≤ 15)
  | .powerState q _ => q.wf
  | .powerStatus q => q.wf
  | .domainSet q => q.wf
  | .percCfg q => q.wf
  | .percRuleWrite q => q.wf
  | .percRuleRead q => q.wf
  | .percStatus q => q.wf
  | .holdupStatus q => q.wf
  | .percTick p => p.wf
  | .percHalt => true
  | .percRestart => true
  | .supplySag _ => true
  | .supplyReturn => true
  | .wakeTimeout => true
  | .resetN _ => true
  | .refinLoss _ => true
  | .refinReturn => true
  | .watchdogReset _ => true
  | .boot images => decide (images.length = 2 ∧ images.all (·.wf))
  | .holdupReady _ => true
  | .chargeTimeout => true
  | .trialTimeout => true
  | .tempHigh _ => true
  | .watchTimeEval => true
  | .dtWrap => true
  | .beatBoundary inputs short => decide (inputs.length = 8 ∧ inputs.all (·.wf)) && short.all (fun e => e.1 < 2048)
  | .clkLoss input => decide (input ≤ 7)
  | .clockResume input => decide (input ≤ 7)
  | .alignmentFixed input _ => decide (input ≤ 7)
  | .installWrite q => q.wf
  | .installRead q => q.wf
  | .inputEnable q => q.wf
  | .subbandSet q => q.wf
  | .inputStats q => q.wf
  | .grinderCfg q => q.wf
  | .grinderStatus q => q.wf
  | .ledgerWrite q => q.wf
  | .ledgerRead q => q.wf
  | .ledgerCancel q => q.wf
  | .ledgerFree q => q.wf
  | .acqPlan q => q.wf
  | .entryDispatch pipe => decide (pipe ≤ 3)
  | .grinderEntryDone pipe _ => decide (pipe ≤ 3)
  | .entryCancelled pipe => decide (pipe ≤ 3)
  | .handover index => decide (index < 16384)
  | .handoverExpired index => decide (index < 16384)
  | .fabricCfg q => q.wf
  | .fabricStatus q => q.wf
  | .chanStart q => q.wf
  | .chanStop q => q.wf
  | .chanRead q => q.wf
  | .chanModify q => q.wf
  | .codeLoad q => q.wf
  | .dumpService core _ _ => decide (core ≤ 3)
  | .pullinTimeout channel => decide (channel < 2048)
  | .coastTimeout channel => decide (channel < 2048)
  | .channelRelease channel => decide (channel < 2048)
  | .mpFit core fit => decide (core ≤ 3) && fit.wf
  | .trackProfile q => q.wf
  | .trackAssign q => q.wf
  | .trackProfileRead q => q.wf
  | .trackStatus q => q.wf
  | .mpCfg q => q.wf
  | .mpRead q => q.wf
  | .interfCfg q => q.wf
  | .interfStatus q => q.wf
  | .spoofCfg q => q.wf
  | .spoofStatus q => q.wf
  | .spoofEvaluation => true
  | .osnmaKey q => q.wf
  | .osnmaCfg q => q.wf
  | .osnmaStatus q => q.wf
  | .navEpoch _ => true
  | .navDeadline => true
  | .fusedEpoch _ => true
  | .navMessage _ => true
  | .imuRead _ _ => true
  | .imuLost => true
  | .canStale => true
  | .navCfg q => q.wf
  | .navStatus q => q.wf
  | .navReset q => q.wf
  | .antCfg q => q.wf
  | .pairCfg q => q.wf
  | .fusionCfg q => q.wf
  | .ephLoad q _ => q.wf
  | .almLoad q _ => q.wf
  | .pvtRead q => q.wf
  | .measRead q => q.wf
  | .corrCfg q => q.wf
  | .corrStatus q => q.wf
  | .corrPush q _ => q.wf
  | .msmEpochTimeout => true
  | .arpWaitTimeout => true
  | .hasPageTimeout => true
  | .sbasUnusableEnd => true
  | .domainCfg q => q.wf
  | .domainStatus q => q.wf
  | .qdpTunnelIn q _ => q.wf
  | .qdpDatagramRx port _ _ _ => decide (port ≤ 1)
  | .helloSend => true
  | .alertExpiry => true
  | .peerTimeout => true
  | .conflictSilenceEnd => true
  | .refstnCfg q => q.wf
  | .refstnStatus q => q.wf
  | .timeConfig q => q.wf
  | .timeStatus q => q.wf
  | .tpConfig q => q.wf
  | .foutConfig q => q.wf
  | .evConfig q => q.wf
  | .evRead q => q.wf
  | .timePulseEdge tp _ _ => decide (tp ≤ 3)
  | .foutEdge _ => true
  | .stepInstant => true
  | .leapSecond => true
  | .holdoverLimit => true
  | .eventCapture input _ _ _ => decide (input ≤ 8)
  | .epCfg q => q.wf
  | .epStatus q => q.wf
  | .ptpCfg q => q.wf
  | .ptpStatus q => q.wf
  | .ptpTrust q => q.wf
  | .ethTx q => q.wf
  | .ethTsRead q => q.wf
  | .ethFrameRx port _ _ _ _ => decide (port ≤ 1)
  | .ethLaunch port => decide (port ≤ 1)
  | .ethTxDone port _ _ => decide (port ≤ 1)
  | .tsEntryTimeout port => decide (port ≤ 1)
  | .linkDown port => decide (port ≤ 1)
  | .linkUp port speed => decide (port ≤ 1) && decide (1 ≤ speed ∧ speed ≤ 3)
  | .syncRx port _ _ => decide (port ≤ 1)
  | .delayRespRx port _ _ => decide (port ≤ 1)
  | .pdelayRx port _ _ => decide (port ≤ 1)
  | .announceRx port _ _ => decide (port ≤ 1)
  | .syncSend port => decide (port ≤ 1)
  | .announceSend port => decide (port ≤ 1)
  | .delayReqSend port => decide (port ≤ 1)
  | .announceTimeout port => decide (port ≤ 1)
  | .suspectMasterEnd port => decide (port ≤ 1)
  | .pathWindowEnd port => decide (port ≤ 1)
  | .untrustHoldEnd port => decide (port ≤ 1)
  | .carafeCfg q => q.wf
  | .carafeStatus q => q.wf
  | .carafeTrigger q => q.wf
  | .carafeRelease q => q.wf
  | .carafeRead q => q.wf
  | .carafeReplay q _ => q.wf
  | .windowFrozen window => decide (window ≤ 7)
  | .windowRelease window => decide (window ≤ 7)
  | .replayDone _ _ => true
  | .cuStatus q => q.wf
  | .keyDerive q => q.wf
  | .keyErase q => q.wf
  | .keySlotRead q => q.wf
  | .cipherRun q => q.wf
  | .sealCfg q => q.wf
  | .sealNow q => q.wf
  | .sealRead q => q.wf
  | .sealVerify q => q.wf
  | .cipherOpStart unit => decide (unit ≤ 6)
  | .cipherOpComplete unit _ => decide (unit ≤ 6)
  | .sealComplete _ => true
  | .leaseExpiry unit => decide (unit ≤ 6)
  | .keyExpired slot => decide (slot ≤ 31)
  | .slotDrained slot => decide (slot ≤ 31)
  | .trngHealthFail => true
  | .trngStallTimeout unit _ => decide (unit ≤ 6)
  | .cuLockAcquire unit lease => decide (unit ≤ 6) && decide (lease ≤ 255)
  | .cuLockRelease unit lease => decide (unit ≤ 6) && decide (lease ≤ 255)
  | .cuEvtClear => true
  | .uartCfg q => q.wf
  | .periphStatus q => q.wf
  | .cardCfg q => q.wf
  | .cardReset q atr => q.wf && (atr.map (·.wf)).getD true
  | .cardApdu q => q.wf
  | .cardApduComplete uart _ => decide (uart ≤ 5)
  | .cardWaitTimeout uart => decide (uart ≤ 5)
  | .imuCfg q => q.wf
  | .imuXfer q _ => q.wf
  | .i2cXfer q _ => q.wf
  | .canCfg q => q.wf
  | .canMap q => q.wf
  | .canTx q _ => q.wf
  | .canFrameRx f _ => f.wf
  | .busOffRecovery port => decide (port ≤ 1)
  | .wtCfg q => q.wf
  | .wheelTick input _ _ => decide (input ≤ 3)
  | .gpioCfg q => q.wf
  | .gpioWrite q => q.wf
  | .gpioRead q => q.wf
  | .gpioEdge pin _ _ => decide (pin ≤ 7)
  | .gpSet _ => true
  | .gpClr _ => true
  | .uartRxChar uart _ => decide (uart ≤ 5)
  | .uartCharSent uart _ => decide (uart ≤ 5)
  | .uaTxWrite uart _ => decide (uart ≤ 5)
  | .uaRxRead uart => decide (uart ≤ 5)
  | .ucCfg q => q.wf
  | .ucStatus q => q.wf
  | .ucLoad q => q.wf
  | .ucStart q => q.wf
  | .ucStop q => q.wf
  | .ucSwap q => q.wf
  | .swapForced => true
  | .ucSwapResume => true
  | .ucWatchdog => true
  | .ucTimerExpiry timer => decide (timer ≤ 1)
  | .ucTmrCtrlWrite timer value => decide (timer ≤ 1) && decide (value < 4294967296)
  | .evcPop value => decide (value < 4294967296)
  | .s15Txdata value => decide (value < 4294967296)
  | .s15Rxdata => true
  | .interruptEntry core _ => decide (core ≤ 7)
  | .bootStatus q => q.wf
  | .fwWrite q _ => q.wf
  | .fwVerify q => q.wf
  | .fwVerifyComplete image => image.wf
  | .fwActivate q => q.wf
  | .loopSwap q image => q.wf && image.wf
  | .loopSwapComplete core => decide (core ≤ 3)
  | .navSwap q image => q.wf && image.wf
  | .navSwapComplete => true
  | .deviceReset q => q.wf
  | .overrunLog q => q.wf
  | .faultLog q => q.wf
  | .tempRead q => q.wf
  | .counters q => q.wf
  | .selftest q => q.wf
  | .selftestComplete failed codes => decide (failed ≤ 63) && decide (codes.length = 6)
  | .mbCfg q => q.wf
  | .mbStatus q => q.wf
  | .mbOwnSet q => q.wf
  | .mbDpCfg q => q.wf
  | .marchRun q => q.wf
  | .marchEnd _ _ => true
  | .marchStatus q => q.wf
  | .mbRepair q => q.wf
  | .repairEnd _ => true
  | .protWindowSet q => q.wf
  | .protWindowRead q => q.wf
  | .dmaAssign q => q.wf
  | .dmaStatus q => q.wf
  | .freezeRead q => q.wf
  | .thaw q => q.wf
  | .eccRead q => q.wf
  | .memRead q => q.wf
  | .memWrite q => q.wf
  | .bankPowerDone bank => decide (bank ≤ 127)
  | .handoverDrain bank => decide (bank ≤ 127)
  | .patrolScrub strike => (strike.map fun e => decide (e.1 < 8388608)).getD true
  | .dmaBurst _ clash => (clash.map (·.wf)).getD true
  | .dmaStart chan => decide (chan ≤ 23)
  | .dmaStop chan => decide (chan ≤ 23)
  | .dmaStatusClear chan value => decide (chan ≤ 23) && decide (value < 4294967296)
  | .mbCollClear master bank => decide (master ≤ 0x1E) && decide (124 ≤ bank ∧ bank ≤ 127)
  | .mbCtrlPower bank value => decide (bank ≤ 127) && decide (value < 4294967296)
  | .registerWrite addr _ => decide (0x02010000 ≤ addr.toNat ∧ addr.toNat < 0x02070000)
  | .tapReset => true
  | .provisionUpdate _ _ => true
  | .provisionDone _ => true
  | .mov x => x.wf
  | .add x => x.wf
  | .sub x => x.wf
  | .addv x => x.wf
  | .subv x => x.wf
  | .and x => x.wf
  | .or x => x.wf
  | .xor x => x.wf
  | .shl x => x.wf
  | .shr x => x.wf
  | .sar x => x.wf
  | .rol x => x.wf
  | .ror x => x.wf
  | .mul x => x.wf
  | .mulh x => x.wf
  | .mulhu x => x.wf
  | .movi x => x.wf
  | .addi x => x.wf
  | .subi x => x.wf
  | .addvi x => x.wf
  | .subvi x => x.wf
  | .andi x => x.wf
  | .ori x => x.wf
  | .xori x => x.wf
  | .shli x => x.wf
  | .shri x => x.wf
  | .sari x => x.wf
  | .roli x => x.wf
  | .rori x => x.wf
  | .muli x => x.wf
  | .div x => x.wf
  | .divu x => x.wf
  | .divz x => x.wf
  | .divzu x => x.wf
  | .rem x => x.wf
  | .remu x => x.wf
  | .remz x => x.wf
  | .remzu x => x.wf
  | .neg x => x.wf
  | .not x => x.wf
  | .sexb x => x.wf
  | .sexh x => x.wf
  | .zexb x => x.wf
  | .zexh x => x.wf
  | .clz x => x.wf
  | .popc x => x.wf
  | .slt x => x.wf
  | .sltu x => x.wf
  | .ld x => x.wf
  | .st x => x.wf
  | .lea x => x.wf
  | .mvm x => x.wf
  | .xchg x => x.wf
  | .sti x => x.wf
  | .addm x => x.wf
  | .andm x => x.wf
  | .orm x => x.wf
  | .xorm x => x.wf
  | .addmr x => x.wf
  | .nop x => x.wf
  | .wait x => x.wf
  | .ret x => x.wf
  | .reti x => x.wf
  | .info x => x.wf
  | .time x => x.wf
  | .pvtCopy x => x.wf
  | .wdog x => x.wf
  | .log x => x.wf
  | .nextBeat x => x.wf
  | .swapReady x => x.wf
  | .brk x => x.wf
  | .fence x => x.wf
  | .jmp x => x.wf
  | .call x => x.wf
  | .jmpr x => x.wf
  | .callr x => x.wf
  | .beq x => x.wf
  | .bne x => x.wf
  | .blt x => x.wf
  | .bge x => x.wf
  | .bltu x => x.wf
  | .bgeu x => x.wf
  | .beqi x => x.wf
  | .bnei x => x.wf
  | .blti x => x.wf
  | .bgei x => x.wf
  | .bltui x => x.wf
  | .bgeui x => x.wf
  | .bgti x => x.wf
  | .blei x => x.wf
  | .bgtui x => x.wf
  | .bleui x => x.wf
  | .dbnz x => x.wf
  | .mfs x => x.wf
  | .mts x => x.wf
  | .customerExtension x => x.wf
  | .snap x => x.wf
  | .mfc x => x.wf
  | .mtc x => x.wf
  | .epoch x => x.wf
  | .submit x => x.wf
  | .status x => x.wf
  | .cancel x => x.wf
  | .fld x => x.wf
  | .fst x => x.wf
  | .fmov x => x.wf
  | .fadd x => x.wf
  | .fsub x => x.wf
  | .fmul x => x.wf
  | .fdiv x => x.wf
  | .fsqrt x => x.wf
  | .fneg x => x.wf
  | .fcvtif x => x.wf
  | .fcvtfi x => x.wf
  | .fcmp x => x.wf
  | .fstat x => x.wf
  | .fclr x => x.wf
  | .mxrun x => x.wf
  | .cmul x => x.wf
  | .cmulc x => x.wf
  | .cpow x => x.wf
  | .cmag x => x.wf
  | .catan x => x.wf
  | .cnorm x => x.wf
  | .illegalInstruction x => x.wf
  | .undefinedService x => x.wf
  | .spiTransfer port mosi => decide (port ≤ 1) && decide (1 ≤ mosi.length)
  | .syncReceiptTimeout port => decide (port ≤ 1)
  | .canBusError port _ _ => decide (port ≤ 1)
  | .trngHealthPass => true
  | .wakeWidthExpiry => true
  | .holdupMeasurementEnd _ => true

end Sys2Proof
end

