-- ==== Sys2Proof/Tests/Slice0.lean ====
section
/-! SUPPORT. Tests: WellFormed, witnesses for the hypotheses of the statements, words of Torpin, and the worked examples of the spec. -/

namespace Sys2Proof.Tests
open Sys2Proof Sys2Proof.Machine

/-- Session 0, open at a privilege of 2 from EP0's address 0. -/
def openSession : Session := { Session.reset with binding := some ⟨0, ⟨0, 0⟩⟩, priv := 2, mask := 0x1FFFF, history := 1 }

/-- A device in RUN with every domain on, its time running, session 0 open and its cores running. -/
def running : State := { State.reset with
  power := { Power.reset with phase := .on, state := .run, prev := .run, domains := 0xFFFD }
  time := { TimeBase.reset with running := true }
  sessions := modAt State.reset.sessions 0 fun _ => openSession
  cores := State.reset.cores.map fun c => { c with mode := .running } }

/-- A payload of `n` bytes, zero but where listed. -/
def payload (n : Nat) (l : List (Nat × Byte)) : List Byte := l.foldl (fun p x => modAt p x.1 fun _ => x.2) (List.replicate n 0)

/-- A command frame of session 0 with its first sequence number. -/
def frame (p : List Byte) : Qcp :=
  { transport := 0, addr := 0, port := 0, ver := 1, sess := 0, seq := 1, flg := 0, stat := 0, payload := p, sameTick := false }

/-- A command with this payload, and zeros up to its least length, takes effect. -/
def runs (c : HostCmd) (l : List (Nat × Byte)) (s : State) : Bool := admits c (frame (payload c.len.lo l)) s

/-- An input for GPS L1. -/
def gpsInput : InstallInput :=
  { rate := 0, antenna := 0, invert := false, loFreq := 1575420000000000, rfLow := 1560000, rfHigh := 1590000, groupDelay := 0, delaySlope := 0
    gain := 0, nf := 0, iqGain := 16384, iqPhase := 0, nomRms := 1024 }

/-- The device with an installation record. -/
def fitted : State := { running with
  nv := { running.nv with install := some { bytes := [], nodeId := 5, inputMask := 1, refinKind := 0, refinOffset := 0, serial := 0, inputs := List.replicate 8 gpsInput } } }

/-- The device with subband 0 enabled. -/
def tuned : State := { fitted with subbands := modAt fitted.subbands 0 fun b => { b with cfg := .at { SubbandCfg.reset with enable := true, rate := 1 } } }

/-- The device with channel 0 in use. -/
def tracking : State := tuned.modChan 0 fun c =>
  { c with act := { Desc.reset with signal := 1, sat := 1, state := 3, taps := modAt Desc.reset.taps 10 fun _ => 8 } }

/-- An image whose header says QTFW, format 1, components that fit, and signatures that hold. -/
def image : ImageRead :=
  { readable := true, header := payload 160 [(0, 0x51), (1, 0x54), (2, 0x46), (3, 0x57), (4, 1), (9, 1), (12, 192), (24, 192), (36, 192)], digest := true, signed := true }

/-- Bank 0 on and owned by master `o`. -/
def owned (o : Nat) : State := running.modBank 0 fun b => { b with ownerA := o, state := .on, power := .on }

/-- A card active on UART4. -/
def carded : State := running.modUart 4 fun u => { u with owner := 2, card := { u.card with enable := true, active := true } }

/-- CAN port 0 enabled. -/
def canned : State := running.modCan 0 fun c => { c with cfg := { c.cfg with enable := true } }

/-- Carafe window 0 frozen over one slot. -/
def frozenWindow : State := { running with carafe := { running.carafe with
  windows := modAt running.carafe.windows 0 fun w => { w with state := .frozen, first := 0, last := 5 }
  slots := [(0, 1)], cfg := { running.carafe.cfg with streams := [0, 0xFF, 0xFF, 0xFF] } } }

/-- Key slot 0 active, with every use permitted by `policy`. -/
def keyed (policy : BitVec 16) : State := running.modSlot 0 fun k =>
  { k with state := .active, cur := { k.cur with key := List.replicate 16 0, policy := policy, uses := 0xFFFFFFFF, masters := 0xFFFFFFFF } }

/-- Core 1 frozen. -/
def frozen : State := running.modCore 1 fun c => { c with mode := .frozen }

/-- The UC running. -/
def ucRunning : State := running.modUc fun u => { u with state := .running }

/-- A measurement record waits. -/
def measured : State := running.modNav fun v => { v with meas := some { beat := 0, epoch := 1, gen := 0, flags := 0, unc := 0, rxTime := 0, recs := [] } }

/-- A fix. -/
def aFix : NavRec :=
  { dt := 0, epoch := 1, gen := 0, mode := 2, flags := 0, time := 0, pos := [0, 0, 0], vel := [0, 0, 0], posSig := [0, 0, 0], velSig := 0, hpl := 0
    vpl := 0, clkBias := 0, clkDrift := 0, heading := 0, pitch := 0, headSig := 0, svUsed := 0, svTracked := 0, integrity := 0, datum := 0, corrAge := 0
    pdop := 0, tscale := 0 }

/-- A PVT record waits. -/
def fixed (s : State) : State := s.modNav fun v => { v with pvt := some aFix }

/-- What core `n` is given to execute. -/
def fetchOf (n : Nat) (bytes : List Byte) : Fetch := { core := n, bytes := bytes, sameTick := false, upTo := none, clash := none }

/-! ### WellFormed: an ill-formed term for each check, and the boundary that it accepts -/

/-- A CAN frame. -/
def aCanFrame : CanFrame := { port := 1, ide := false, fd := false, brs := false, esi := false, id := 0x7FF, data := List.replicate 8 0, errors := 0 }

/-- What a tick of the Percolator reads. -/
def aPercIn : PercIn := { edges := [3], acc := some (List.replicate 6 0), tamper := false, vbat := 0, temp := 0, ev0 := false, sameTick := false }

/-- What a beat of an input brings. -/
def aBeat : InputBeat := { raw := [], ahead := List.replicate 8 0, clocks := 0, skew := 0 }

/-- A fit of two echoes. -/
def aFit : MpFit := { los := 0, echoes := [(0, 0, 0), (0, 0, 0)], quality := 0 }

theorem test_wf_operands :
    ({ frame [] with transport := 11 } : Qcp).wf = false ∧ ({ frame [] with port := 1 } : Qcp).wf = false ∧ (frame []).wf = true
    ∧ ({ frame [] with transport := 9, addr := 1, port := 1 } : Qcp).wf = true ∧ (Endpoint.mk 1 0).wf 0 = false ∧ (Endpoint.mk 1 0).wf 8 = true
    ∧ (fetchOf 8 [0]).wf = false ∧ (fetchOf 7 []).wf = false ∧ (fetchOf 7 [0]).wf = true
    ∧ ({ aCanFrame with port := 2 } : CanFrame).wf = false ∧ ({ aCanFrame with id := 0x800 } : CanFrame).wf = false ∧ aCanFrame.wf = true
    ∧ ({ aCanFrame with ide := true, id := 0x20000000 } : CanFrame).wf = false ∧ ({ aCanFrame with ide := true, id := 0x1FFFFFFF } : CanFrame).wf = true
    ∧ ({ aCanFrame with data := List.replicate 9 0 } : CanFrame).wf = false ∧ ({ aCanFrame with fd := true, data := List.replicate 65 0 } : CanFrame).wf = false
    ∧ ({ aCanFrame with fd := true, data := List.replicate 64 0 } : CanFrame).wf = true
    ∧ ({ aPercIn with edges := [4] } : PercIn).wf = false ∧ ({ aPercIn with acc := some [] } : PercIn).wf = false ∧ aPercIn.wf = true
    ∧ ({ image with header := [] } : ImageRead).wf = false ∧ image.wf = true ∧ ({ image with readable := false, header := [] } : ImageRead).wf = true
    ∧ ({ aBeat with ahead := List.replicate 9 0 } : InputBeat).wf = false ∧ aBeat.wf = true
    ∧ ({ aFit with echoes := List.replicate 3 (0, 0, 0) } : MpFit).wf = false ∧ aFit.wf = true
    ∧ (CardAtr.mk [] true).wf = false ∧ (CardAtr.mk (List.replicate 34 0) true).wf = false ∧ (CardAtr.mk (List.replicate 33 0) true).wf = true
    ∧ ({ addr := 0, master := 0, bytes := [] } : Clash).wf = false ∧ ({ addr := 0, master := 0, bytes := List.replicate 8 none } : Clash).wf = true := by decide

theorem test_wf_refuses_events :
    ([.qcpFrameRejected 11 .zero .crc, .qcpFrameRejected 0 ⟨1, 0⟩ .crc, .gapTimeout 8, .reassemblyTimeout 2, .noticeLost 16, .percTick { aPercIn with edges := [4] },
      .boot [image], .boot [image, { image with header := [] }], .beatBoundary [] [], .beatBoundary (List.replicate 8 aBeat) [(2048, 0)],
      .clkLoss 8, .clockResume 8, .alignmentFixed 8 [], .entryDispatch 4, .entryCancelled 4, .handover 16384, .handoverExpired 16384, .dumpService 4 0 none,
      .pullinTimeout 2048, .coastTimeout 2048, .channelRelease 2048, .mpFit 4 aFit, .mpFit 0 { aFit with echoes := List.replicate 3 (0, 0, 0) },
      .timePulseEdge 4 0 false, .eventCapture 9 true 0 false] : List Instr).all (fun c => !c.wf) = true
    ∧ ([.linkUp 2 1, .linkUp 0 0, .linkUp 0 4, .windowFrozen 8, .cipherOpStart 7, .keyExpired 32, .cuLockAcquire 7 0, .cuLockAcquire 0 256,
      .cardReset (frame []) (some ⟨[], true⟩), .cardApduComplete 6 .resynch, .canFrameRx { aCanFrame with port := 2 } false, .wheelTick 4 true 0, .gpioEdge 8 true false,
      .ucTimerExpiry 2, .ucTmrCtrlWrite 0 4294967296, .interruptEntry 8 false, .fwVerifyComplete { image with header := [] }, .selftestComplete 64 (List.replicate 6 0),
      .selftestComplete 0 [], .bankPowerDone 128, .patrolScrub (some (8388608, true)), .dmaBurst false (some ⟨0, 0, []⟩), .dmaStart 24, .mbCollClear 31 124,
      .mbCollClear 0 123, .registerWrite 0x0200FFFF 0, .registerWrite 0x02070000 0, .mov (fetchOf 8 [0x10, 0x12]), .spiTransfer 0 []] : List Instr).all
      (fun c => !c.wf) = true := by decide +kernel

theorem test_wf_accepts_boundaries :
    ([.qcpFrameRejected 8 ⟨1, 0⟩ .crc, .gapTimeout 7, .reassemblyTimeout 1, .noticeLost 15, .boot [image, image], .beatBoundary (List.replicate 8 aBeat) [(2047, 0)],
      .clkLoss 7, .entryDispatch 3, .handover 16383, .dumpService 3 0 none, .pullinTimeout 2047, .timePulseEdge 3 0 false, .eventCapture 8 true 0 false, .linkUp 1 3,
      .windowFrozen 7, .cipherOpStart 6, .keyExpired 31, .cuLockAcquire 6 255, .cardReset (frame []) none, .cardApduComplete 5 .resynch, .wheelTick 3 true 0,
      .gpioEdge 7 true false, .ucTimerExpiry 1, .interruptEntry 7 false, .selftestComplete 63 (List.replicate 6 0), .bankPowerDone 127, .patrolScrub none,
      .dmaStart 23, .mbCollClear 30 127, .registerWrite 0x0206FFFC 0, .mov (fetchOf 7 [0x10, 0x12]), .spiTransfer 1 [0]] : List Instr).all (·.wf) = true := by decide +kernel

/-- A payload of 4,081 bytes is too long (R303). -/
theorem test_wf_payload_length (p : List Byte) : (p.length = 4081 → (frame p).wf = false) ∧ (p.length = 4080 → (frame p).wf = true) :=
  ⟨fun h => by simp [Qcp.wf, frame, Endpoint.wf, h], fun h => by simp [Qcp.wf, frame, Endpoint.wf, h]⟩

/-- The last tick of the first beat. -/
def lastTick (s : State) : State := { s with time := { running := true, dt := 63997538, acc := 6, beat := 0, tick := 25999 } }

/-- The tick before DT wraps. -/
def nearWrap : State := { running with time := { running := true, dt := 18446744073709550769, acc := 3, beat := 288230376151, tick := 18505 } }

theorem witness_StepRunsFrontCommand : ({ running with pending := [.dtWrap, .noticeLost 1] } : State).pending = .dtWrap :: [.noticeLost 1] := rfl

theorem witness_IdleStepIsOneTick :
    running.pending = [] ∧ (running.time.running = true ∧ running.time.tick < 25999) ∧ State.reset.time.running = false ∧ (lastTick running).pending = []
    ∧ 25999 ≤ (lastTick running).time.tick ∧ ∃ t, step (lastTick running) = .next t := ⟨rfl, by decide, rfl, rfl, by decide, _, rfl⟩

theorem witness_DeviceTimeOfTick :
    TimeOk running ∧ running.time.tick < 25999 ∧ TimeOk (lastTick running) ∧ (lastTick running).time.tick = 25999
    ∧ TimeOk nearWrap ∧ nearWrap.time.running = true ∧ nearWrap.time.tick < 25999 ∧ 2 ^ 64 ≤ nearWrap.time.dt.toNat + (tickStep nearWrap.time.acc).2 := by
  unfold TimeOk; decide

theorem witness_BeatBoundaryOpensNextBeat :
    TimeOk State.reset ∧ State.reset.time.running = false ∧ TimeOk (lastTick running) ∧ (lastTick running).time.running = true
    ∧ (ticksPass (26000 - (lastTick running).time.tick) (lastTick running).toNextBeat).live = true
    ∧ TimeOk (lastTick State.reset) ∧ (lastTick State.reset).time.running = true
    ∧ (ticksPass (26000 - (lastTick State.reset).time.tick) (lastTick State.reset).toNextBeat).live = false := by
  unfold TimeOk; decide

theorem witness_DeviceTimeInvariant :
    TimeOk (lastTick running) ∧ ∃ t, step { lastTick running with pending := [.tapReset] } = .next t := ⟨by unfold TimeOk; decide, _, rfl⟩

theorem witness_OtpInvariant :
    OtpOk { running with tap := { ir := 0xA0, prov := 1, key := 5 }, nv := { running.nv with rk1 := 4, rk1Open := true } }
    ∧ ∃ t, step { running with tap := { ir := 0xA0, prov := 1, key := 5 }, nv := { running.nv with rk1 := 4, rk1Open := true }, pending := [.tapReset] } = .next t :=
  ⟨by unfold OtpOk; decide, _, rfl⟩

theorem witness_SessionCommands :
    runs identityCmd [] running = true
    ∧ runs sessionStatusCmd [] running = true
    ∧ runs echoCmd [] running = true
    ∧ runs sessionOpenCmd [] running = true
    ∧ runs sessionCloseCmd [] running = true
    ∧ runs noticeMaskCmd [] running = true
    ∧ runs (transportCfgCmd (fun s => s.domain.cfg.port)) [(0, 1), (1, 1)] running = true
    ∧ runs (undefinedCmd 0x7FFF) [] running = true
    ∧ definedOpcodes.contains 0x7FFF = false := by decide

/-- Session 0 of the running device, changed. -/
def withSession (f : Session → Session) : State := running.modSession 0 f

theorem witness_PipelineRefusals_header :
    State.reset.receives (frame []) = false ∧ running.receives (frame []) = true ∧ ({ frame [] with ver := 2 } : Qcp).ver ≠ 1
    ∧ (16 ≤ ({ frame [] with sess := 16 } : Qcp).sess.toNat) ∧ ({ frame [] with flg := 1 } : Qcp).flg ≠ 0 ∧ ({ frame [] with stat := 1 } : Qcp).stat ≠ 0
    ∧ running.receives { frame [] with transport := 10 } = true ∧ headerFault { frame [] with transport := 10 } = none ∧ (frame []).session ≠ 15
    ∧ headerFault { frame [] with sess := 15 } = none ∧ ({ frame [] with sess := 15 } : Qcp).session = 15 := by decide

theorem witness_PipelineRefusals_sequence :
    sessionInRange (frame []) = true ∧ running.sessions[(frame []).session]? = some openSession ∧ noticeMaskCmd.unsequenced = false
    ∧ openSession.binding = some (frame []).binding ∧ openSession.history ≠ 2 ∧ openSession.binding ≠ some ({ frame [] with transport := 1 } : Qcp).binding
    ∧ running.receives { frame [] with transport := 1 } = true ∧ ({ openSession with history := 2 } : Session).history = 2
    ∧ ({ openSession with running := [(1, 0)] } : Session).classify 1 = .running
    ∧ ({ openSession with executed := 1, cache := [(0, { kind := .reply, sess := 0, seq := 0, opc := 0, flg := 0, stat := 0, payload := [] })] } : Session).classify 0
      = .duplicate (some { kind := .reply, sess := 0, seq := 0, opc := 0, flg := 0, stat := 0, payload := [] })
    ∧ ({ openSession with executed := 1 } : Session).classify 0 = .duplicate none ∧ ({ openSession with last := 64 } : Session).classify 0 = .stale
    ∧ ({ openSession with running := [(2, 0), (3, 0), (4, 0), (5, 0)] } : Session).classify 1 = .new
    ∧ 4 ≤ ({ openSession with running := [(2, 0), (3, 0), (4, 0), (5, 0)] } : Session).running.length
    ∧ openSession.classify 1 = .new ∧ openSession.running.length < 4 ∧ running.runningCount < 32
    ∧ noticeMaskCmd.check (frame []) openSession.priv running ≠ none := by decide

theorem witness_TransportEvents :
    running.transportUp 0 = true ∧ running.transportUp 1 = true
    ∧ (({ running with transports := modAt running.transports 0 fun r => { r with rx := [0xA5] } } : State).transport 0).rx ≠ []
    ∧ (withSession fun e => { e with lostPending := 3 }).sessions[0]? = some { openSession with lostPending := 3 }
    ∧ openSession.binding = some ⟨0, ⟨0, 0⟩⟩ ∧ (withSession fun e => { e with lostPending := 3 }).noticeRoom 0 0 24 = true
    ∧ (Transport.reset 0).sent = 0 ∧ ({ Transport.reset 0 with out := [⟨.zero, .nak 1 1⟩], sent := 2 } : Transport).sent ≠ 0 := by decide

/-- The device in WATCH with its wake set. -/
def watching : State := { running with power := { running.power with state := .watch } }

theorem witness_PowerCommands :
    runs powerStateCmd [] running = true
    ∧ runs powerStatusCmd [] running = true
    ∧ runs domainSetCmd [] running = true
    ∧ runs percCfgCmd [(1, 8), (3, 1), (8, 1), (10, 100)] running = true
    ∧ runs percRuleWriteCmd [(1, 1), (5, 16), (8, 1)] running = true
    ∧ runs percRuleReadCmd [(1, 1)] running = true
    ∧ runs percStatusCmd [] running = true
    ∧ runs holdupStatusCmd [] running = true
    ∧ running.power.state = .run ∧ watching.power.state = .watch
    ∧ runs powerStateCmd [(0, 1), (1, 1)] running = true ∧ runs powerStateCmd [(0, 2), (1, 1)] running = true
    ∧ ((goingOff running.power.domains (targetSet (frame (payload 8 [])) running)).any fun n => n == 5 || n == 6) = false
    ∧ ((goingOff running.power.domains (targetSet (frame (payload 8 [(2, 8)])) running)).any fun n => n == 5 || n == 6) = true
    ∧ lanesFit (targetSet (frame (payload 8 [(2, 8)])) running) running = true
    ∧ lanesFit (targetSet (frame (payload 8 [(2, 8)])) running) (running.modChan 0 fun c => { c with cost := 6000 }) = false := by decide

theorem witness_GoingDown :
    running.power.phase = .on ∧ running.power.resetDue = none ∧ State.reset.power.phase = .booting .powerOn .run
    ∧ (0x7FFFFFFFFFFFFFFF : BitVec 64) - 0 < 0x8000000000000000 ∧ ¬(0x8000000000000000 : BitVec 64) - 0 < 0x8000000000000000
    ∧ ({ running with power := { running.power with phase := .parked } } : State).power.phase = .parked := by decide

theorem witness_ComingUp :
    ({ State.reset with power := { Power.reset with phase := .supplyWait .resetN .run } } : State).power.phase = .supplyWait .resetN .run
    ∧ ({ State.reset with power := { Power.reset with phase := .refinHold } } : State).power.phase = .refinHold
    ∧ State.reset.power.phase = .booting .powerOn .run ∧ ({ running with perc := { running.perc with halted := true } } : State).perc.halted = true
    ∧ running.power.wakeUntilRun = false ∧ running.live = true ∧ running.holdup.state ≠ 1 ∧ running.holdup.state = 0
    ∧ ({ running with holdup := { running.holdup with measuring := true } } : State).holdup.measuring = true ∧ (0 < 56818 ∧ 176 * 56818 ≤ 10000000)
    ∧ 10000000 < 176 * 56819
    ∧ ({ running with boot := { running.boot with trial := true }, time := { running.time with dt := 38400000000000, beat := 600000 } } : State).passedMs 0 600000 = true
    ∧ running.boot.runAt = 0 ∧ watching.live = true ∧ watching.power.state = .watch ∧ watching.on 13 = true := by decide

/-- Rule 7 of R466's example, enabled. -/
def aRule : PercRule :=
  { enable := true, filter := 0, src := 7, shift := 1, cmp := 0, thresh := 60, count := 2, action := 1, target := 1, counter := 0, states := 7 }

/-- The device with rule 0 set. -/
def ruled : State := { watching with perc := { watching.perc with
  cfg := { watching.perc.cfg with enable := true }, rules := modAt watching.perc.rules 0 fun _ => aRule } }

theorem witness_PercolatorTick :
    running.perc.cfg.enable = false ∧ ruled.perc.cfg.enable = true ∧ ruled.perc.halted = false ∧ ruled.perc.rules[0]? = some aRule
    ∧ ruled.perc.runs[0]? = some RuleRun.reset ∧ aRule.enable = true ∧ aRule.activeIn ruled.power.state = true ∧ running.perc.rules[0]? = some PercRule.reset
    ∧ aRule.holds (60 * 65536) = false ∧ aRule.holds (61 * 65536) = true ∧ min (RuleRun.reset.cnt + 1) 255 < aRule.count ∧ aRule.does 0 = true
    ∧ 2 ≤ min (({ RuleRun.reset with cnt := 1 } : RuleRun).cnt + 1) 255 ∧ RuleRun.reset.armed = true
    ∧ (aRule.filter ≤ 4 ∧ aRule.src < 16 ∧ aRule.shift < 16 ∧ aRule.cmp < 4 ∧ aRule.count < 256 ∧ aRule.target < 4 ∧ aRule.counter < 4) := by decide

theorem witness_MemoryReadAfterWrite :
    Memory.wf running.mem = true ∧ (∀ i < 4, inMem (memBase + 8388604 + i) = true) ∧ inMem (memBase + 8388603) = true
    ∧ running.mem.loc memBase = running.mem.loc memBase := by decide

theorem witness_MemoryCommands :
    runs mbCfgCmd [(1, 1), (4, 255)] running = true
    ∧ runs mbStatusCmd [(1, 1)] running = true
    ∧ runs mbOwnSetCmd [] running = true
    ∧ runs mbDpCfgCmd [(0, 127)] running = true
    ∧ runs protWindowSetCmd [(0, 7)] running = true
    ∧ runs protWindowReadCmd [] running = true
    ∧ runs dmaAssignCmd [(0, 8), (1, 7)] running = true
    ∧ runs dmaStatusCmd [] running = true
    ∧ runs freezeReadCmd [(1, 1)] running = true
    ∧ runs eccReadCmd [(1, 1)] running = true
    ∧ runs memReadCmd [(3, 16), (4, 1)] (owned 0x14) = true
    ∧ runs memWriteCmd [(3, 16), (4, 1)] (owned 0x14) = true
    ∧ Bank.reset.goal = .off ∧ BankPower.on ≠ Bank.reset.goal ∧ Bank.reset.moving = none
    ∧ ({ Bank.reset with moving := some .on } : Bank).moving ≠ none ∧ 0x14 ≠ Bank.reset.ownerA
    ∧ (match (owned 0x14).eccRead 0x14 memBase 8 with | (_, o) => o) = none
    ∧ (match ({ owned 0x14 with mem := { (owned 0x14).mem with upsets := [((owned 0x14).mem.loc memBase / 8, true)] } } : State).eccRead 0x14 memBase 8 with
       | (_, o) => o) ≠ none := by decide

/-- A march in progress. -/
def aMarch : March :=
  { phase := 2, bank := 0, shadow := 0xFF, algo := 0, destructive := true, repair := false, target := none, origin := (frame []).origin 0x0210 }

theorem witness_MarchAndRepair :
    runs marchRunCmd [(2,1),(4,1)] running = true
    ∧ runs mbRepairCmd [] running = true
    ∧ runs marchStatusCmd [] running = true
    ∧ running.mem.march = none ∧ ({ running with mem := { running.mem with march := some aMarch } } : State).mem.march = some aMarch ∧ running.live = true
    ∧ aMarch.target = none ∧ ({ aMarch with target := some (1, 5) } : March).target = some (1, 5) ∧ ({ aMarch with shadow := 5 } : March).shadow ≠ 0xFF
    ∧ aMarch.shadow = 0xFF ∧ Bank.reset.rows.length < 8 ∧ 8 ≤ ({ Bank.reset with rows := List.range 8 } : Bank).rows.length
    ∧ Bank.reset.cols.length < 2 ∧ 2 ≤ ({ Bank.reset with cols := [0, 1] } : Bank).cols.length := by decide

/-- Bank `b` of the running device, changed. -/
def withBank (b : Nat) (f : Bank → Bank) : State := running.modBank b f

/-- DMA channel `n` of the running device, running a descriptor that copies 64 bytes within bank 0. -/
def copying (n : Nat) : State := (owned (if n < 8 then 0 else 7)).modDma n fun c =>
  { c with master := if n < 8 then 0 else 7, state := .running, run := some { ctrl := 1, src := memBase, dst := memBase + 64, length := 64, next := 0 } }

theorem witness_BankAndDmaEvents :
    running.live = true ∧ ((withBank 0 fun b => { b with moving := some .off }).bank 0).moving = some .off
    ∧ ((withBank 0 fun b => { b with moving := some .on, held := some .retention }).bank 0).moving = some .on
    ∧ ((withBank 0 fun b => { b with drainA := some 7 }).bank 0).drainA ≠ none ∧ ((withBank 0 fun b => { b with drainA := some 7 }).bank 0).drainB = none
    ∧ nextScrub (owned 7).mem 400 (owned 7).mem.scrub = some 0 ∧ (owned 7).mem.upsets.find? (fun u => u.1 == (owned 7).mem.loc memBase / 8) = none
    ∧ ([(0, false)] : List (Nat × Bool)).find? (fun u => u.1 == (owned 7).mem.loc memBase / 8) = some (0, false)
    ∧ ([(0, true)] : List (Nat × Bool)).find? (fun u => u.1 == (owned 7).mem.loc memBase / 8) = some (0, true)
    ∧ ucChan (copying 8) 8 = true ∧ ((running.modDma 8 fun c => { c with master := 7 }).dmaChan 8).state = .idle ∧ ((copying 8).dmaChan 8).state = .running
    ∧ ucChan (running.modDma 8 fun c => { c with master := 7 }) 8 = true
    ∧ ((running.modDma 8 fun c => { c with state := .stopped }).dmaChan 8).state = .stopped
    ∧ ((running.modDma 8 fun c => { c with state := .frozen }).dmaChan 8).state = .frozen
    ∧ ((withBank 124 fun b => { b with ownerB := 7 }).bank 124).ownerB = 7 ∧ (124 ≤ 127 ∧ (running.bank 127).ownerA = 0xFF)
    ∧ bankPowerOf 0 ≠ none ∧ ((owned 7).bank 0).ownerA = 7 ∧ ((owned 7).bank 0).shadowed = false ∧ ((owned 7).bank 0).crit = false
    ∧ (0x02010000 ≤ (0x0206FFFC : Word).toNat ∧ (0x0206FFFC : Word).toNat < 0x02070000 ∧ (0x0206FFFC : Word).toNat % 4 = 0)
    ∧ runs thawCmd [(0, 1)] frozen = true ∧ runs thawCmd [(0, 1), (2, 1)] frozen = true := by decide

theorem witness_BankAndDmaEvents_burst :
    nextDma (copying 0) = some 0 ∧ ((copying 0).dmaChan 0).run = some { ctrl := 1, src := memBase, dst := memBase + 64, length := 64, next := 0 }
    ∧ bitOf 1 3 = false ∧ bitOf 1 4 = false ∧ inIo ((copying 0).dmaChan 0).source = false ∧ inIo ((copying 0).dmaChan 0).dest = false
    ∧ (judgeDma (copying 0) 0 ((copying 0).dmaChan 0).source ((copying 0).dmaChan 0).burst .load).1 = .ok
    ∧ (judgeDma (copying 0) 0 ((copying 0).dmaChan 0).dest ((copying 0).dmaChan 0).burst .store).1 = .ok
    ∧ ((copying 0).eccRead 0x12 ((copying 0).dmaChan 0).source ((copying 0).dmaChan 0).burst).2 = none
    ∧ (judgeDma ((owned 0).modDma 0 fun c => { c with cur := memBase }) 0 memBase 32 .load).1 = .ok ∧ inIo memBase = false
    ∧ ((owned 0).eccRead 0x12 memBase 32).2 = none ∧ descOk 0 { ctrl := 1, src := memBase, dst := memBase + 64, length := 64, next := 0 } = true
    ∧ descOk 0 { ctrl := 0, src := 0, dst := 0, length := 0, next := 0 } = false := by decide

theorem witness_FirmwareAndDiagnosticCommands_navSwapCmd : runs (navSwapCmd image) [] running = true := by decide +kernel

theorem witness_FirmwareAndDiagnosticCommands_loopSwapCmd : runs (loopSwapCmd image) [] running = true := by decide +kernel

theorem witness_FirmwareAndDiagnosticCommands :
    runs bootStatusCmd [] running = true
    ∧ runs overrunLogCmd [(2, 1)] running = true
    ∧ runs faultLogCmd [(1, 1)] running = true
    ∧ runs tempReadCmd [] running = true
    ∧ runs countersCmd [] running = true
    ∧ runs selftestCmd [] running = true
    ∧ runs (fwWriteCmd true) [] running = true
    ∧ runs fwVerifyCmd [] running = true
    ∧ runs fwActivateCmd [] ({ running with nv := { running.nv with verified := [true, false] } }) = true
    ∧ runs deviceResetCmd [] running = true
    ∧ runs faultLogCmd [(0, 1), (1, 1)] running = true ∧ runs (fwWriteCmd false) [] running = true
    ∧ runs fwActivateCmd [(1, 1)] { running with boot := { running.boot with slot := 0, trial := true }, nv := { running.nv with verified := [true, false] } } = true
    ∧ runs (navSwapCmd image) [(0, 0xFF)] running = true := by decide +kernel

/-- The device with boot information changed. -/
def withBoot (f : BootInfo → BootInfo) : State := { running with boot := f running.boot }

/-- The origin of a command that answers later. -/
def anOrigin : Origin := (frame []).origin 0x1020

theorem witness_FirmwareEventsAndDebugPort :
    (withBoot fun b => { b with verifying := [(0, anOrigin, false)] }).boot.verifying = (0, anOrigin, false) :: [] ∧ image.readable = true
    ∧ ({ image with readable := false } : ImageRead).readable = false ∧ running.live = true ∧ running.on 8 = true ∧ running.on 9 = true ∧ running.on 2 = true
    ∧ ([⟨3, 0, some anOrigin, some 0, [], [], 1⟩] : List LoopSwap).find? (fun w => w.core == 3) = some ⟨3, 0, some anOrigin, some 0, [], [], 1⟩
    ∧ ({ running with time := { running.time with beat := 1 } } : State).time.tick = 0 ∧ 0 < 1
    ∧ (withBoot fun b => { b with navSwap := some ⟨0, none, 1, true⟩ }).boot.navSwap = some ⟨0, none, 1, true⟩
    ∧ (withBoot fun b => { b with selftests := [(1, anOrigin, 0)] }).boot.selftests = (1, anOrigin, 0) :: [] ∧ 1 &&& 0 = 0 ∧ 1 &&& 1 ≠ 0
    ∧ running.tap.prov ≠ 1 ∧ fitted.installed = true ∧ running.installed = false ∧ running.nv.rk1Done = false
    ∧ ({ running with nv := { running.nv with rk1Done := true } } : State).nv.rk1Done = true
    ∧ running.nv.rk1Open = false ∧ (4 : BitVec 256) &&& ~~~(3 : BitVec 256) ≠ 0 ∧ (1 : BitVec 256) &&& ~~~(3 : BitVec 256) = 0
    ∧ ({ running with tap := { running.tap with prov := 1 } } : State).tap.prov = 1 := by decide

theorem witness_FirmwareEventsAndDebugPort_crc : crc32c (leBytes 32 0) ≠ 0 ∧ crc32c (leBytes 32 0) = 0x8A9136AA := by decide +kernel

/-- Sample input `n` of the running device, changed. -/
def withInput (n : Nat) (f : SampleInput → SampleInput) : State := running.modInput n f

set_option maxRecDepth 50000 in
theorem witness_InputCommandsAndEvents_installWriteCmd : runs installWriteCmd [(0, 1), (2, 64), (3, 2), (60, 22), (61, 20), (62, 114), (63, 240)] running = true := by decide +kernel

theorem witness_InputCommandsAndEvents :
    runs installReadCmd [] running = true
    ∧ runs inputEnableCmd [] running = true
    ∧ runs inputStatsCmd [] (running.modInput 0 fun i => { i with state := .run, stat := some { beat := 0, state := 0, flags := 0, powerIn := 0, powerOut := 0, meanI := 0, meanQ := 0, clip := 0, blanked := 0, skew := 0, skewBefore := 0, notches := [], hist := [] } }) = true
    ∧ runs (subbandSetCmd streamLocked) [(1, 1), (2, 1), (8, 4)] fitted = true
    ∧ running.nv.install = none ∧ fitted.nv.install ≠ none ∧ runs inputEnableCmd [(1, 1)] fitted = true
    ∧ (running.input 7).state = .off ∧ running.inputOn 7 = true ∧ (withInput 7 fun i => { i with state := .disabled }).inputOn 7 = true
    ∧ ((withInput 7 fun i => { i with state := .disabled }).input 7).state = .disabled ∧ ((withInput 7 fun i => { i with state := .run }).input 7).state = .run
    ∧ ((withInput 7 fun i => { i with state := .training }).input 7).state = .training ∧ ((withInput 7 fun i => { i with state := .training }).input 7).aligned = none
    ∧ ((withInput 7 fun i => { i with state := .lostClock }).input 7).state = .lostClock
    ∧ findAlignment 0 [] = none ∧ findAlignment 0 (List.replicate 64 [0xA#4, 0x5#4, 0x5#4, 0xA#4]).flatten = some 0 := by decide

/-- Entry `n` of the ledger, as given. -/
def ledger (n : Nat) (e : Entry) : State := tuned.setEntry n e

/-- An entry for GPS L1 C/A of satellite 1. -/
def anEntry : Entry := { Entry.reset with state := .active, signal := 1, sat := 1, retries := 1, tcoh := 1, noncoh := 1, target := 5 }

/-- Entry 9 held by pipe 3. -/
def searching (e : Entry) : State :=
  { ledger 9 e with grinder := { (ledger 9 e).grinder with pipes := [none, none, none, some 9], placed := true } }

theorem witness_GrinderCommandsAndEvents_ledgerWriteCmd : runs ledgerWriteCmd [(1, 32), (2, 1), (6, 1), (7, 1), (11, 1), (13, 2), (15, 16)] tuned = true := by decide +kernel

theorem witness_GrinderCommandsAndEvents :
    runs grinderCfgCmd [(1, 2), (4, 100)] running = true
    ∧ runs grinderStatusCmd [] running = true
    ∧ runs ledgerReadCmd [(2, 1)] running = true
    ∧ runs ledgerCancelCmd [(1, 32), (2, 1)] running = true
    ∧ runs ledgerFreeCmd [(1, 32), (2, 1)] running = true
    ∧ runs acqPlanCmd [(4, 1), (36, 1)] running = true
    ∧ running.grinder.placed = false
    ∧ fieldU [8] 0 1 = 8 ∧ fieldU [0] 0 1 ≠ 8 ∧ anEntry.state = .active ∧ Entry.reset.state ≠ .pending ∧ Entry.reset.state ≠ .active ∧ Entry.reset.state ≠ .held
    ∧ ((ledger 9 { anEntry with state := .pending }).entry 9).state = .pending ∧ ((ledger 9 { anEntry with state := .found }).entry 9).state = .found
    ∧ ((searching anEntry).entry 9).state ≠ .pending
    ∧ (searching anEntry).grinder.pipes[3]? = some (some 9) ∧ (searching anEntry).grinder.pipes[0]? = some none ∧ (searching anEntry).live = true
    ∧ (searching anEntry).on 7 = true ∧ (searching anEntry).grinder.placed = true ∧ (searching anEntry).entry 9 = anEntry ∧ anEntry.cancel = false
    ∧ ({ anEntry with cancel := true } : Entry).cancel = true ∧ (searching anEntry).sig 1 1 ≠ none ∧ anEntry.attempts < anEntry.retries
    ∧ ({ anEntry with attempts := 1 } : Entry).retries ≤ ({ anEntry with attempts := 1 } : Entry).attempts
    ∧ (searching anEntry).on 5 = true ∧ anEntry.target ≠ 0xFFFE ∧ anEntry.foundAt + (searching anEntry).grinder.age.inForce = 1000
    ∧ ((candidates anEntry).find? fun c => ((searching anEntry).chan c).idle && ((searching anEntry).chan c).claim.isNone) = some 5
    ∧ ((candidates { anEntry with target := 0xFFFE }).find? fun c => ((searching anEntry).chan c).idle && ((searching anEntry).chan c).claim.isNone) = none
    ∧ (searching anEntry).admits false 23712001 = false ∧ bestEntry (searching anEntry) 0 = none := by decide +kernel

theorem witness_FabricCommandsAndLatch_codeLoadCmd : admits codeLoadCmd (frame (payload 149 [(0,224),(1,1),(5,216),(6,120),(7,13),(8,214),(9,152),(10,5),(12,64),(13,66),(14,15),(16,232),(17,3),(20,1)])) running = true := by decide +kernel

theorem witness_FabricCommandsAndLatch :
    runs fabricCfgCmd [(1, 2)] running = true
    ∧ runs fabricStatusCmd [] running = true
    ∧ runs chanStartCmd [(4,1),(5,1),(7,1),(20,28),(21,254),(22,235),(23,150),(24,18),(25,10),(66,8)] tuned = true
    ∧ runs chanStopCmd [(2, 1)] running = true
    ∧ runs chanReadCmd [(2, 1)] running = true
    ∧ runs chanModifyCmd [] tracking = true
    ∧ (tuned.chan 0).idle = true ∧ (tuned.chan 0).claim = none ∧ (tracking.chan 0).idle = false ∧ tuned.sig 1 1 ≠ none
    ∧ (-8388608 < (5 : Int) ∧ (5 : Int) < 8388607 ∧ -8388608 ≤ (5 : Int) + -8388613 ∧ (5 : Int) + 8388602 ≤ 8388607 ∧ 8388607 < (5 : Int) + 8388603
      ∧ (5 : Int) + -8388614 < -8388608) := by decide

/-- The device with channel 2047 in state `st` since beat 0, at beat `b`. -/
def inState (st b : Nat) : State :=
  { tuned.modChan 2047 fun c => { c with act := { Desc.reset with signal := 1, sat := 1, state := st } } with time := { tuned.time with beat := b } }

theorem witness_TrackingAndMultipath :
    runs trackProfileCmd [(2, 100), (4, 50), (6, 10), (8, 100), (10, 50), (13, 4), (15, 2), (19, 64), (20, 200), (22, 100), (24, 100), (27, 16), (32, 1), (36, 100), (38, 64), (40, 100), (45, 2)] running = true
    ∧ runs trackAssignCmd [(2, 1)] running = true
    ∧ runs trackProfileReadCmd [] running = true
    ∧ runs trackStatusCmd [(2, 1)] running = true
    ∧ runs mpCfgCmd [(2, 20), (5, 8), (6, 4), (7, 32), (8, 16)] running = true
    ∧ runs mpReadCmd [(2, 1)] running = true
    ∧ running.live = true ∧ running.on 8 = true ∧ coreRunning running 4 = true ∧ coreRunning State.reset 4 = false ∧ serviceQueue running 3 = []
    ∧ (inState 1 1500).on 8 = true ∧ ((inState 1 1500).chan 2047).act.state = 1
    ∧ ((inState 1 1500).track 2047).stateBeat + ((inState 1 1500).chanProfile 2047).pullinMax ≤ (inState 1 1500).time.beat
    ∧ ¬((inState 1 1499).track 2047).stateBeat + ((inState 1 1499).chanProfile 2047).pullinMax ≤ (inState 1 1499).time.beat
    ∧ ((inState 4 1000).chan 2047).act.state = 4
    ∧ ((inState 4 1000).track 2047).stateBeat + ((inState 4 1000).chanProfile 2047).coastMax ≤ (inState 4 1000).time.beat
    ∧ ((inState 5 1).chan 2047).act.state = 5 ∧ ((inState 5 1).track 2047).stateBeat < (inState 5 1).time.beat ∧ (inState 5 1).time.tick = 0
    ∧ nextFit 3 running = none ∧ (running.cores[4]?).map (·.mode) = some .running := by decide

theorem witness_TrackingAndMultipath_fit :
    nextFit 3 (running.setMpChan 2047 { MpChan.reset with ready := some {
        sums := [], dumps := 0, nominal := 0, taps := [], changed := false, windowEnd := 0 } }) = some 2047
    ∧ acceptEchoes 8 { los := 0, echoes := [], quality := 0 } = [] := by decide

theorem witness_IntegrityCommandsAndScore :
    runs interfCfgCmd [(2, 1), (3, 4), (4, 8), (5, 3), (6, 1)] running = true
    ∧ runs interfStatusCmd [] running = true
    ∧ runs spoofCfgCmd [(0, 64), (1, 64), (2, 64), (3, 64), (6, 1), (7, 2), (10, 1), (14, 100), (16, 13)] running = true
    ∧ runs spoofStatusCmd [] running = true
    ∧ runs osnmaKeyCmd [(4, 32)] running = true
    ∧ runs osnmaCfgCmd [(4, 1), (6, 64)] running = true
    ∧ runs osnmaStatusCmd [] running = true
    ∧ Interf.reset.level < interfLevel 1 ∧ interfLevel 0 ≤ Interf.reset.level ∧ Interf.reset.clear + 1 < 1000
    ∧ interfLevel 0 < ({ Interf.reset with level := 2, clear := 999 } : Interf).level ∧ levelHolds 0 2 = false
    ∧ 1000 ≤ ({ Interf.reset with level := 2, clear := 999 } : Interf).clear + 1
    ∧ SpoofCfg.reset.weights.sum = 256 ∧ SpoofCfg.reset.weights.length = 5 ∧ (∀ m ∈ [255, 0, 0, 0, 255], m ≤ 255) ∧ [255, 0, 0, 0, 255][4]? = some 255
    ∧ bitOf SpoofCfg.reset.hard 4 = true ∧ 0 < spoofTarget SpoofCfg.reset 96 ∧ spoofTarget SpoofCfg.reset 96 ≤ 1 ∧ 96 ≤ 80 + SpoofCfg.reset.hyst
    ∧ 79 + SpoofCfg.reset.hyst < 96 ∧ 48 + 1 < SpoofCfg.reset.clearEvals ∧ SpoofCfg.reset.clearEvals ≤ 49 + 1
    ∧ running.navRuns = true ∧ running.time.tick = 0 ∧ running.time.beat % 100 = 0 ∧ State.reset.navRuns = false := by decide

theorem witness_NavigationCommands_ephLoadCmd : admits (ephLoadCmd []) (frame (payload 14 [(0,1),(4,211),(6,4),(7,63),(8,176),(11,89),(12,99),(13,61)])) running = true := by decide +kernel

theorem witness_NavigationCommands :
    runs navCfgCmd [(0, 2), (8, 3), (11, 1), (13, 1), (14, 10), (16, 10), (19, 1), (20, 16)] running = true
    ∧ runs navStatusCmd [] running = true
    ∧ runs navResetCmd [] running = true
    ∧ runs antCfgCmd [] running = true
    ∧ runs pairCfgCmd [] running = true
    ∧ runs fusionCfgCmd [(19, 1), (20, 1), (23, 2), (26, 50), (28, 1)] running = true
    ∧ runs (almLoadCmd [none]) [(1, 1)] running = true
    ∧ runs pvtReadCmd [] (fixed running) = true
    ∧ runs measReadCmd [(0, 1)] measured = true
    ∧ (fixed running).nav.record 0 = some aFix ∧ measured.nav.meas ≠ none ∧ running.nav.almanac.contains (65536 + 1, []) = false
    ∧ aFix.pos.length = 3 ∧ aFix.vel.length = 3 ∧ aFix.posSig.length = 3 := by decide

/-- The running device at the start of beat `b`. -/
def atBeat (b : Nat) : State := { running with time := { running.time with beat := b } }

theorem witness_NavigationEvents :
    (atBeat 2).navRuns = true ∧ (atBeat 2).time.tick = 0 ∧ ((atBeat 2).time.beat - 2) % measBeats (atBeat 2).nav.cfg.inForce.rate = 0
    ∧ 0 % measBeats (latchEpoch (atBeat 2)).nav.cfg.inForce.rate = 0 ∧ (latchEpoch (atBeat 2)).nav.resetDue = none
    ∧ (latchEpoch ((atBeat 2).modNav fun v => { v with resetDue := some 2 })).nav.resetDue = some 2
    ∧ (running.live = true ∧ running.on 9 = true) ∧ State.reset.live = false
    ∧ (updateOsnma 0 (sendMeas (refreshFlags true (latchEpoch (atBeat 2))) ⟨0, 0, 0, 0, 0, 0, []⟩)).nav.skip = false
    ∧ (updateOsnma 0 (sendMeas (refreshFlags true (latchEpoch ((atBeat 2).modNav fun v => { v with skip := true }))) ⟨0, 0, 0, 0, 0, 0, []⟩)).nav.skip = true
    ∧ running.navRuns = true ∧ State.reset.navRuns = false ∧ (tracking.chan 0).idle = false := by decide +kernel

/-- The device with sensor fusion on and its IMU configured and seen at beat 0. -/
def fusing (b : Nat) : State := { (atBeat b).modNav fun v => { v with
    cfg := .at { NavCfg.reset with fuse := 4 }, fusion := .at { FusionCfg.reset with enable := 1, fuseWait := 2 }, imu := { ImuState.reset with lost := false }
    canUsed := true, canAt := some 0 } with
  periph := { running.periph with imuCfg := some { spiMode := 0, clkMhz := 1, readCmd := 0, readLen := 12, gyroOff := 0, accOff := 6, endian := 0, gyroLsb := 1, accLsb := 1 } } }

theorem witness_NavigationEvents_fusion :
    (fusing 20).live = true ∧ bitOf (fusing 20).nav.fusion.inForce.enable 0 = true ∧ (fusing 20).nav.imu.lost = false
    ∧ (fusing 20).passedMs (fusing 20).nav.imu.lastValid 20 = true ∧ (fusing 19).passedMs (fusing 19).nav.imu.lastValid 20 = false
    ∧ (fusing 100).nav.canUsed = true ∧ (fusing 100).nav.canAt = some 0 ∧ (fusing 100).passedMs 0 100 = true ∧ (fusing 99).passedMs 0 100 = false
    ∧ running.nav.canUsed = false ∧ (fusing 2).navRuns = true ∧ fuseBeats (fusing 2).nav.cfg.inForce.fuse ≠ 0 ∧ (fusing 2).nav.fusion.inForce.enable ≠ 0
    ∧ (fusing 2).time.tick = 0 ∧ (fusing 2).nav.fusion.inForce.fuseWait ≤ (fusing 2).time.beat
    ∧ ((fusing 2).time.beat - (fusing 2).nav.fusion.inForce.fuseWait) % fuseBeats (fusing 2).nav.cfg.inForce.fuse = 0
    ∧ running.periph.imuCfg = none ∧ (fusing 20).periph.imuCfg ≠ none ∧ (fusing 20).on 14 = true
    ∧ (fusing 20).time.tick = (fusing 20).nav.fusion.inForce.imuTick ∧ (fusing 20).time.beat % imuPeriod (fusing 20).nav.fusion.inForce.imuRate = 0
    ∧ histStart (fusing 300) = 100 * msUnits ∧ (fusing 300).now = 300 * msUnits ∧ 99 * msUnits < histStart (fusing 300) := by decide

/-- A type 1005 station. -/
def aStation : Station :=
  { source := 0, node := 0, id := 0, arp := none, desc := [], open_ := some { time := 0, frames := [], sats := [], since := 0, complete := false }
    obs := none, waitSince := some 0, heard := 0, last := [] }

theorem witness_CorrectionsAndStation :
    runs corrCfgCmd [(4, 1), (6, 5), (8, 10), (10, 5), (12, 64), (14, 5), (16, 40), (18, 1)] running = true
    ∧ runs corrStatusCmd [] running = true
    ∧ admits (corrPushCmd []) (frame (payload 14 [(1,1),(4,211),(6,4),(7,63),(8,176),(11,89),(12,99),(13,61)])) running = true
    ∧ runs refstnCfgCmd [(1, 1), (28, 60), (30, 5), (33, 4)] fitted = true
    ∧ runs refstnStatusCmd [] running = true
    ∧ frameCrcOk [211, 0, 4, 63, 176, 0, 0, 89, 99, 60] = false ∧ frameCrcOk [211, 0, 4, 63, 176, 0, 0, 89, 99, 61] = true
    ∧ frameCrcOk [211, 0, 0, 71, 234, 75] = true ∧ rtcmKind 4095 = .other ∧ rtcmKind 1057 = .ssr
    ∧ sourceOn (running.modCorr fun c => { c with cfg := .at { CorrCfg.reset with sources := 0 } }) 1 = false
    ∧ corrInRange { kind := 0, sat := 1, iod := 0, validMs := 0, value := [300001] } = false ∧ running.corr.stations.length ≤ 8
    ∧ ([aStation] : List Station)[0]? = some aStation ∧ ({ aStation with open_ := none, waitSince := none } : Station).open_ = none
    ∧ (atBeat 500).passedMs 0 500 = true ∧ (atBeat 499).passedMs 0 500 = false ∧ (atBeat 30000).passedMs 0 30000 = true := by decide +kernel

/-- The device in a domain as a grandmaster on EP0 with key slot 0. -/
def inDomain : State := { (keyed 3).modDomain fun d => { d with cfg := { d.cfg with enable := true, roles := 1, transport := 1 } } with
  eth := (keyed 3).eth.map fun p => { p with cfg := { p.cfg with enable := true, speed := 3, mac := [2, 0, 0, 0, 0, 1] }, link := 3 } }

/-- A datagram of QDP's HELLO from node 7, with a MAC of zeros. -/
def aDatagram : List Byte := [0x51, 0x44, 1, 1, 0, 0, 7, 0, 0xFF, 0xFF, 0, 0, 0, 0, 0, 0, 1, 0, 0, 0, 0, 0, 0, 0, 0, 0, 0, 0, 0, 0, 0, 0]

/-- A peer heard once. -/
def aPeer : Peer := { node := 7, roles := 1, class_ := 6, priority := 128, epoch := 5, highest := 9, window := 1, heard := 0, hello := 0, alert := 1, alertAt := 0, timedOut := false }

/-- A broadcast frame of 60 bytes with EtherType `t`. -/
def broadcast (t : Byte) : List Byte := List.replicate 6 0xFF ++ List.replicate 6 2 ++ [8, t] ++ List.replicate 46 0

theorem witness_DomainAndReceivedFrames :
    runs domainCfgCmd [(5, 4), (6, 255), (11, 224), (13, 1), (16, 1)] running = true
    ∧ runs domainStatusCmd [] running = true
    ∧ runs (qdpTunnelCmd []) [] running = true
    ∧ inDomain.portUp 1 = true ∧ running.portUp 1 = false ∧ inDomain.qdpOn = true ∧ running.qdpOn = false
    ∧ bitOf inDomain.domain.cfg.transport 0 = true ∧ bitOf inDomain.domain.cfg.transport 1 = false
    ∧ qdpHeaderOk inDomain aDatagram = true ∧ qdpHeaderOk inDomain [] = false ∧ macKey inDomain ≠ none
    ∧ macKey (inDomain.modSlot 0 fun k => { k with state := .empty }) = none
    ∧ (4 : BitVec 32).toNat < aPeer.epoch.toNat ∧ replayStep aPeer 5 10 ≠ none ∧ replayStep aPeer 5 9 = none
    ∧ inDomain.domain.sends = true ∧ inDomain.domain.helloDue ≤ inDomain.now ∧ running.domain.sends = false
    ∧ ([aPeer].filter fun p => !p.timedOut && bitOf p.roles 0 && (atBeat 3000).passedMs p.hello 3000) ≠ []
    ∧ ([aPeer].filter fun p => !p.timedOut && bitOf p.roles 0 && (atBeat 2999).passedMs p.hello 3000) = []
    ∧ (broadcast 6).length = 60 ∧ macAccepted inDomain 1 ((broadcast 6).take 6) = true ∧ (inDomain.port 1).cfg.vlan = 0
    ∧ beField (broadcast 6) 12 2 = 0x0806 ∧ beField (broadcast 0) 12 2 = 0x0800 ∧ macAccepted inDomain 1 [1, 2, 3, 4, 5, 6] = false
    ∧ ([0, 1, 8, 0, 6, 4, 0, 1] ++ List.replicate 20 0 : List Byte).take 8 = [0, 1, 8, 0, 6, 4, 0, 1]
    ∧ beField ([0, 1, 8, 0, 6, 4, 0, 1] ++ List.replicate 20 0) 24 4 = (inDomain.port 0).cfg.ipv4 := by decide +kernel

theorem witness_DomainAndReceivedFrames_mac :
    (macKey inDomain).map (fun k => decide (qdpMac k (aDatagram.take (aDatagram.length - 8)) ≠ aDatagram.drop (aDatagram.length - 8))) = some true := by
  decide +kernel

/-- The device at beat 1000 with TP3 and FREQ_OUT enabled since beat 0 and a segment of reported time. -/
def pulsing : State := { (atBeat 1000).modClock fun c => { c with segs := [⟨0, 0, 0, 1⟩], step := some 64000000000, state := 4, leapNext := some (1000000000, 19) } with
  timeSys := { (atBeat 1000).timeSys with
    tps := modAt running.timeSys.tps 3 fun t => { t with enable := true }, fout := { running.timeSys.fout with enable := true }
    evs := modAt running.timeSys.evs 8 fun e => { e with edge := 1, count := 8, beat := 1000 } } }

theorem witness_TimeCommandsAndPulses :
    runs timeConfigCmd [(2, 1), (4, 1), (12, 10), (16, 1), (18, 1), (20, 1), (22, 1)] running = true
    ∧ runs timeStatusCmd [] running = true
    ∧ runs tpConfigCmd [(8, 1)] running = true
    ∧ runs foutConfigCmd [(4, 1)] running = true
    ∧ runs evConfigCmd [(4, 1)] running = true
    ∧ runs evReadCmd [(1, 1)] running = true
    ∧ pulsing.live = true ∧ pulsing.on 13 = true ∧ ({ pulsing.tp 3 with pulse := (pulsing.tp 3).pulse.latch } : TpOut).enable = true
    ∧ pulsing.inTick (placeEdge (64000000000 - (pulsing.tp 3).pulse.latch.inForce.cable)) = true ∧ (pulsing.tp 3).enabledAt + halfSecond ≤ 64000000000
    ∧ tpGrid pulsing.clock (pulsing.tp 3) 64000000000 = some 0 ∧ tpQuality pulsing.clock 0 64000000000 = 2 ∧ (running.tp 3).enable = false
    ∧ tooClose none 64000000000 = false ∧ tooClose (some 63999999984) 64000000000 = true ∧ bitOf (pulsing.tp 3).pulse.inForce.policy 0 = false
    ∧ bitOf (TpPulse.mk 1 0 0).policy 0 = true ∧ foutGrid pulsing.clock pulsing.timeSys.fout 64000000000 = some 2 ∧ pulsing.timeSys.fout.waiting = false
    ∧ pulsing.timeSys.fout.pulse.latch.inForce.1 = false ∧ pulsing.timeSys.fout.lastEdge = none ∧ running.clock.step = none ∧ running.clock.leapNext = none
    ∧ (pulsing.ev 8).selects true = true ∧ (pulsing.ev 8).selects false = false ∧ (pulsing.ev 8).beat = pulsing.time.beat ∧ 8 ≤ (pulsing.ev 8).count := by
  decide +kernel

/-- The device at beat 1000 with a segment of reported time, a step to come and a leap second to come. -/
def stepping : State := (atBeat 1000).modClock fun c =>
  { c with segs := [⟨0, 0, 0, 1⟩], step := some 1000000000, state := 4, leapNext := some (1000000000, 19) }

theorem witness_TimeCommandsAndPulses_step :
    stepping.clock.step = some 1000000000 ∧ stepping.clock.seg stepping.now = some ⟨0, 0, 0, 1⟩ ∧ stepping.clock.state = 4 ∧ stepping.on 13 = true
    ∧ (⟨0, 0, 0, 1⟩ : Seg).dtOf (seconds 0 + (1000000000 : Int) * nsUnit) < (dtAt stepping.time.beat (stepping.time.tick + 1) : Nat)
    ∧ stepping.clock.leapNext = some (1000000000, 19)
    ∧ ((atBeat 600001).modClock fun c => { c with state := 2 }).clock.state = 2
    ∧ ((atBeat 600001).modClock fun c => { c with state := 2 }).clock.pastLimit (atBeat 600001).now = true ∧ running.clock.state ≠ 2 := by decide +kernel

/-- The device at beat `b` with every Carafe window in state `st`. -/
def windows (st : WindowState) (b : Nat) : State := (atBeat b).modCarafe fun c =>
  { c with arm := .at true, cfg := { c.cfg with mask := 7, evSel := 8, evEdge := 2 }, placed := true
           windows := c.windows.map fun w => { w with state := st, first := 0, last := 5, release := true } }

/-- The device with POST of `n`. -/
def big (n : Nat) : State := running.modCarafe fun c => { c with cfg := { c.cfg with post := n } }

theorem witness_CarafeCommandsAndEvents :
    runs carafeCfgCmd [(0, 1), (3, 1), (5, 255), (6, 255), (7, 255), (8, 1), (14, 1)] tuned = true
    ∧ runs carafeStatusCmd [] running = true
    ∧ runs carafeTriggerCmd [] running = true
    ∧ runs carafeReleaseCmd [] running = true
    ∧ runs carafeReadCmd [] frozenWindow = true
    ∧ runs (carafeReplayCmd []) [(2, 50), (4, 1)] frozenWindow = true
    ∧ (frozenWindow.window 0).held = true ∧ (running.window 0).held = false ∧ histSlotOf frozenWindow 0 = some 0
    ∧ running.carafe.arm.inForce = false ∧ (windows .filling 0).carafe.arm.inForce = true ∧ bitOf (windows .filling 0).carafe.cfg.mask 2 = true
    ∧ bitOf (windows .filling 0).carafe.cfg.mask 3 = false ∧ (∀ w, w < 8 → ((windows .filling 0).window w).held = true)
    ∧ ((List.range 8).find? fun w => !((windows .free 0).window w).held) = some 0
    ∧ (∀ w, w < 8 → ¬(((windows .filling 3).window w).state = .filling ∧ ((windows .filling 3).window w).trigNow = (windows .filling 3).now))
    ∧ ((List.range 8).find? fun w => decide (((windows .filling 3).window w).state = .filling) && ((windows .filling 3).window w).has 3) = some 0
    ∧ ((windows .filling 3).window 0).triggers.length < 8 ∧ 5 + 1 - 0 ≤ 60000 ∧ slotsLeft (windows .filling 3) 0 = true 
    ∧ slotsLeft (big 1000000) (0 + (big 1000000).carafe.cfg.post + 1 - windowStart (big 1000000) 0) = false ∧ ((List.range 8).find? fun w => !((big 1000000).window w).held) = some 0
    ∧ ((windows .filling 6).window 7).state = .filling ∧ ((windows .filling 6).window 7).last < (windows .filling 6).time.beat
    ∧ ((windows .frozen 6).window 7).held = true ∧ ((windows .frozen 6).window 7).release = true ∧ ((windows .frozen 6).window 7).state ≠ .replaying
    ∧ running.carafe.replay = none ∧ running.live = true ∧ running.on 13 = true ∧ State.reset.live = false
    ∧ 8 = (windows .filling 0).carafe.cfg.evSel ∧ bitOf (windows .filling 0).carafe.cfg.evEdge 1 = true := by decide

/-- A replay of window 0 with its two entries done. -/
def aReplay : Replay := { window := 0, sealIt := false, groups := 1, offset := 0, entries := [] }

/-- A fix from satellites `used`. -/
def aNavFix (used : List Nat) : NavFix :=
  { pos := [0, 0, 0], vel := [0, 0, 0], posSig := [1, 1, 1], velSig := 1, sigmaH := 1, sigmaV := 1, subs := some [], clkBias := 0, clkDrift := 0, clkSigma := 1
    pdop := 1, used := used, states := 4, observed := 5, innovations := [], residuals := [], ratio := 0, fixed := 0, timeE := 0, timeY := 0 }

/-- A replay in progress at beat `b`. -/
def replaying (b : Nat) : State := (windows .replaying b).modCarafe fun c =>
  { c with replay := some aReplay, windows := c.windows.map fun w => { w with live := some aFix, first := 0, last := 5 } }

theorem witness_CarafeCommandsAndEvents_replay :
    (replaying 6).carafe.replay = some aReplay ∧ (replaying 6).live = true ∧ replayOver aReplay (replaying 6) = true ∧ replayOver aReplay (replaying 5) = false
    ∧ enoughSats (aNavFix []).used = false ∧ enoughSats (aNavFix [1, 2, 3, 4, 5]).used = true ∧ aReplay.sealIt = false
    ∧ ((stopWindow 0 (replaying 6)).window 0).live = some aFix := by decide

/-- EP0 of the device up, with PTP enabled and changed. -/
def ported (b : Nat) (f : Ptp → Ptp) : State := { atBeat b with eth := (atBeat b).eth.map fun p =>
  { p with cfg := { p.cfg with enable := true, speed := 3, mac := [2, 0, 0, 0, 0, 1] }, link := 3, ptp := f { Ptp.reset with enable := true } } }

/-- A frame waiting for its launch. -/
def aFrame : TxFrame := { bytes := [], id := none, launch := some 0, own := false, use := 0, seq := 0, gen := 0 }

/-- EP0 with frame `f` on the line, in the queue and among the launches. -/
def sending (f : TxFrame) : State := (ported 0 id).modPort 0 fun p => { p with line := some f, queue := [f], launches := [f] }

theorem witness_EthernetCommandsAndLine :
    runs epCfgCmd [] running = true
    ∧ runs epStatusCmd [] running = true
    ∧ runs ethTxCmd [(4, 14)] (running.modPort 0 fun p => { p with cfg := { p.cfg with enable := true }, link := 3 }) = true
    ∧ runs ethTsReadCmd [(1, 1)] running = true
    ∧ runs ptpCfgCmd [(10, 2), (11, 1), (12, 5), (14, 10), (16, 100), (20, 20), (24, 4)] running = true
    ∧ runs ptpStatusCmd [] running = true
    ∧ runs ptpTrustCmd [] running = true
    ∧ (running.port 0).cfg.enable = false ∧ ((ported 0 id).port 0).cfg.enable = true
    ∧ runs epCfgCmd [(3, 3), (4, 2), (9, 1)] (ported 0 id) = true ∧ runs ptpCfgCmd [(8, 1), (10, 3), (11, 1), (12, 5), (14, 10), (16, 100), (20, 20), (24, 4)] (ported 0 id) = true
    ∧ (running.ptp 0).enable = false ∧ ((ported 0 id).ptp 0).enable = true
    ∧ ((sending aFrame).port 0).launches.filter (fun f => (f.launch.map fun l => decide (l ≤ (sending aFrame).now + 0 + 4925)).getD false) = aFrame :: []
    ∧ (running.port 0).launches = [] ∧ (sending aFrame).portUp 0 = true ∧ aFrame.own = false ∧ ({ aFrame with own := true, gen := 1 } : TxFrame).gen ≠ running.clock.gen
    ∧ running.portUp 0 = false ∧ ((ported 0 id).port 0).line = none ∧ ((ported 0 id).port 0).queue = [] ∧ ((sending aFrame).port 0).line = some aFrame
    ∧ ((sending aFrame).port 0).queue.head? = some aFrame ∧ (running.port 0).link = 0 ∧ ((ported 0 id).port 0).link ≠ 0
    ∧ (ported 0 id).live = true ∧ (ported 0 id).on 12 = true ∧ ((ported 0 id).port 0).linkUpAt = none
    ∧ (((ported 0 id).modPort 0 fun p => { p with link := 0 }).port 0).link = 0
    ∧ (((ported 0 id).modPort 0 fun p => { p with linkUpAt := some 0 }).port 0).linkUpAt = some 0 ∧ 0 ≤ (ported 0 id).now := by decide

theorem witness_EthernetCommandsAndLine_ptp :
    runs ptpCfgCmd [(1, 1), (10, 2), (11, 1), (12, 5), (14, 10), (16, 100), (20, 20), (24, 4)] (ported 0 fun p => { p with enable := false }) = true
    ∧ runs ptpCfgCmd [(1, 1), (10, 2), (11, 1), (12, 5), (14, 10), (16, 100), (20, 20), (24, 4)] ((ported 0 fun p => { p with enable := false }).modPort 0 fun p =>
      { p with link := 0 }) = true := by decide

/-- A clock that announces itself. -/
def aClock : ClockSet :=
  { priority1 := 128, clockClass := 6, accuracy := 0x21, variance := 0, priority2 := 128, identity := [1, 2, 3, 4, 5, 6, 7, 8], steps := 0
    port := [1, 2, 3, 4, 5, 6, 7, 8, 0, 1], heard := 0, timeSource := 0x20, flags := 0, utcOffset := 37 }

/-- The header of a PTP message of type `t` from a clock, with two steps. -/
def aMessage (t : Byte) (source : List Byte) : List Byte :=
  [t, 2, 0, 44, 0, 0, 2, 0] ++ List.replicate 8 0 ++ [0, 0, 0, 0] ++ source ++ [0, 1, 0, 0] ++ List.replicate 10 0

/-- EP0 as a port that follows `aClock`. -/
def following (b : Nat) (f : Ptp → Ptp) : State := ported b fun p => f { p with state := 8, parent := some aClock, path := some 0, locked := true }

theorem witness_PtpMessagesAndTimers_receive :
    ((running.ptp 0).enable = false ∧ running.portUp 0 = false) ∧ ((ported 0 id).ptp 0).enable = true ∧ (ported 0 id).portUp 0 = true
    ∧ ptpHeaderOk (ported 0 id) 0 [] = false ∧ ptpHeaderOk (ported 0 id) 0 (aMessage 0 aClock.port) = true
    ∧ (ptpSource (aMessage 0 aClock.port)).take 8 ≠ (ported 0 id).clockId
    ∧ (ptpSource (aMessage 0 ((ported 0 id).clockId ++ [0, 1]))).take 8 = (ported 0 id).clockId
    ∧ ptpHeaderOk (ported 0 id) 0 (aMessage 0 ((ported 0 id).clockId ++ [0, 1])) = true
    ∧ (atBeat 59999).passedMs 0 60000 = false ∧ ((ported 0 id).ptp 0).loopAt = none
    ∧ (ptpRate 0 0 (ptpSource (aMessage 0 aClock.port)) (ported 0 id)).2 = true ∧ ptpCorrOk (aMessage 0 aClock.port) = true
    ∧ ((ported 0 id).ptp 0).state ≠ 8 ∧ ((following 0 id).ptp 0).state = 8 ∧ (((following 0 id).ptp 0).parent.map (·.port)) = some (ptpSource (aMessage 0 aClock.port))
    ∧ ptpTwoStep (aMessage 0 aClock.port) = true ∧ ptpSeq (aMessage 0 aClock.port) = 1
    ∧ (1 + 65536 - ((following 0 id).ptp 0).syncSeq.getD (1 + 65535)) % 65536 = 0 + 1
    ∧ ((following 0 fun p => { p with wait := some (1, 0, 0) }).ptp 0).wait = some (1, 0, 0) ∧ beField (aMessage 8 aClock.port) 40 4 < 1000000000 := by
  decide +kernel

theorem witness_PtpMessagesAndTimers_sample :
    (running.ptp 0).path = none ∧ ((following 0 id).ptp 0).path = some 0 ∧ ((following 0 fun p => { p with window := some (0, 0, 0) }).ptp 0).window.isSome = true
    ∧ ((following 0 id).modClock fun c => { c with gnss := some ⟨5, 0, 1⟩ }).clock.gnss = some ⟨5, 0, 1⟩
    ∧ ((following 0 id).ptp 0).window = none ∧ predictedOffset (following 0 id) 0 0 = none
    ∧ predictedOffset (following 0 fun p => { p with anchor := some (0, 7), rate := 0 }) 0 0 ≠ none ∧ ((following 0 id).ptp 0).suspect = none
    ∧ ((following 0 id).ptp 0).cfg.inForce.jumpThr = 1000 ∧ ((1000 : Nat) : Rat) < absRat (1008 - 7) ∧ ¬((1000 : Nat) : Rat) < absRat (1007 - 7)
    ∧ 4 * rmsOf [] < absRat (207 - 6) ∧ ((following 0 id).ptp 0).cfg.inForce.lockThr = 50 ∧ 4 * ((50 : Nat) : Rat) < absRat (207 - 6)
    ∧ ¬4 * ((50 : Nat) : Rat) < absRat (207 - 7) := by decide +kernel

theorem witness_PtpMessagesAndTimers_timers :
    ((ported 0 fun p => { p with state := 5 }).ptp 0).state = 5 ∧ (ported 0 fun p => { p with state := 5 }).portUp 0 = true ∧ (running.ptp 0).state ≠ 5
    ∧ ((ported 0 fun p => { p with stop := { p.stop with profile := 2 } }).ptp 0).stop.profile = 2 ∧ ((following 0 id).ptp 0).stop.profile < 2
    ∧ ((following 4000 fun p => { p with suspect := some (0, 0), kept := [(5, 3)] }).ptp 0).suspect = some (0, 0)
    ∧ 0 + 4 * logUnits 0 = (following 4000 id).now ∧ (following 3999 id).now < 0 + 4 * logUnits 0 ∧ (following 4000 id).gnssFix = none
    ∧ ([(5, 3), (300, 3), (5, 3)] : List (Rat × Rat)) ≠ [] ∧ (300 - 3 : Rat) - (5 - 3) = 295 ∧ ¬(295 : Rat) ≤ ((1000 : Nat) : Rat) / 4
    ∧ (0 : Rat) ≤ ((1000 : Nat) : Rat) / 4 ∧ (following 0 id).ptp 0 ≠ Ptp.reset ∧ (running.ptp 0).window = none
    ∧ (following 60000 id).passedMs 0 (1000 * 60) = true ∧ (following 59999 id).passedMs 0 (1000 * 60) = false
    ∧ ((following 0 id).ptp 0).gnssOk = true ∧ 0 < ({ Ptp.reset with gnssCount := 1 } : Ptp).gnssCount ∧ ((following 0 id).ptp 0).gnssCount = 0
    ∧ (([(aClock.identity, some 5)] : List (List Byte × Option Nat)).filter fun u => (u.2.map fun t => decide ((atBeat 1).now < t)).getD true).length ≠ 1
    ∧ (([(aClock.identity, none)] : List (List Byte × Option Nat)).filter fun u => (u.2.map fun t => decide ((atBeat 1).now < t)).getD true).length = 1
    ∧ ((following 3000 id).ptp 0).locked = true ∧ ((following 3000 id).ptp 0).lastSync + 3 * logUnits 0 ≤ (following 3000 id).now
    ∧ ((ported 0 id).ptp 0).parent = none ∧ ((following 0 id).ptp 0).parent = some aClock := by decide +kernel

theorem witness_PtpMessagesAndTimers_gnss :
    ((following 4000 id).modClock fun c => { c with gnss := some ⟨5, 0, 1⟩, cfg := .at { TimeCfg.reset with sources := 3 } }).gnssFix = some ⟨5, 0, 1⟩ := by
  decide +kernel

/-- A request of the host for 16 bytes of bank 0. -/
def aRequest : CipherReq :=
  { unit := 0xFF, mode := 3, slot := 0, flags := 0, src := memBase, dst := memBase + 16, length := 16, aad := 0, aadLen := 0, tagLen := 0
    iv := List.replicate 16 0, tag := 0, master := 0x14, origin := none, resultAt := 0, accepted := 0, latest := false, key := List.replicate 16 0, abort := none }

/-- CU3 of the device at beat `b` running `r`. -/
def ciphering (b : Nat) (r : CipherReq) : State :=
  { (owned 0x14).modUnit 3 fun u => { u with running := some r } with time := { (owned 0x14).time with beat := b } }

/-- How an operation ended, without or with a mismatch. -/
def ended (failed : Option Nat) : CipherEnd := { progress := 16, mismatches := [], failed := failed }

theorem witness_CipherUnitsAndKeySlots :
    runs cuStatusCmd [] running = true
    ∧ runs keyDeriveCmd [] running = true
    ∧ runs keySlotReadCmd [(1, 1)] running = true
    ∧ runs cipherRunCmd [(1, 3), (7, 16), (11, 16), (12, 16)] ((keyed 0x00FF).modBank 0 fun b => { b with ownerA := 0x14, state := .on, power := .on }) = true
    ∧ runs (keyEraseCmd failSeals) [] running = true
    ∧ running.cipher.trngFail = none ∧ ({ running with cipher := { running.cipher with trngFail := some 0 } } : State).cipher.trngFail = some 0
    ∧ runs (keyEraseCmd failSeals) [(1, 1)] (keyed 0x00FF) = true ∧ runs (keyEraseCmd failSeals) [] (keyed 0x00FF) = true
    ∧ ((keyed 0x00FF).slot 0).state = .active ∧ (running.slot 0).state = .empty
    ∧ running.cipherOn = true ∧ State.reset.cipherOn = false ∧ leaseOver running (running.unit 0) = false
    ∧ leaseOver (atBeat 100) { (running.unit 6) with holder := 7, leaseMs := 100, leaseFrom := 0 } = true
    ∧ leaseOver (atBeat 99) { (running.unit 6) with holder := 7, leaseMs := 100, leaseFrom := 0 } = false
    ∧ ({ KeySlot.reset with state := .erasePending } : KeySlot).inUse = 0 ∧ ({ KeySlot.reset with state := .rewritePending, shadow := some SlotKey.reset } : KeySlot).shadow ≠ none
    ∧ ({ SlotKey.reset with expiry := 5 } : SlotKey).expired 5 = true ∧ ({ SlotKey.reset with expiry := 5 } : SlotKey).expired 4 = false
    ∧ ((ciphering 0 aRequest).unit 3).running = some aRequest ∧ (ended none).mismatches = [] ∧ (ended none).failed = none ∧ (ended (some 1)).failed = some 1
    ∧ recentMismatches (ciphering 0 aRequest) 3 < 3 ∧ aRequest.length ≤ (ended none).progress ∧ aRequest.length ≠ 0 ∧ aRequest.abort = none
    ∧ ({ aRequest with length := 32, abort := some 1 } : CipherReq).abort = some 1 ∧ ¬(32 ≤ (ended none).progress)
    ∧ runtimeBad (ciphering 0 aRequest) aRequest = none ∧ ((ciphering 0 aRequest).eccRead 0x14 memBase 16).2 = none
    ∧ runtimeBad (ciphering 0 aRequest) { aRequest with src := 0 } ≠ none
    ∧ (ciphering 10 aRequest).passedMs (max 0 aRequest.accepted) 10 = true ∧ (ciphering 9 aRequest).passedMs (max 0 aRequest.accepted) 10 = false := by decide

/-- The device that seals with slot 0, with a seal waiting. -/
def sealingNow : State := (fixed (keyed 0x0800)).modSeal fun c => { c with cfg := { c.cfg with enable := true }, jobs := [⟨0, []⟩] }

theorem witness_SealsAndTheirCounter :
    runs sealCfgCmd [] running = true
    ∧ runs sealNowCmd [] ((fixed (keyed 0x0800)).modSeal fun c => { c with cfg := { c.cfg with enable := true } }) = true
    ∧ runs sealReadCmd [(8, 1)] (running.modSeal fun c => { c with log := [(1, [])] }) = true
    ∧ runs sealVerifyCmd [] (keyed 0x0800) = true
    ∧ runs sealCfgCmd [(0, 1)] running = true ∧ (sealCfgOf (frame (payload 8 [(0, 1)])) running.sealing.cfg).enable = true
    ∧ sealKeyHeld (sealCfgOf (frame (payload 8 [(0, 1)])) running.sealing.cfg) running = false
    ∧ running.cipher.trngFail = none ∧ running.sealing.next < 0xFFFFFFFFFFFFFFFF ∧ running.nv.ceil ≤ 0xFFFFFFFFFFFFFFFF
    ∧ sealingNow.cipherOn = true ∧ sealingNow.sealing.jobs = ⟨0, []⟩ :: [] ∧ sealSlotActive sealingNow = true
    ∧ running.sealing.jobs = [] ∧ sealSlotActive running = false := by decide

/-- UART `n` of the device, changed. -/
def withUart (n : Nat) (f : Uart → Uart) : State := running.modUart n f

/-- Card mode. -/
def inCardMode (u : Uart) : Uart := u.modCard fun k => k.setCh fun h => { h with card := true }

theorem witness_UartsAndCards :
    runs uartCfgCmd [(4, 200)] running = true
    ∧ runs periphStatusCmd [] running = true
    ∧ runs cardCfgCmd [(0, 4), (2, 20)] carded = true
    ∧ runs (cardResetCmd none) [(0, 4)] carded = true
    ∧ runs cardApduCmd [(0, 4), (2, 4)] carded = true
    ∧ (frame (payload 8 [])).transport ≠ 0 + 2 ∧ ({ frame (payload 8 []) with transport := 2 } : Qcp).transport = 0 + 2
    ∧ runs (cardResetCmd none) [(0, 4), (1, 2)] carded = true ∧ runs (cardResetCmd (some ⟨[0x3B, 0x00], true⟩)) [(0, 4)] carded = true
    ∧ running.ucUart 5 = false ∧ (withUart 5 fun u => { u with owner := 1 }).ucUart 5 = true
    ∧ ({ Uart.reset with hold := some 1 } : Uart).hold.isSome = true ∧ Uart.reset.hold = none ∧ Uart.reset.txen = false
    ∧ ({ Uart.reset with shift := some 1 } : Uart).shift.isSome = true ∧ ({ Uart.reset with txen := true } : Uart).txen = true ∧ Uart.reset.shift = none
    ∧ running.periphOn = true ∧ (running.uart 0).owner = 0 ∧ running.transportUp 2 = true ∧ running.transportUp 7 = false
    ∧ ((withUart 5 fun u => { u with owner := 1 }).uart 5).rxen = false ∧ ((withUart 5 fun u => { u with owner := 1, rxen := true }).uart 5).rxen = true
    ∧ (running.uart 5).ch.card = false ∧ ((withUart 5 inCardMode).uart 5).ch.card = true ∧ 2 ≤ (carded.uart 4).owner
    ∧ ({ Uart.reset with rxHold := some ⟨1, false, false, false⟩ } : Uart).rxHold.isSome = true
    ∧ (inCardMode Uart.reset).ch.t1 = false ∧ (inCardMode Uart.reset).card.txReps < min 4 (inCardMode Uart.reset).ch.repeats
    ∧ ((withUart 4 fun u => u.modCard fun k => { k with apdu := some anOrigin }).uart 4).card.apdu = some anOrigin ∧ (running.uart 4).card.apdu = none
    ∧ ((withUart 4 fun u => (inCardMode u).modCard fun k => { k with wt := 1 }).uart 4).card.wt ≠ 0 ∧ State.reset.periphOn = false := by decide

/-- CAN port 1 enabled, changed. -/
def onCan (f : CanPort → CanPort) : State := running.modCan 1 fun c => f { c with cfg := { c.cfg with enable := true } }

/-- Wheel input `n` enabled in a mode, changed. -/
def wheeled (mode : Nat) (f : WheelIn → WheelIn) : State := { running with periph := { running.periph with
  wtCfg := { running.periph.wtCfg with enable := 8, mode := [0, 0, 0, mode] }, wheels := modAt running.periph.wheels 3 f } }

theorem witness_BusesWheelsAndPins :
    runs imuCfgCmd [(1, 1), (3, 12), (8, 1), (12, 1)] running = true
    ∧ runs (imuXferCmd (some [])) [(0, 1)] (running.modPeriph fun p => { p with imuCfg := some { spiMode := 0, clkMhz := 1, readCmd := 0, readLen := 12, gyroOff := 0, accOff := 0, endian := 0, gyroLsb := 1, accLsb := 1 } }) = true
    ∧ runs (i2cXferCmd .nack) [(0, 16), (4, 1)] running = true
    ∧ runs canCfgCmd [(4, 10), (6, 29), (7, 9), (8, 1), (9, 2), (10, 29), (11, 9), (12, 1)] running = true
    ∧ runs canMapCmd [(1, 1), (9, 1), (16, 1)] running = true
    ∧ runs (canTxCmd ⟨true, 0⟩) [(8, 1)] canned = true
    ∧ runs wtCfgCmd [(2, 1), (8, 255), (9, 255), (10, 255), (11, 255)] running = true
    ∧ runs gpioCfgCmd [(6, 1)] running = true
    ∧ runs gpioWriteCmd [] running = true
    ∧ runs gpioReadCmd [] running = true
    ∧ runs (imuXferCmd none) [(0, 1)] (running.modPeriph fun p => { p with imuCfg := some { spiMode := 0, clkMhz := 1, readCmd := 0, readLen := 12, gyroOff := 0, accOff := 0, endian := 0, gyroLsb := 1, accLsb := 1 } }) = true
    ∧ runs (i2cXferCmd (.read [1])) [(0, 16), (4, 1)] running = true ∧ runs (i2cXferCmd .stretch) [(0, 16), (4, 1)] running = true
    ∧ runs (i2cXferCmd .stuck) [(0, 16), (4, 1)] running = true ∧ runs (canTxCmd ⟨false, 32⟩) [(8, 1)] canned = true
    ∧ running.periphOn = true ∧ State.reset.periphOn = false ∧ (running.can 1).cfg.enable = false ∧ ((onCan id).can 1).cfg.enable = true ∧ ((onCan id).can 1).state ≠ 2
    ∧ ((onCan fun c => { c with state := 2 }).can 1).state = 2 ∧ 1 < running.periph.cans.length ∧ ((onCan fun c => { c with tec := 127, recv := 127 }).can 1).tec ≤ 127
    ∧ 255 < ((onCan fun c => { c with tec := 256 }).can 1).tec ∧ 127 < 128
    ∧ bitOf running.periph.wtCfg.enable 3 = false ∧ bitOf (wheeled 1 id).periph.wtCfg.enable 3 = true ∧ ((wheeled 1 id).periph.wtCfg.mode[3]?).getD 0 = 1
    ∧ ((wheeled 1 id).wheel 3).fast 0 = false ∧ ((wheeled 1 fun w => { w with last := some 0 }).wheel 3).fast 1279999 = true
    ∧ ((wheeled 1 fun w => { w with last := some 0 }).wheel 3).fast 1280000 = false
    ∧ ((wheeled 1 fun w => { w with fastSecond := some 0 }).wheel 3).fastSecond = some running.second ∧ ((wheeled 1 id).wheel 3).fastSecond ≠ some running.second
    ∧ bitOf (running.gpio 7).edge 0 = false ∧ bitOf ({ (running.gpio 7) with edge := 3, notify := true } : GpioPin).edge 1 = true
    ∧ (running.gpio 7).owner = 0 ∧ (running.gpio 7).notify = false ∧ running.periph.gpio.length = 8 := by decide

/-- The UC with its swap in progress. -/
def aSwap (handed : Option (Word × Bool)) : UcSwap := { entry := 0, graceEnd := 64000, start := 0, origin := anOrigin, handed := handed, handBeat := 0 }

/-- The UC suspending at beat `b`. -/
def suspending (b : Nat) (handed : Option (Word × Bool)) : State := (atBeat b).modUc fun u => { u with state := .suspending, swap := some (aSwap handed) }

theorem witness_CustomerCoreCommandsAndBlocks :
    runs ucCfgCmd [(4, 1)] running = true
    ∧ runs ucStatusCmd [] running = true
    ∧ runs ucLoadCmd [(3, 16), (4, 1)] (owned 7) = true
    ∧ runs ucStartCmd [] running = true
    ∧ runs ucStopCmd [] ucRunning = true
    ∧ runs ucSwapCmd [(4, 1)] ucRunning = true
    ∧ running.live = true ∧ running.on 10 = true ∧ State.reset.live = false ∧ bitOf 1 0 = true ∧ bitOf 2 0 = false ∧ running.uc.tx.length + 4 ≤ 4096
    ∧ ({ ucRunning.uc with wdog := 1, wdogLeft := 0 } : UcBlock).state = .running ∧ running.uc.wdog = 0 ∧ running.uc.swap = none
    ∧ (suspending 1 none).uc.swap = some (aSwap none) ∧ (suspending 1 none).uc.state = .suspending ∧ (aSwap none).handed = none ∧ (aSwap none).graceEnd ≤ (suspending 1 none).now
    ∧ (suspending 0 none).now < (aSwap none).graceEnd ∧ (aSwap (some (7, true))).handed = some (7, true) ∧ (aSwap (some (7, true))).handBeat < (suspending 1 (some (7, true))).time.beat
    ∧ (suspending 1 (some (7, true))).time.tick = 0 ∧ (suspending 0 (some (7, true))).time.beat ≤ (aSwap (some (7, true))).handBeat
    ∧ UcTimer.reset.en = false ∧ ({ UcTimer.reset with en := true, count := 2 } : UcTimer).armed = false ∧ 2 ≤ ({ UcTimer.reset with en := true, count := 2 } : UcTimer).count
    ∧ UcTimer.reset.count ≤ 1 ∧ 1 ≤ UcTimer.reset.load := by decide

theorem witness_CustomerCoreCommandsAndBlocks_full : 4096 < ({ running.uc with tx := List.replicate 4093 0 } : UcBlock).tx.length + 4 := by
  rw [List.length_replicate]; decide

/-! ### Torpin: words written out from Tables 16.1 to 16.13 -/

/-- Core `n` running at memBase + 0x100, with a window of 32 Kbyte of bank 0 and an RS window over the rest, and g0 to g15 as given. -/
def onCore (n : Nat) (g : List Word) : State :=
  (((owned n).modCore n fun c => { c with g := g, pc := BitVec.ofNat 32 (memBase + 0x100), rsp := BitVec.ofNat 32 (memBase + 0xFFF0) }).setWindow n 0
    { base := memBase, limit := memBase + 0x8000, perm := 7, flags := 1 }).setWindow n 1 { base := memBase + 0x8000, limit := memBase + 0x10000, perm := 0, flags := 3 }

/-- Every register holds an address of bank 0, and c holds 2. -/
def addresses : List Word := (List.replicate 16 (BitVec.ofNat 32 (memBase + 0x400))).set 13 2


/-- Core `n` fetches and executes this word, and it is the instruction of that key. -/
def runsAs (n : Nat) (key : Nat) (bytes : List Byte) : Bool :=
  match decodeInsn n bytes with
  | .ok d => d.key == key && d.len == bytes.length && fetches (fetchOf n bytes) d (onCore n addresses)
  | _ => false

theorem witness_TorpinAluRegister :
    [(0x10, [0x10, 0x12]), (0x11, [0x11, 0x12]), (0x12, [0x12, 0x12]), (0x15, [0x15, 0x12]), (0x16, [0x16, 0x12]), (0x17, [0x17, 0x12]), (0x18, [0x18, 0x12]),
      (0x19, [0x19, 0x12]), (0x1A, [0x1A, 0x12]), (0x1B, [0x1B, 0x12]), (0x1C, [0x1C, 0x12]), (0x1D, [0x1D, 0x12]), (0x1E, [0x1E, 0x12]), (0x1F, [0x1F, 0x12]),
      (0x28, [0x28, 0x12]), (0x29, [0x29, 0x12]), (0x2A, [0x2A, 0x12]), (0x2B, [0x2B, 0x12]), (0x2C, [0x2C, 0x12]), (0x2D, [0x2D, 0x12]), (0x2E, [0x2E, 0x12]),
      (0x2F, [0x2F, 0x12]), (0x30, [0x30, 0x12]), (0x31, [0x31, 0x12])].all (fun e => runsAs 7 e.1 e.2) = true := by decide

theorem witness_TorpinAluImmediate :
    [(0x40, [0x40, 0x10, 0xFE, 0xFF]), (0x41, [0x41, 0x10, 0xFE, 0xFF]), (0x42, [0x42, 0x10, 0xFE, 0xFF]), (0x45, [0x45, 0x10, 0xFE, 0xFF]),
      (0x46, [0x46, 0x10, 0xFE, 0xFF]), (0x47, [0x47, 0x10, 0xFE, 0xFF]), (0x48, [0x48, 0x10, 4, 0]), (0x49, [0x49, 0x10, 4, 0]), (0x4A, [0x4A, 0x10, 4, 0]),
      (0x4B, [0x4B, 0x10, 4, 0]), (0x4C, [0x4C, 0x10, 4, 0]), (0x4D, [0xDA, 0x4D, 0x10, 1, 2, 3, 4])].all (fun e => runsAs 0 e.1 e.2) = true := by decide

theorem witness_TorpinDivideOverflow :
    [(0x13, [0x13, 0x12]), (0x43, [0x43, 0x10, 0xFE, 0xFF]), (0x14, [0x14, 0x12]), (0x44, [0x44, 0x10, 0xFE, 0xFF]), (0x20, [0x20, 0x12]), (0x21, [0x21, 0x12]),
      (0x22, [0x22, 0x12]), (0x23, [0x23, 0x12]), (0x24, [0x24, 0x12]), (0x25, [0x25, 0x12]), (0x26, [0x26, 0x12]), (0x27, [0x27, 0x12])].all
      (fun e => runsAs 7 e.1 e.2) = true
    ∧ (-2147483648 ≤ (0x7FFFFFFE : Word).toInt + (1 : Word).toInt ∧ (0x7FFFFFFE : Word).toInt + (1 : Word).toInt ≤ 2147483647)
    ∧ (-2147483648 ≤ (0x80000001 : Word).toInt - (1 : Word).toInt ∧ (0x80000001 : Word).toInt - (1 : Word).toInt ≤ 2147483647) ∧ (1 : Word) ≠ 0 := by decide

theorem witness_TorpinArithTraps :
    fetches (fetchOf 7 [0x13, 0x12]) { Dec.of 0x13 2 with a := 1, b := 2 } (onCore 7 (List.replicate 16 0x7FFFFFFF)) = true
    ∧ ((onCore 7 (List.replicate 16 0x7FFFFFFF)).fetched (fetchOf 7 [0x13, 0x12]) { Dec.of 0x13 2 with a := 1, b := 2 }).g 7 1 = 0x7FFFFFFF
    ∧ 2147483647 < (0x7FFFFFFF : Word).toInt + (0x7FFFFFFF : Word).toInt ∧ (0x80000000 : Word).toInt + (0xFFFFFFFF : Word).toInt < -2147483648
    ∧ (0x80000000 : Word).toInt - (1 : Word).toInt < -2147483648 ∧ 2147483647 < (0x7FFFFFFF : Word).toInt - (0xFFFFFFFF : Word).toInt
    ∧ fetches (fetchOf 7 [0x20, 0x12]) { Dec.of 0x20 2 with a := 1, b := 2 } (onCore 7 (List.replicate 16 0)) = true
    ∧ ((onCore 7 (List.replicate 16 0)).fetched (fetchOf 7 [0x20, 0x12]) { Dec.of 0x20 2 with a := 1, b := 2 }).g 7 2 = 0 := by decide

theorem witness_TorpinExceptionEntry :
    ((((onCore 7 addresses).core 7).rsp - 8).toNat = memBase + 0xFFE8) ∧ (stackJudge (onCore 7 addresses) 7 (memBase + 0xFFE8) 8 true).1 = .ok
    ∧ (stackJudge (onCore 7 addresses) 7 (memBase + 0x8000) 8 true).1 = .ok := by decide

theorem witness_TorpinBranches :
    [(0x68, [0x68, 0x12, 0xFC, 0xFF]), (0x69, [0x69, 0x12, 0xFC, 0xFF]), (0x6A, [0x6A, 0x12, 4, 0]), (0x6B, [0x6B, 0x12, 4, 0]), (0x6C, [0x6C, 0x12, 4, 0]),
      (0x6D, [0x6D, 0x12, 4, 0]), (0x70, [0x70, 0x10, 0xFF, 4, 0]), (0x71, [0x71, 0x10, 0xFF, 4, 0]), (0x72, [0x72, 0x10, 0xFF, 4, 0]), (0x73, [0x73, 0x10, 1, 4, 0]),
      (0x74, [0x74, 0x10, 1, 4, 0]), (0x75, [0x75, 0x10, 1, 4, 0]), (0x76, [0x76, 0x10, 1, 4, 0]), (0x77, [0x77, 0x10, 1, 4, 0]), (0x78, [0x78, 0x10, 1, 4, 0]),
      (0x79, [0xDA, 0x79, 0x10, 1, 2, 3, 4, 4, 0]), (0x7A, [0x7A, 0x10, 0xFC, 0xFF]), (0x60, [0x60, 0xFD, 0xFF]), (0x62, [0x62, 0x02])].all
      (fun e => runsAs 7 e.1 e.2) = true := by decide

theorem witness_TorpinCallsAndStack :
    [(0x61, [0xDA, 0x61, 0, 1, 0, 0]), (0x63, [0x63, 0x02]), (0x02, [0x02]), (0x03, [0x03]), (0x00, [0x00]), (0x06, [0x06]), (0x01, [0x01]), (0x05, [0x05]),
      (0xE8, [0xEF])].all (fun e => runsAs 7 e.1 e.2) = true
    ∧ ((((onCore 7 addresses).core 7).rsp - 4).toNat = memBase + 0xFFEC) ∧ (stackJudge (onCore 7 addresses) 7 (memBase + 0xFFEC) 4 true).1 = .ok
    ∧ (stackJudge (onCore 7 addresses) 7 (memBase + 0xFFF0) 4 false).1 = .ok ∧ ((onCore 7 addresses).eccRead 7 (memBase + 0xFFF0) 4).2 = none
    ∧ (stackJudge (onCore 7 addresses) 7 (memBase + 0xFFF0) 8 false).1 = .ok ∧ ((onCore 7 addresses).eccRead 7 (memBase + 0xFFF0) 8).2 = none := by decide

/-- Core 7 in the middle of `d`. -/
def amid (d : Dec) : Ctx := (fetchOf 7 []).ctx d (onCore 7 addresses)

/-- A read succeeds. -/
def reads (c : Ctx) (a size : Nat) (s : State) : Bool := match readBytes c a size s with | .ok _ => true | .error _ => false

/-- An iteration succeeds. -/
def iterates (r : Except Stop State) : Bool := match r with | .ok _ => true | .error _ => false

theorem witness_TorpinLoadsAndStores :
    [(0x50, [0x50, 0x12, 0x20]), (0x51, [0x51, 0x12, 0x60]), (0x58, [0x58, 0x02, 0xA0, 5, 0]), (0x53, [0x53, 0x12, 0x60]),
      (0x52, [0x52, 0x12, 0xC7, 0x34, 1, 2, 3, 4])].all (fun e => runsAs 7 e.1 e.2) = true
    ∧ granted (amid (Dec.of 0x50 3)) .load (memBase + 0x400) 4 false (onCore 7 addresses) = true
    ∧ granted (amid (Dec.of 0x51 3)) .store (memBase + 0x400) 4 false (onCore 7 addresses) = true
    ∧ reads (amid (Dec.of 0x50 3)) (memBase + 0x400) 4 (onCore 7 addresses) = true
    ∧ (amid { Dec.of 0x51 3 with size := 4, mode := 1 }).ea 2 (onCore 7 addresses) = memBase + 0x400 := by decide

theorem witness_TorpinRepeated :
    [(0x50, [0xD9, 0x50, 0x12, 0x20]), (0x51, [0xD9, 0x51, 0x12, 0x60]), (0x58, [0xD9, 0x58, 0x02, 0x60, 5, 0]), (0x53, [0xD9, 0x53, 0x12, 0x60])].all
      (fun e => runsAs 7 e.1 e.2) = true
    ∧ (match decodeInsn 7 [0xD9, 0x53, 0x12, 0x60] with | .ok d => d.rep | _ => false) = true ∧ (fetchOf 7 []).upTo = none
    ∧ iterates (repLoop 7 (loadIter (amid { Dec.of 0x50 3 with a := 1, b := 2, size := 4 })) 2 (onCore 7 addresses)) = true
    ∧ iterates (repLoop 7 ((amid { Dec.of 0x51 3 with a := 1, b := 2, size := 4, mode := 1 }).storeOp 7) 2 (onCore 7 addresses)) = true
    ∧ iterates (repLoop 7 (moveIter (amid { Dec.of 0x53 3 with a := 1, b := 2, size := 4, mode := 1 })) 2 (onCore 7 addresses)) = true
    ∧ (onCore 7 (List.replicate 16 0)).g 7 13 = 0 := by decide

theorem witness_TorpinReadModifyWrite :
    [(0x54, [0x54, 0x12, 0x20]), (0x59, [0x59, 0x02, 0x20, 5, 0]), (0x5A, [0x5A, 0x02, 0x20, 5, 0]), (0x5B, [0x5B, 0x02, 0x20, 5, 0]),
      (0x5C, [0xD8, 0x5C, 0x02, 0xE7, 0x10, 0, 1, 0, 0, 5, 0]), (0x5D, [0x5D, 0x12, 0x20])].all (fun e => runsAs 7 e.1 e.2) = true
    ∧ granted (amid (Dec.of 0x54 3)) .load (memBase + 0x400) 4 true (onCore 7 addresses) = true
    ∧ granted (amid (Dec.of 0x54 3)) .store (memBase + 0x400) 4 true (onCore 7 addresses) = true := by decide

theorem witness_TorpinAddressing :
    (amid (Dec.of 0x50 3)).d.mode = 0 ∧ (amid { Dec.of 0x50 3 with mode := 1 }).d.mode = 1 ∧ (amid { Dec.of 0x50 3 with mode := 2 }).d.mode = 2
    ∧ (amid { Dec.of 0x50 4 with mode := 3, index := some (3, 4) }).d.mode = 3 ∧ (amid { Dec.of 0x50 4 with mode := 3, index := some (3, 4) }).d.index = some (3, 4)
    ∧ (amid { Dec.of 0x50 3 with mode := 3 }).d.index = none := by decide

/-- A run of checked accesses passes. -/
def passes (r : Except Stop Unit) : Bool := match r with | .ok _ => true | .error _ => false

theorem witness_TorpinTimeAndCipher :
    [(0x1E200, [0xE2, 0x00, 0x10]), (0x1E201, [0xE2, 0x01, 0x14]), (0x1E202, [0xE2, 0x02, 0x14]), (0x1E203, [0xE2, 0x03, 0x10]), (0x1E300, [0xE3, 0x00, 0x10]),
      (0x1E301, [0xE3, 0x01, 0x10]), (0x1E302, [0xE3, 0x02, 0x10])].all (fun e => runsAs 7 e.1 e.2) = true
    ∧ passes (checkRun (amid (Dec.of 0xE3 3)) .load (memBase + 0x400) 4 12 (onCore 7 addresses)) = true
    ∧ reads (amid (Dec.of 0xE3 3)) (memBase + 0x400) 48 (onCore 7 addresses) = true := by decide

theorem witness_TorpinFloat :
    [(0x1E000, [0xE0, 0x00, 0x12]), (0x1E001, [0xE0, 0x01, 0x12]), (0x1E002, [0xE0, 0x02, 0x12]), (0x1E003, [0xE0, 0x03, 0x12]), (0x1E004, [0xE0, 0x04, 0x12]),
      (0x1E005, [0xE0, 0x05, 0x12]), (0x1E006, [0xE0, 0x06, 0x12]), (0x1E007, [0xE0, 0x07, 0x12]), (0x1E008, [0xE0, 0x08, 0x12]), (0x1E009, [0xE0, 0x09, 0x12]),
      (0x1E00A, [0xE0, 0x0A, 0x12]), (0x1E00B, [0xE0, 0x0B, 0x12]), (0x1E00C, [0xE0, 0x0C, 0x12]), (0x1E00D, [0xE0, 0x0D, 0x12])].all (fun e => runsAs 5 e.1 e.2) = true
    ∧ granted ((fetchOf 5 []).ctx (Dec.of 0xE0 3) (onCore 5 addresses)) .load (memBase + 0x400) 8 false (onCore 5 addresses) = true
    ∧ granted ((fetchOf 5 []).ctx (Dec.of 0xE0 3) (onCore 5 addresses)) .store (memBase + 0x400) 8 false (onCore 5 addresses) = true
    ∧ reads ((fetchOf 5 []).ctx (Dec.of 0xE0 3) (onCore 5 addresses)) (memBase + 0x400) 8 (onCore 5 addresses) = true := by decide

theorem witness_TorpinComplex :
    [(0x1E100, [0xE1, 0x80, 0x24, 15, 0]), (0x1E101, [0xE1, 0x01, 0x24]), (0x1E102, [0xE1, 0x02, 0x24]), (0x1E103, [0xE1, 0x03, 0x34]), (0x1E104, [0xE1, 0x04, 0x34]),
      (0x1E105, [0xE1, 0x05, 0x35])].all (fun e => runsAs 1 e.1 e.2) = true := by decide

/-- Core 6 in the middle of MXRUN, its descriptor at memBase + 0x400 asking for 1 × 1 matrices, accumulating or not. -/
def matrices (flags : Byte) : State := (onCore 6 addresses).memWrite (memBase + 0x400)
  (leBytes 4 (memBase + 0x500) ++ leBytes 4 (memBase + 0x600) ++ leBytes 4 (memBase + 0x700) ++ [1, 0, 1, 0, 1, 0, flags, 0] ++ List.replicate 12 0)

/-- The context of that MXRUN. -/
def mxCtx : Ctx := (fetchOf 6 []).ctx (Dec.of 0xE0 3) (onCore 6 addresses)

/-- A matrix can be loaded. -/
def loads (r : Except Stop (State × List (BitVec 64))) : Bool := match r with | .ok _ => true | .error _ => false

theorem witness_TorpinMatrix :
    runsAs 6 0x1E010 [0xE0, 0x10, 0x10] = true ∧ passes (checkRun mxCtx .load (memBase + 0x400) 8 4 (matrices 0)) = true
    ∧ reads mxCtx (memBase + 0x400) 32 (matrices 0) = true
    ∧ (mxOf ((matrices 1).memRead (memBase + 0x400) 32)).acc = true ∧ (mxOf ((matrices 0).memRead (memBase + 0x400) 32)).acc = false
    ∧ ([1, 1, 1].any fun v => v == 0 || decide (64 < v)) = false ∧ ([1, 0, 1].any fun v => v == 0 || decide (64 < v)) = true
    ∧ (mxOf ((matrices 0).memRead (memBase + 0x400) 32)).c = memBase + 0x700 ∧ loads (mxLoad mxCtx (memBase + 0x500) 1 (matrices 0)) = true
    ∧ passes (checkRun mxCtx .store (memBase + 0x700) 8 1 (matrices 0)) = true := by decide

theorem witness_TorpinServices :
    [(0x400, [0x04, 0x00]), (0x401, [0x04, 0x01]), (0x402, [0x04, 0x02]), (0x403, [0x04, 0x03]), (0x404, [0x04, 0x04]), (0x405, [0x04, 0x05]),
      (0x406, [0x04, 0x06])].all (fun e => runsAs 0 e.1 e.2 && runsAs 7 e.1 e.2) = true
    ∧ (fixed (onCore 0 addresses)).nav.pvt = some aFix ∧ ((List.replicate 16 (0 : Word))[2]?).getD 1 = 0
    ∧ ((onCore 7 addresses).judgeCore 7 .store (memBase + 0x400) 96).1 = .ok
    ∧ (suspending 0 none).uc.state = .suspending ∧ ((suspending 0 none).uc.swap.any fun p => p.handed.isNone) = true := by decide

theorem witness_TorpinServices_masks : ∀ k, svcMasked 0 k (onCore 0 addresses) = false := fun _ => rfl

/-- UC with every service masked. -/
def masked : State := (onCore 7 (List.replicate 16 0)).modUc fun u => { u with svcMask := 0 }

theorem witness_TorpinServiceRefusals :
    runsAs 7 0x407 [0x04, 0x07] = true ∧ runsAs 7 0x4FF [0x04, 0xFF] = true ∧ svcMasked 7 0 masked = true ∧ svcMasked 7 5 masked = true
    ∧ fetches (fetchOf 7 [0x04, 0x00]) { Dec.of 4 2 with key := 0x400 } masked = true
    ∧ svcMasked 7 2 (onCore 7 addresses) = false ∧ 1 < ((onCore 7 addresses).g 7 2).toNat ∧ (masked.g 7 2).toNat = 0 ∧ (onCore 7 addresses).nav.pvt = none
    ∧ (fixed running).nav.pvt.isSome = true ∧ inIo (0x02000000 : Word).toNat = true := by decide

theorem witness_TorpinSpecialRegisters :
    [(0x80, [0x80, 0x10, 0]), (0x80, [0x80, 0x10, 1]), (0x80, [0x80, 0x10, 2]), (0x80, [0x80, 0x10, 3]), (0x80, [0x80, 0x10, 4]), (0x80, [0x80, 0x10, 5]),
      (0x80, [0x80, 0x10, 6]), (0x80, [0x80, 0x10, 7]), (0x80, [0x80, 0x10, 8]), (0x80, [0x80, 0x10, 9]), (0x81, [0x81, 0x10, 0]), (0x81, [0x81, 0x10, 1]),
      (0x81, [0x81, 0x10, 6]), (0x81, [0x81, 0x10, 3])].all (fun e => runsAs 7 e.1 e.2) = true
    ∧ ((onCore 7 addresses).judgeBanks 7 (memBase + 0xFFF0) 4 false).1 = .ok ∧ ((onCore 7 addresses).judgeBanks 7 (memBase + 0xFFF0) 4 true).1 = .ok
    ∧ coreReady (onCore 7 addresses) 7 = true ∧ interruptDue (onCore 7 addresses) 7 = false ∧ decodeInsn 7 [0x07] = .illegal 7 1
    ∧ decodeInsn 0 [0xE8] = .illegal 0xE8 1 ∧ (fetchJudge (onCore 7 addresses) 7 (BitVec.ofNat 32 (memBase + 0x100)) 1).1 = .ok
    ∧ ((onCore 7 addresses).eccRead 7 (memBase + 0x100) 1).2 = none
    ∧ coreReady ((onCore 0 addresses).modCore 0 fun c => { c with lines := 0x8001, imask := 0x8000, ie := true }) 0 = true
    ∧ ((onCore 0 addresses).modCore 0 fun c => { c with lines := 0x8001, imask := 0x8000, ie := true }).dueLine 0 = some 15 := by decide

theorem witness_FrameLayoutAndDelimiting :
    (15 < 16 ∧ 0x8002 < 2 ^ 16 ∧ 0xFF < 2 ^ 8 ∧ (List.replicate 0 (0 : Byte)).length ≤ 4080) ∧ (0xCA : Byte) ∉ ([0xFE, 0x00] : List Byte)
    ∧ (1 ≤ 1 ∧ -((2 : Int) ^ (8 * 1 - 1)) ≤ -128 ∧ (127 : Int) < (2 : Int) ^ (8 * 1 - 1)) := by decide

/-! ### The spec's worked examples -/

/-- The end of one second (chapter 2): tick 25,999 of beat 1,000 starts at 64,063,997,538, and its increment is 2,462. -/
theorem test_dt_of_the_last_tick :
    dtAt 1000 0 = 64000000000 ∧ dtAt 1000 25999 = 64063997538 ∧ tickStep 6 = (0, 2462) ∧ (lastTick running).advance.time.dt = 64000000 := by decide

/-- Address 0x1092_3458 (R336): MB19 at 0x2_4688 interleaved, MB18 at 0x2_3458 linear. -/
theorem test_address_interleaved :
    ((List.range 8).foldl (fun s i => State.modBank s (16 + i) fun b => { b with interleaved := true }) running).mem.locate 0x10923458 = (19, 0x24688)
    ∧ running.mem.locate 0x10923458 = (18, 0x23458) := by decide

/-- The NCO words of an E5a channel on SB9 (chapter 5); the carrier word by R94's formula (log 86). -/
theorem test_nco_words :
    carrWordOf (1176450000 - 1200000000 - (-972562306 : Rat) * 104000000 / 4294967296 - 2469 / 2) 26000000 = -13364640347
    ∧ codeWordOf (10230000 * (1 + -2469 / 2 / 1176450000)) 26000000 = 110749461160666 := by decide +kernel

/-- An event converted to GPS time (chapter 10). -/
theorem test_event_time :
    (({ Clock.reset with segs := [⟨76800000000000, 1400000000000000000 * nsUnit, 12 / 100000000, 1⟩] } : Clock).gpsNs 76863999998400)
      = 1400000001000000094 := by decide +kernel

/-- A score that crosses two thresholds (chapter 7): 82, then 255 by the hard bit, and 146 without it. -/
theorem test_spoof_score :
    spoofScore SpoofCfg.reset [48, 128, 192, 48, 0] = 82 ∧ spoofScore SpoofCfg.reset [48, 128, 192, 48, 255] = 255
    ∧ spoofScore { SpoofCfg.reset with hard := 0 } [48, 128, 192, 48, 255] = 146 := by decide

/-- An implied length (chapter 14): CODE_LOAD of 10,230 chips is 1,303 bytes, so 1,304 answers ST_BAD_LENGTH with MIN and MAX. -/
theorem test_implied_length :
    codeLoadCmd.len.implied ([0xE0, 1, 0, 0] ++ List.replicate 12 0 ++ [0xF6, 0x27] ++ List.replicate 1286 0) = some 1303 := by decide

/-- A key that every node derives alike (chapter 18): the PRF message of R417. -/
theorem test_key_derivation_message :
    deriveKey (List.range 16) [0x51, 0x44, 0x50, 0x42, 0x00] 3 = cmac (List.range 16) [1, 0x51, 0x44, 0x50, 0x42, 0x00, 0, 0, 3, 0, 0x80] := by decide +kernel

/-- FIPS 197, appendix C.1, and RFC 4493's CMAC of the empty message: the standards that R404 names. -/
theorem test_aes_and_cmac :
    aesEnc [0, 1, 2, 3, 4, 5, 6, 7, 8, 9, 10, 11, 12, 13, 14, 15] [0x00, 0x11, 0x22, 0x33, 0x44, 0x55, 0x66, 0x77, 0x88, 0x99, 0xAA, 0xBB, 0xCC, 0xDD, 0xEE, 0xFF]
      = [0x69, 0xC4, 0xE0, 0xD8, 0x6A, 0x7B, 0x04, 0x30, 0xD8, 0xCD, 0xB7, 0x80, 0x70, 0xB4, 0xC5, 0x5A]
    ∧ cmac [0x2B, 0x7E, 0x15, 0x16, 0x28, 0xAE, 0xD2, 0xA6, 0xAB, 0xF7, 0x15, 0x88, 0x09, 0xCF, 0x4F, 0x3C] []
      = [0xBB, 0x1D, 0x69, 0x29, 0xE9, 0x59, 0x37, 0x28, 0x7F, 0xA3, 0x7D, 0x12, 0x9B, 0x75, 0x67, 0x46] := by decide +kernel

/-- The REP copy of chapter 16: MOVI c, 100; WIDE MOVI g1; REP MVM [g2]+, [g1]+ of 32 bits. -/
theorem test_decode_rep_copy :
    decodeInsn 7 [0x40, 0xD0, 0x64, 0x00] = .ok { Dec.of 0x40 4 with a := 13, imm := 100 }
    ∧ decodeInsn 7 [0xDA, 0x40, 0x10, 0x00, 0x00, 0x92, 0x10] = .ok { Dec.of 0x40 7 with a := 1, imm := 0x10920000 }
    ∧ decodeInsn 7 [0xD9, 0x53, 0x21, 0x60] = .ok { Dec.of 0x53 4 with a := 2, b := 1, mode := 1, size := 4, rep := true } := by decide

/-- E2 00 30 and E2 01 74 (R387): SNAP g3, and MFC g7 of the tick. -/
theorem test_decode_snap :
    decodeInsn 1 [0xE2, 0x00, 0x30] = .ok { Dec.of 0xE2 3 with key := 0x1E200, a := 3 }
    ∧ decodeInsn 1 [0xE2, 0x01, 0x74] = .ok { Dec.of 0xE2 3 with key := 0x1E201, a := 7, b := 4 } := by decide

/-- The longest instruction (R369): LOCK XORM with an index and a displacement of 4 bytes. -/
theorem test_decode_longest :
    decodeInsn 7 [0xD8, 0x5C, 0x02, 0xE7, 0x10, 0, 1, 0, 0, 5, 0]
      = .ok { Dec.of 0x5C 11 with b := 2, mode := 3, size := 4, index := some (1, 1), disp := 0x100, imm := 5, lock := true } := by decide

/-- A post-incremented byte load with sign extension, a branch back by 4, SVC 5 and MTS IMASK, from Tables 16.1, 16.2 and 16.9. -/
theorem test_decode_formats :
    decodeInsn 7 [0x50, 0x12, 0x48] = .ok { Dec.of 0x50 3 with a := 1, b := 2, mode := 1, sx := true }
    ∧ decodeInsn 7 [0x69, 0x12, 0xFC, 0xFF] = .ok { Dec.of 0x69 4 with a := 1, b := 2, off := 0xFFFFFFFC }
    ∧ decodeInsn 7 [0x04, 0x05] = .ok { Dec.of 0x04 2 with key := 0x405, imm := 5 }
    ∧ decodeInsn 7 [0x81, 0x30, 0x06] = .ok { Dec.of 0x81 3 with a := 3, sreg := 6 }
    ∧ decodeInsn 7 [0x72, 0x40, 0xFF, 0x08, 0x00] = .ok { Dec.of 0x72 5 with a := 4, imm := 0xFFFFFFFF, off := 8 } := by decide

/-- ILLEGAL (R372): an undefined opcode, SIZE 0b11, LEA without MODE 0b11, LD of its own base, a read-only register; ILLEGAL before a prefix error (R373). -/
theorem test_decode_illegal :
    [[0x07], [0x50, 0x12, 0x30], [0x52, 0x12, 0x20], [0x50, 0x22, 0x60], [0x81, 0x10, 0x02], [0xD9, 0x07], [0x51, 0x12, 0x08]].all
      (fun bs => match decodeInsn 7 bs with | .illegal _ _ => true | _ => false) = true
    ∧ [[0xD9, 0xD8, 0x54, 0x12, 0x20], [0xD9, 0x11, 0x12], [0xDA, 0x11, 0x12], [0xD9, 0x50, 0xD2, 0x20]].all
      (fun bs => match decodeInsn 7 bs with | .badPrefix _ => true | _ => false) = true := by decide

/-! ### Instructions: results at the edges of Table 16.7 -/

/-- g1 after core 7 executes an instruction with these registers. -/
def g1After (i : Instr) (g : List Word) : Option Word :=
  match exec i (onCore 7 g) with
  | .next t => some (t.g 7 1)
  | _ => none

/-- g1 and g2 as given. -/
def pair (a b : Word) : List Word := [0, a, b] ++ List.replicate 13 0

theorem test_torpin_edges :
    g1After (.neg (fetchOf 7 [0x28, 0x12])) (pair 0 0x80000000) = some 0x80000000 ∧ g1After (.div (fetchOf 7 [0x20, 0x12])) (pair 0x80000000 0xFFFFFFFF) = some 0x80000000
    ∧ g1After (.rem (fetchOf 7 [0x24, 0x12])) (pair 0x80000000 0xFFFFFFFF) = some 0 ∧ g1After (.divz (fetchOf 7 [0x22, 0x12])) (pair 7 0) = some 0
    ∧ g1After (.remzu (fetchOf 7 [0x27, 0x12])) (pair 7 0) = some 7 ∧ g1After (.shl (fetchOf 7 [0x18, 0x12])) (pair 7 32) = some 0
    ∧ g1After (.sar (fetchOf 7 [0x1A, 0x12])) (pair 0x80000000 255) = some 0xFFFFFFFF ∧ g1After (.rol (fetchOf 7 [0x1B, 0x12])) (pair 0x80000001 33) = some 3
    ∧ g1After (.clz (fetchOf 7 [0x2E, 0x12])) (pair 7 0) = some 32 ∧ g1After (.mulh (fetchOf 7 [0x1E, 0x12])) (pair 0xFFFFFFFF 2) = some 0xFFFFFFFF
    ∧ g1After (.mulhu (fetchOf 7 [0x1F, 0x12])) (pair 0xFFFFFFFF 2) = some 1 ∧ g1After (.slt (fetchOf 7 [0x30, 0x12])) (pair 0xFFFFFFFF 0) = some 1
    ∧ g1After (.rem (fetchOf 7 [0x24, 0x12])) (pair 0xFFFFFFF9 2) = some 0xFFFFFFFF := by decide

/-- DIV by 0 raises ARITH (Table 16.7) and leaves its destination: the pc is at EVB + 32 × 3, and EPC and ESTATUS lie below RSP (R382). -/
theorem test_torpin_arith :
    (match exec (.div (fetchOf 7 [0x20, 0x12])) (onCore 7 (pair 7 0)) with
      | .next t => some (t.g 7 1, (t.core 7).pc, (t.core 7).ecause, (t.core 7).elen, t.memRead (memBase + 0xFFE8) 4)
      | _ => none) = some (7, 96, 3, 2, [0x00, 0x01, 0x00, 0x10]) := by decide

/-- CALL pushes the address of the next instruction (R378), and jumps from it. -/
theorem test_torpin_call :
    (match exec (.call (fetchOf 7 [0x61, 0x10, 0x00])) (onCore 7 addresses) with
      | .next t => some ((t.core 7).pc, (t.core 7).rsp, t.memRead (memBase + 0xFFEC) 4)
      | _ => none) = some (0x10000113, 0x1000FFEC, [0x03, 0x01, 0x00, 0x10]) := by decide

/-- A store of 16 bits with pre-decrement: the bytes are little-endian (R7) and the base is the address (R370). -/
theorem test_torpin_store :
    (match exec (.st (fetchOf 7 [0x51, 0x12, 0x90])) (onCore 7 [0, 0xAABBCCDD, 0x10000400, 0, 0, 0, 0, 0, 0, 0, 0, 0, 0, 0, 0, 0]) with
      | .next t => some (t.g 7 2, t.memRead 0x100003FC 8)
      | _ => none) = some (0x100003FE, [0, 0, 0xDD, 0xCC, 0, 0, 0, 0]) := by decide

/-- binary64: 1 + 2⁻⁵³ rounds to even and is inexact; 1 ÷ 0 is an infinity with its flag; √4 is 2. -/
theorem test_binary64 :
    f64Add 0 0x3FF0000000000000 0x3CA0000000000000 = (0x3FF0000000000000, fInexact) ∧ f64Div 0 0x3FF0000000000000 0 = (0x7FF0000000000000, fDivZero)
    ∧ f64Sqrt 0 0x4010000000000000 = (0x4000000000000000, 0) ∧ f64Mul 0 0x4008000000000000 0xC000000000000000 = (0xC018000000000000, 0) := by decide +kernel

/-! ### Commands -/

/-- ECHO answers with its own bytes in a frame of Table 13.1. -/
theorem test_echo :
    (match exec (.echo (frame [1, 2, 3])) running with
      | .next t => ((t.transport 0).out.head?).map fun o => match o.body with
        | .frame f => f.bytes.take 15
        | .nak _ _ => []
      | _ => none) = some [0xCA, 0xFE, 11, 0, 1, 0x10, 1, 0, 0x05, 0x00, 0, 0, 1, 2, 3] := by decide

/-- A step takes the front command and leaves the rest; an empty queue lets a tick pass. -/
theorem test_step_queue :
    (match step { running with pending := [.tapReset, .percHalt] } with | .next t => t.pending | _ => []) = [.percHalt]
    ∧ (match step running with | .next t => t.time.tick | _ => 0) = 1 := by decide

/-- The table gives no row bits, so no word spells a command. -/
theorem test_no_word_decodes : decodeTableWord 16 0x0001 = none ∧ running.withFetchWord 16 1 = running := ⟨rfl, rfl⟩

end Sys2Proof.Tests
end

section
/-! PROOFS. Device time on the grid of beats and ticks, the boundary of a beat, the idle step, and the ways down and up (R23–R30, R456–R473). -/

namespace Sys2Proof.Machine
open Sys2Proof

/-! ### The grid of R24 and R25 -/

/-- The four counts of time are part of what almost every operation keeps. -/
theorem instant_of_keep {s t : State} (h : t.keep = s.keep) : t.instant = s.instant := congrArg (fun k => k.2.1) h

theorem pending_of_keep {s t : State} (h : t.keep = s.keep) : t.pending = s.pending := congrArg Prod.fst h

theorem dt_of_keep {s t : State} (h : t.keep = s.keep) : t.time.dt = s.time.dt := congrArg (fun k => k.2.1.1) h

/-- Agreement with the grid speaks of the four counts alone. -/
theorem TimeOk.of_instant {s t : State} (hs : TimeOk s) (h : t.instant = s.instant) : TimeOk t := by
  simp only [State.instant, State.keep, Prod.mk.injEq] at h
  obtain ⟨hdt, hacc, hbeat, htick⟩ := h
  unfold TimeOk at *
  rwa [hdt, hacc, hbeat, htick]

theorem TimeOk.of_origin {t : State} (h : t.instant = (0, 0, 0, 0)) : TimeOk t :=
  TimeOk.of_instant (s := State.reset) (by unfold TimeOk; decide) h

/-- The increment of R24 is the difference of the closed form of R25: 32,000 = 13 · 2,461 + 7. -/
theorem dtAt_succ (b t : Nat) : dtAt b (t + 1) = dtAt b t + (tickStep (7 * t % 13)).2 := by
  have hunits (k : Nat) : 32000 * k / 13 = 2461 * k + 7 * k / 13 := by omega
  unfold dtAt tickStep
  rw [hunits, hunits]
  split <;> dsimp only <;> omega

theorem tickStep_acc (t : Nat) : (tickStep (7 * t % 13)).1 = 7 * (t + 1) % 13 := by
  unfold tickStep
  split <;> dsimp only <;> omega

theorem dtAt_zero (b : Nat) : dtAt b 0 = 64000000 * b := by
  unfold dtAt beatUnits
  omega

/-- After 26,000 ticks a beat is full. -/
theorem dtAt_beat_full (b : Nat) : dtAt b 26000 = dtAt (b + 1) 0 := by
  unfold dtAt beatUnits
  omega

theorem State.advance_timeOk {s : State} (h : TimeOk s) : TimeOk s.advance := by
  obtain ⟨htick, hacc, hdt⟩ := h
  have hnext : s.time.dt + BitVec.ofNat 64 (tickStep s.time.acc).2 = BitVec.ofNat 64 (dtAt s.time.beat (s.time.tick + 1)) := by
    rw [hdt, hacc, dtAt_succ, BitVec.ofNat_add]
  have hstep : (tickStep s.time.acc).1 = 7 * (s.time.tick + 1) % 13 := by rw [hacc, tickStep_acc]
  unfold TimeOk
  rw [State.advance_addDt, (State.addDt_moves _ _).1]
  dsimp only
  rw [hnext, hstep]
  by_cases hlast : s.time.tick = 25999
  · simp [hlast, dtAt_beat_full]
  · simp only [hlast, if_false]
    exact ⟨by omega, trivial, trivial⟩

theorem State.now_le_nextBeat {s : State} (h : TimeOk s) : s.now ≤ dtAt (s.time.beat + 1) 0 := by
  obtain ⟨htick, -, -⟩ := h
  unfold State.now dtAt beatUnits
  omega

/-- The instant that the rest of a beat leads to. -/
theorem State.toNextBeat_instant {s : State} (h : TimeOk s) :
    s.toNextBeat.instant = (BitVec.ofNat 64 (dtAt (s.time.beat + 1) 0), 0, s.time.beat + 1, 0) := by
  have hdt : s.time.dt = BitVec.ofNat 64 s.now := h.2.2
  have hleft : s.time.dt + BitVec.ofNat 64 (dtAt (s.time.beat + 1) 0 - s.now) = BitVec.ofNat 64 (dtAt (s.time.beat + 1) 0) := by
    rw [hdt, ← BitVec.ofNat_add, Nat.add_sub_cancel' (State.now_le_nextBeat h)]
  have htime : s.toNextBeat.time = { s.time with
      dt := s.time.dt + BitVec.ofNat 64 (dtAt (s.time.beat + 1) 0 - s.now), acc := 0, beat := s.time.beat + 1, tick := 0 } := by
    unfold State.toNextBeat
    exact (State.addDt_moves _ _).1
  simp only [State.instant, State.keep, htime, hleft]

/-- The start of a beat lies on the grid. -/
theorem State.toNextBeat_timeOk {s : State} (h : TimeOk s) : TimeOk s.toNextBeat := by
  have hi := State.toNextBeat_instant h
  simp only [State.instant, State.keep, Prod.mk.injEq] at hi
  obtain ⟨hdt, hacc, hbeat, htick⟩ := hi
  unfold TimeOk
  rw [hdt, hacc, hbeat, htick]
  exact ⟨by decide, rfl, rfl⟩

/-- Whatever a step does to the bundle of `State.keep`, it leaves time on the grid. -/
theorem Effect.timeOk {s t : State} (e : Effect s t) (h : TimeOk s) : TimeOk t := by
  cases e with
  | same hk => exact h.of_instant (instant_of_keep hk)
  | tick hk => exact (State.advance_timeOk h).of_instant (instant_of_keep hk)
  | beat hk => exact (State.toNextBeat_timeOk h).of_instant (instant_of_keep hk)
  | down hd =>
    obtain ⟨-, htime, -⟩ := hd
    exact .of_origin (by simp [State.instant, State.keep, htime, TimeBase.reset])
  | booted hb =>
    obtain ⟨hi, -⟩ := hb
    exact .of_origin hi
  | commit n hk => exact h.of_instant (congrArg (fun k => k.2.1) hk)
  | port ir hk => exact h.of_instant (congrArg (fun k => k.2.1) hk)
  | key p k hk hp => exact h.of_instant (congrArg (fun k => k.2.1) hk)
  | blown p hk hb hp => exact h.of_instant (congrArg (fun k => k.2.1) hk)
  | cut hc hb hi => exact h.of_instant hi

/-! ### The step -/

theorem step_nil {s : State} (h : s.pending = []) : step s = .next (idleTick s) := by
  unfold step
  rw [h]

theorem step_cons {c : Instr} {cs : List Instr} {s : State} (h : s.pending = c :: cs) : step s = exec c { s with pending := cs } := by
  unfold step
  rw [h]

theorem step_timeOk {s t : State} (h : TimeOk s) (hs : step s = .next t) : TimeOk t := by
  cases hp : s.pending with
  | nil =>
    rw [step_nil hp] at hs
    cases hs
    exact (idleTick_effect s).timeOk h
  | cons c cs =>
    rw [step_cons hp] at hs
    obtain ⟨u, hu, he⟩ := exec_effect c { s with pending := cs }
    cases hu.symm.trans hs
    exact he.timeOk h

theorem idleTick_running {s : State} (hr : s.time.running = true) (ht : s.time.tick < 25999) : idleTick s = ticksPass 1 s.advance :=
  if_pos ⟨hr, ht⟩

theorem idleTick_standing {s : State} (h : s.time.running = false ∨ 25999 ≤ s.time.tick) : idleTick s = drains s := by
  refine if_neg fun ⟨hr, ht⟩ => ?_
  rcases h with h | h
  · simp [h] at hr
  · omega

theorem idleTick_pending (s : State) : (idleTick s).pending = s.pending := by
  unfold idleTick
  split
  · exact (pending_of_keep (ticksPass_keep ..)).trans (State.advance_pending s)
  · exact pending_of_keep (drains_keep s)

/-! ### The boundary of a beat -/

/-- The state right after a boundary of running time: tick 0 has its actions where CC runs. -/
def boundaryState (inputs : List InputBeat) (short : List (Nat × Nat)) (s : State) : State :=
  let u := ticksPass (26000 - s.time.tick) s.toNextBeat
  if u.live then boundaryActions inputs short u else u

theorem execBeatBoundary_standing (inputs : List InputBeat) (short : List (Nat × Nat)) {s : State} (h : s.time.running = false) :
    execBeatBoundary inputs short s = .next s := by
  unfold execBeatBoundary
  rw [h]
  rfl

theorem execBeatBoundary_running (inputs : List InputBeat) (short : List (Nat × Nat)) {s : State} (h : s.time.running = true) :
    execBeatBoundary inputs short s = .next (boundaryState inputs short s) := by
  simp only [execBeatBoundary, boundaryState, h, Bool.not_true, Bool.false_eq_true, if_false]

theorem boundaryState_keep (inputs : List InputBeat) (short : List (Nat × Nat)) (s : State) :
    (boundaryState inputs short s).keep = s.toNextBeat.keep := by
  unfold boundaryState
  dsimp only
  split
  · rw [boundaryActions_keep, ticksPass_keep]
  · exact ticksPass_keep ..

/-! ### Down -/

/-- A trip entry goes to one of the two trip logs, and its free fields come from the counter of free values. -/
theorem State.logTrip_only (s : State) (kind : Nat) (code : Option Nat) (value : Option Int) :
    ∃ log tail n, s.logTrip kind code value = { s with tripLog := log, nv := { s.nv with tripTail := tail }, freeCtr := n } := by
  unfold State.logTrip State.openVal State.fresh
  cases code <;> cases value <;> dsimp only <;> split <;> exact ⟨_, _, _, rfl⟩

/-- The registers of PD0 after a fall to PARKED, from those before it. -/
def Power.fallen (p : Power) (ph : Phase) (dt : BitVec 64) : Power :=
  { p with
    phase := ph, domains := 0x0001, resetDue := none, state := .parked, prev := p.state, rule := 0xFF, transitions := sat32 (p.transitions + 1), lastDt := dt }

/-- What a fall leaves beside the registers of PD0: DT at 0, no session, and the record of the Decant. -/
def Emptied (save : SaveEnd) (t : State) : Prop :=
  t.time = TimeBase.reset ∧ t.sessions = List.replicate 16 Session.reset ∧ t.nv.cut = !save.done ∧ t.holdup.lastSaveValid = save.done

theorem decant_power (cause : Nat) (save : SaveEnd) (s : State) : (decant cause save s).power = s.power := by
  rcases save with ⟨_ | _, micros, endMv⟩
  · rfl
  · rfl

/-- A Decant records whether it was complete (R461). -/
theorem decant_records (cause : Nat) (save : SaveEnd) (s : State) :
    (decant cause save s).nv.cut = !save.done ∧ (decant cause save s).holdup.lastSaveValid = save.done := by
  rcases save with ⟨_ | _, micros, endMv⟩
  · exact ⟨rfl, rfl⟩
  · exact ⟨rfl, rfl⟩

theorem goDown_power (ph : Phase) (s : State) : (goDown ph s).power = { s.power with domains := 0x0001, resetDue := none, phase := ph } := by
  obtain ⟨v, o, n, h⟩ := cutProvision_only s
  unfold goDown lost
  rw [h]

theorem goDown_emptied (ph : Phase) (cause : Nat) (save : SaveEnd) (s : State) : Emptied save (goDown ph (decant cause save s)) := by
  obtain ⟨v, o, n, h⟩ := cutProvision_only (decant cause save s)
  obtain ⟨hcut, hvalid⟩ := decant_records cause save s
  unfold goDown lost
  rw [h]
  exact ⟨rfl, rfl, hcut, hvalid⟩

theorem Emptied.setPower {save : SaveEnd} {t : State} {p : Power} (h : Emptied save t) : Emptied save { t with power := p } := h

theorem Emptied.logTrip {save : SaveEnd} {t : State} (h : Emptied save t) (kind : Nat) (code : Option Nat) (value : Option Int) :
    Emptied save (t.logTrip kind code value) := by
  obtain ⟨log, tail, n, ht⟩ := State.logTrip_only t kind code value
  rw [ht]
  exact h

theorem fallDown_power (ph : Phase) (cause : Nat) (save : SaveEnd) (s : State) :
    (fallDown ph cause save s).power = s.power.fallen ph s.time.dt := by
  unfold fallDown
  dsimp only
  rw [State.logTrip_power, goDown_power, decant_power]
  rfl

theorem fallDown_emptied (ph : Phase) (cause : Nat) (save : SaveEnd) (s : State) : Emptied save (fallDown ph cause save s) := by
  unfold fallDown
  dsimp only
  exact ((goDown_emptied ph cause save s).setPower).logTrip ..

theorem State.live_of_on {s : State} (h : s.power.phase = .on) : s.live = true := decide_eq_true h

theorem State.live_of_not_on {s : State} (h : s.power.phase ≠ .on) : s.live = false := decide_eq_false h

/-- The state that a sag finds once it is recorded (R457). -/
def State.sagged (s : State) : State := ((s.logFault 4).logTrip 4 none none).modPower fun p => { p with sags := sat32 (p.sags + 1) }

theorem State.sagged_power (s : State) : s.sagged.power = { s.power with sags := sat32 (s.power.sags + 1) } := by
  unfold State.sagged
  rw [State.modPower_power, State.logTrip_power, State.logFault_power]

theorem State.sagged_keep (s : State) : s.sagged.keep = s.keep := by
  unfold State.sagged
  rw [State.modPower_keep, State.logTrip_keep, State.logFault_keep]

section
variable (save : SaveEnd) {s : State}

theorem execSupplySag_on (h : s.power.phase = .on) :
    execSupplySag save s = .next (fallDown (.supplyWait .powerOn .run) 1 save s.sagged) := by
  simp only [execSupplySag, h, State.sagged]

theorem execResetN_on (h : s.power.phase = .on) : execResetN save s = .next (fallDown (.booting .resetN .run) 2 save s) := by
  simp only [execResetN, h]

theorem execRefinLoss_on (h : s.power.phase = .on) : execRefinLoss save s = .next (fallDown .refinHold 3 save (s.logFault 3)) := by
  simp only [execRefinLoss, h]

theorem execSupplySag_booting {c : StartCause} {p : PowerState} (h : s.power.phase = .booting c p) :
    execSupplySag save s = .next (s.modPower fun p => { p with phase := .supplyWait .powerOn .run, sags := sat32 (p.sags + 1) }) := by
  simp only [execSupplySag, h]

theorem execResetN_booting {c : StartCause} {p : PowerState} (h : s.power.phase = .booting c p) :
    execResetN save s = .next (s.modPower fun p => { p with phase := .booting .resetN .run }) := by
  simp only [execResetN, h]

theorem execRefinLoss_booting {c : StartCause} {p : PowerState} (h : s.power.phase = .booting c p) :
    execRefinLoss save s = .next (s.modPower fun p => { p with phase := .refinHold }) := by
  simp only [execRefinLoss, h]

theorem execSupplySag_parked (h : s.power.phase = .parked) : execSupplySag save s = .next s := by
  simp only [execSupplySag, h]

theorem execResetN_parked (h : s.power.phase = .parked) : execResetN save s
    = .next ((captureRef s).modPower fun p => { p with phase := .supplyWait .resetN .run, rule := 0xFF, wake := true, wakeUntilRun := true }) := by
  simp only [execResetN, h]

theorem execWatchdogReset_off (h : s.power.phase ≠ .on) : execWatchdogReset save s = .next s := by
  simp only [execWatchdogReset, State.live_of_not_on h, Bool.not_false, if_true]

/-- The watchdog itself fires (R356). -/
theorem execWatchdogReset_fired (h : s.power.phase = .on) (hdue : s.power.resetDue = none) :
    execWatchdogReset save s = .next (fallDown (.booting .watchdog .run) 2 save (s.logFault 2)) := by
  simp only [execWatchdogReset, State.live_of_on h, hdue, Bool.not_true, Bool.false_eq_true, if_false]

/-- A reset that was due has come to its instant. -/
theorem execWatchdogReset_due {dt : BitVec 64} {b : Bool} (h : s.power.phase = .on) (hdue : s.power.resetDue = some (dt, b))
    (hnow : s.time.dt - dt < 0x8000000000000000) :
    execWatchdogReset save s = .next (fallDown (.booting .watchdog .run) 2 save (if b then s else s.logFault 2)) := by
  simp only [execWatchdogReset, State.live_of_on h, hdue, hnow, Bool.not_true, Bool.false_eq_true, if_false, if_true]

theorem execWatchdogReset_waits {dt : BitVec 64} {b : Bool} (hdue : s.power.resetDue = some (dt, b))
    (hnow : ¬s.time.dt - dt < 0x8000000000000000) : execWatchdogReset save s = .next s := by
  simp only [execWatchdogReset, hdue, hnow, if_false, ite_self]

end

/-! ### Up -/

section
variable {s : State}

theorem execSupplyReturn_waiting {c : StartCause} {p : PowerState} (h : s.power.phase = .supplyWait c p) :
    execSupplyReturn s = .next (s.modPower fun r => { r with phase := .booting c p }) := by
  simp only [execSupplyReturn, h]

/-- A wake gives up on its supplies (R456); a start from no power waits on. -/
theorem execWakeTimeout_waiting {c : StartCause} {p : PowerState} (h : s.power.phase = .supplyWait c p) (hc : c ≠ .powerOn) : execWakeTimeout s
    = .next ((s.modPower fun r => { r with phase := .parked, wake := false, wakeUntilRun := false }).logTrip 3 (some s.power.rule) none) := by
  cases c with
  | powerOn => exact absurd rfl hc
  | _ => simp only [execWakeTimeout, h]

theorem execBoot_booting (images : List ImageRead) {c : StartCause} {p : PowerState} (h : s.power.phase = .booting c p) :
    execBoot images s = .next (bootDevice images c p s) := by
  simp only [execBoot, h]

/-- A measurement of the holdup capacitor, C = 10 µC ÷ ΔV, that finds 176 µF or more (R458). -/
theorem execHoldupMeasurementEnd_passes {v : Nat} (hl : s.live = true) (hm : s.holdup.measuring = true) (hpos : 0 < v) (hv : 176 * v ≤ 10000000) :
    execHoldupMeasurementEnd v s = .next (s.modHoldup fun h =>
      { h with measuring := false, measures := false, cap := min 65535 (roundDiv 10000000 v).toNat, lowCap := false }) := by
  have hlow : decide (10000000 < 176 * v) = false := decide_eq_false (Nat.not_lt.mpr hv)
  simp only [execHoldupMeasurementEnd, hl, hm, and_self, if_true, hlow, Nat.ne_of_gt hpos, Bool.false_eq_true, if_false]

/-- A measurement that finds less than 176 µF is LOW_CAP. -/
theorem execHoldupMeasurementEnd_low {v : Nat} (hl : s.live = true) (hm : s.holdup.measuring = true) (hv : 10000000 < 176 * v) :
    execHoldupMeasurementEnd v s = .next ((s.modHoldup fun h =>
      { h with measuring := false, measures := false, cap := min 65535 (roundDiv 10000000 v).toNat, lowCap := true }).holdupEvent 2 none) := by
  have hlow : decide (10000000 < 176 * v) = true := decide_eq_true hv
  have hpos : v ≠ 0 := by omega
  simp only [execHoldupMeasurementEnd, hl, hm, and_self, if_true, hlow, hpos, if_false]

/-- A new junction temperature enters its extremes (R482). -/
def State.heated (s : State) (v : Int) : State :=
  s.modPower fun p => { p with temp := v, tempMin := min p.tempMin v, tempMax := max p.tempMax v }

theorem execTempHigh_hot {v : Int} (hl : s.live = true) (hv : 1150 < v) : execTempHigh v s = .next ((s.heated v).diagEvent 1 none) :=
  congrArg Host.Outcome.next (if_pos ⟨hl, hv⟩)

theorem execTempHigh_cool {v : Int} (hv : v ≤ 1150) : execTempHigh v s = .next (s.heated v) :=
  congrArg Host.Outcome.next (if_neg fun h => absurd h.2 (Int.not_lt.mpr hv))

end

end Sys2Proof.Machine

open Sys2Proof Sys2Proof.Machine

/-- Settles O5: every effect that a step can have on the four counts of time leaves them on the grid. -/
theorem deviceTimeInvariant : Obligations.DeviceTimeInvariant := by
  unfold Obligations.DeviceTimeInvariant
  exact ⟨.of_origin rfl, fun _ _ => step_timeOk⟩

/-- Settles O2, from the equation of the step on an empty queue. -/
theorem idleStepIsOneTick : Obligations.IdleStepIsOneTick := by
  unfold Obligations.IdleStepIsOneTick
  intro s hp
  rw [step_nil hp]
  refine ⟨fun hr ht => ?_, fun hstand => ?_, fun t ht => ?_⟩
  · rw [idleTick_running hr ht]
  · rw [idleTick_standing hstand]
  · cases ht
    rw [idleTick_pending, hp]

/-- Settles O4: the instant is that of the rest of the beat, and the actions of tick 0 keep it. -/
theorem beatBoundaryOpensNextBeat : Obligations.BeatBoundaryOpensNextBeat := by
  unfold Obligations.BeatBoundaryOpensNextBeat
  intro inputs short s h
  refine ⟨execBeatBoundary_standing inputs short, fun hr => ⟨_, _, rfl, execBeatBoundary_running inputs short hr, fun hl => ?_, fun hl => ?_, ?_⟩⟩
  · exact if_pos hl
  · exact if_neg (by simp [hl])
  · have hk := boundaryState_keep inputs short s
    have hi := (instant_of_keep hk).trans (State.toNextBeat_instant h)
    simp only [State.instant, State.keep, Prod.mk.injEq] at hi
    obtain ⟨hdt, hacc, hbeat, htick⟩ := hi
    exact ⟨hbeat, htick, hacc, by rw [hdt, dtAt_zero], (pending_of_keep hk).trans (State.toNextBeat_pending s)⟩

/-- Settles O13: each way down is a fall to PARKED into its own phase, from a state with the registers and the DT of the one before. -/
theorem goingDown : Obligations.GoingDown := by
  unfold Obligations.GoingDown
  intro save s down
  have hdown (ph : Phase) (cause : Nat) (u : State) (hst : u.power.state = s.power.state) (htr : u.power.transitions = s.power.transitions)
      (hdt : u.time.dt = s.time.dt) : down ph (fallDown ph cause save u) := by
    obtain ⟨htime, hsess, hcut, hvalid⟩ := fallDown_emptied ph cause save u
    simp only [down, fallDown_power, Power.fallen, htime, hsess, hcut, hvalid, hst, htr, hdt, and_self]
  have hfault (ph : Phase) (cause kind : Nat) : down ph (fallDown ph cause save (s.logFault kind)) :=
    hdown ph cause _ (by rw [State.logFault_power]) (by rw [State.logFault_power]) (dt_of_keep (State.logFault_keep ..))
  refine ⟨fun hon => ⟨?_, ?_, ?_, ?_, ?_, ?_⟩, fun c p hboot => ⟨?_, ?_, ?_⟩, fun hpark => ⟨?_, ?_⟩, fun hoff => ?_⟩
  · have hsag := execSupplySag_on save hon
    refine ⟨_, hsag, hdown _ _ _ ?_ ?_ ?_, ?_⟩
    · rw [State.sagged_power]
    · rw [State.sagged_power]
    · exact dt_of_keep (State.sagged_keep s)
    · rw [fallDown_power, State.sagged_power]
      rfl
  · exact ⟨_, execResetN_on save hon, hdown _ _ _ rfl rfl rfl⟩
  · exact ⟨_, execRefinLoss_on save hon, hfault ..⟩
  · exact fun hdue => ⟨_, execWatchdogReset_fired save hon hdue, hfault ..⟩
  · intro dt b hdue hnow
    refine ⟨_, execWatchdogReset_due save hon hdue hnow, ?_⟩
    cases b
    · exact hfault ..
    · exact hdown _ _ _ rfl rfl rfl
  · exact fun dt b => execWatchdogReset_waits save
  · exact execSupplySag_booting save hboot
  · exact execResetN_booting save hboot
  · exact execRefinLoss_booting save hboot
  · exact execSupplySag_parked save hpark
  · exact execResetN_parked save hpark
  · exact execWatchdogReset_off save hoff

/-- Settles O14: each event by its equation, and the boot by what `Booted` says of every start. -/
theorem comingUp : Obligations.ComingUp := by
  unfold Obligations.ComingUp
  intro s
  refine ⟨fun c p hwait => ⟨execSupplyReturn_waiting hwait, execWakeTimeout_waiting hwait⟩, ?_, fun images c p hboot => ?_, rfl, ?_, ?_, ?_, ?_, ?_, ?_, ?_, ?_⟩
  · exact fun hhold => congrArg Host.Outcome.next (if_pos hhold)
  · obtain ⟨hinst, hepoch, hrk1, -, -, hroll, -, -⟩ := bootDevice_booted images c p s
    simp only [State.instant, State.keep, Prod.mk.injEq] at hinst
    obtain ⟨hdt, -, hbeat, htick⟩ := hinst
    exact ⟨_, execBoot_booting images hboot, rfl, hdt, hbeat, htick, hepoch, bootDevice_phase images c p s, hrk1, hroll⟩
  · exact fun hhalt => congrArg Host.Outcome.next (if_pos hhalt)
  · exact fun hwake => congrArg Host.Outcome.next (if_neg (by simp [hwake]))
  · exact fun v hl hst hv => congrArg Host.Outcome.next (if_pos ⟨hl, hst, hv⟩)
  · exact fun hl hst => congrArg Host.Outcome.next (if_pos ⟨hl, hst⟩)
  · exact fun v hl hm => ⟨execHoldupMeasurementEnd_passes hl hm, execHoldupMeasurementEnd_low hl hm⟩
  · exact fun hl htr hms => congrArg Host.Outcome.next (if_pos ⟨hl, htr, hms⟩)
  · rintro v u rfl
    exact ⟨execTempHigh_hot, execTempHigh_cool⟩
  · exact fun hl hst hon => if_pos ⟨hl, hst, hon⟩

/-- Settles O60: each clause is read off the reset values of its unit; a table of equal entries is checked at one of them. -/
theorem resetValues : Obligations.ResetValues := by
  unfold Obligations.ResetValues
  refine ⟨rfl, ⟨rfl, rfl, rfl, rfl, rfl⟩, ⟨rfl, ?_⟩, by decide, ⟨rfl, ?_⟩, rfl, ⟨rfl, ?_⟩, ⟨rfl, rfl, rfl, rfl⟩, ⟨rfl, ?_⟩, ⟨rfl, rfl, rfl, rfl⟩, rfl, rfl, rfl⟩
  · intro e he
    rw [List.eq_of_mem_replicate he]
    exact ⟨rfl, rfl⟩
  · intro u hu
    rw [List.eq_of_mem_replicate hu]
    exact ⟨rfl, rfl, rfl⟩
  · intro c hc
    rw [List.eq_of_mem_replicate hc]
    exact ⟨rfl, rfl, rfl, rfl, rfl, rfl, rfl⟩
  · intro k hk
    rw [List.eq_of_mem_replicate hk]
    rfl

end

section
/-! PROOFS. The sample inputs: the installation record, INPUT_ENABLE, SUBBAND_SET, and the clock and alignment events of an input (R47–R64). -/

namespace Sys2Proof.Machine
open Sys2Proof

/-! ### State operations -/

theorem modAt_modAt {α : Type} (l : List α) (n : Nat) (f g : α → α) : modAt (modAt l n f) n g = modAt l n (g ∘ f) :=
  List.modify_modify_eq ..

/-- Two changes of one input are one change of it. -/
theorem State.modInput_modInput (s : State) (n : Nat) (f g : SampleInput → SampleInput) : (s.modInput n f).modInput n g = s.modInput n (g ∘ f) := by
  unfold State.modInput
  rw [modAt_modAt]

@[simp] theorem State.openBytes_length (s : State) (n : Nat) : (s.openBytes n).2.length = n := by
  simp [State.openBytes]

/-! ### Commands -/

/-- A command that the pipeline admits, by the equation of its effect. -/
theorem runHost_effect {c : HostCmd} {q : Qcp} {s t : State} {r : Reply} (h : admits c q s = true) (he : c.effect q s = (t, r)) :
    runHost c q s = .next (c.answer q t r) := by
  rw [runHost_admits c q s h, he]

section
variable {q : Qcp} {s : State}

theorem installReadCmd_effect_installed {r : Install} (h : s.nv.install = some r) : installReadCmd.effect q s = (s, .ok r.bytes) := by
  simp only [installReadCmd, h]

theorem installReadCmd_effect_blank (h : s.nv.install = none) :
    installReadCmd.effect q s = ({ s with freeCtr := s.freeCtr + 1 }, .ok (s.openBytes 576).2) := by
  simp only [installReadCmd, h]
  rfl

theorem inputStatsCmd_effect {r : InputStat} (h : (s.input (q.u 0 1)).stat = some r) : inputStatsCmd.effect q s = (s, .ok (r.bytes (q.u 0 1))) := by
  simp only [inputStatsCmd, h, Option.map_some, Option.getD_some]

/-- The state in which INPUT_ENABLE has committed its DC_SHIFT (R64). -/
def State.dcCommitted (s : State) (q : Qcp) : State :=
  s.modInput (q.u 0 1) fun i => { i with cfg := i.cfg.commit { i.cfg.committed with dcShift := q.u 2 1 } }

theorem inputEnable_stops (h : q.u 1 1 = 0) : inputEnable q s = (((s.dcCommitted q).moveInput (q.u 0 1) .off).modInput (q.u 0 1)
    fun i => { i with ran := false, aligned := none, stat := none, clkLost := false }, .ok []) :=
  if_pos h

/-- ENABLE = 1 starts an input that is OFF or DISABLED in TRAINING; one in another state stays there (R61, R64). -/
theorem inputEnable_enables (h : q.u 1 1 ≠ 0) : inputEnable q s =
    if ((s.dcCommitted q).input (q.u 0 1)).state = .off ∨ ((s.dcCommitted q).input (q.u 0 1)).state = .disabled
    then (((s.dcCommitted q).modInput (q.u 0 1) SampleInput.train).moveInput (q.u 0 1) .training, .ok []) else (s.dcCommitted q, .ok []) := by
  unfold inputEnable State.dcCommitted
  dsimp only
  rw [if_neg h]
  split
  all_goals
    rename_i hst
    simp only [hst, reduceCtorEq, or_true, or_false, if_true, if_false]

/-- A stream that starts takes the banks of its ring (R60). -/
theorem subbandSetCmd_effect_takes {locked : Nat → State → Bool} (hen : (subbandOf q).enable = true) (hring : (s.subband (q.u 0 1)).ring = none) :
    (subbandSetCmd locked).effect q s = ((s.giveBanks (subbandOf q).firstBank (ringBanks (subbandOf q)) 0x08 .sampleRing).modSubband (q.u 0 1)
      fun b => { b with cfg := b.cfg.commit (subbandOf q), ring := some ((subbandOf q).firstBank, ringBanks (subbandOf q)) }, .ok []) := by
  simp only [subbandSetCmd, hen, hring, Option.isNone_none, Bool.and_self, if_true]

/-- A stream that is stopped, or that has its ring, leaves the banks alone. -/
theorem subbandSetCmd_effect_keeps {locked : Nat → State → Bool} (h : ¬((subbandOf q).enable = true ∧ (s.subband (q.u 0 1)).ring = none)) :
    (subbandSetCmd locked).effect q s = (s.modSubband (q.u 0 1) fun b => { b with cfg := b.cfg.commit (subbandOf q) }, .ok []) := by
  have htake : ((subbandOf q).enable && (s.subband (q.u 0 1)).ring.isNone) = false := by
    rwa [← Bool.not_eq_true, Bool.and_eq_true, Option.isNone_iff_eq_none]
  simp only [subbandSetCmd, htake, Bool.false_eq_true, if_false]

/-- The row's effect is that of SUBBAND_SET, and then the entries that read a stopped stream fail (R84); its checks are those of SUBBAND_SET. -/
theorem execSubbandSet_admits (h : admits (subbandSetCmd streamLocked) q s = true) {t : State} {r : Reply}
    (he : (subbandSetCmd streamLocked).effect q s = (t, r)) :
    execSubbandSet q s = .next ((subbandSetCmd streamLocked).answer q (if (subbandOf q).enable then t else failSubband (q.u 0 1) t) r) :=
  runHost_effect h (congrArg (fun p : State × Reply => (if (subbandOf q).enable then p.1 else failSubband (q.u 0 1) p.1, p.2)) he)

end

/-! ### Clock loss, clock return and alignment -/

section
variable {n : Nat} {s : State}

theorem execClkLoss_ignored (h : s.inputOn n = false ∨ ((s.input n).state ≠ .run ∧ (s.input n).state ≠ .training)) : execClkLoss n s = .next s := by
  unfold execClkLoss
  rcases h with hoff | ⟨hrun, htrain⟩
  · cases (s.input n).state <;> simp only [hoff, Bool.false_eq_true, if_false]
  · cases hst : (s.input n).state with
    | run => exact absurd hst hrun
    | training => exact absurd hst htrain
    | off | disabled | lostClock => rfl

/-- R62: an input in RUN moves to LOST_CLOCK; the VALUE of its notice is free. -/
theorem execClkLoss_run (hon : s.inputOn n = true) (hst : (s.input n).state = .run) : ∃ v, execClkLoss n s = .next
    ((({ s with freeCtr := s.freeCtr + 1 } : State).modInput n fun i =>
      { i with state := .lostClock, aligned := none, clkLost := true, clear := modAt i.clear 0 fun _ => 0 }).inputCheck n 0 v) := by
  refine ⟨(s.openVal 22).2, ?_⟩
  simp only [execClkLoss, hst, hon, if_true]
  exact congrArg (fun u => Host.Outcome.next (State.inputCheck u n 0 _)) (State.modInput_modInput { s with freeCtr := s.freeCtr + 1 } n _ _)

theorem execClkLoss_training (hon : s.inputOn n = true) (hst : (s.input n).state = .training) : ∃ v, execClkLoss n s = .next
    ((({ s with freeCtr := s.freeCtr + 1 } : State).modInput n fun i => { i with aligned := none, clkLost := true }).raiseCheck n 0 v) := by
  refine ⟨(s.openVal 22).2, ?_⟩
  simp only [execClkLoss, hst, hon, if_true]
  rfl

theorem execAlignmentFixed_ignored {ws : List (BitVec 4)}
    (h : ¬(s.inputOn n = true ∧ (s.input n).state = .training ∧ (s.input n).aligned = none) ∨ findAlignment 0 ws = none) :
    execAlignmentFixed n ws s = .next s := by
  unfold execAlignmentFixed
  rcases h with h | h
  · exact if_neg h
  · rw [h]
    exact ite_self _

theorem execAlignmentFixed_found {ws : List (BitVec 4)} {k : Nat} (h : s.inputOn n = true ∧ (s.input n).state = .training ∧ (s.input n).aligned = none)
    (hk : findAlignment 0 ws = some k) : execAlignmentFixed n ws s = .next (s.modInput n fun i => { i with aligned := some k }) := by
  unfold execAlignmentFixed
  rw [if_pos h, hk]

end

/-- A run of training words is one whatever follows it. -/
theorem trainingRun_words (n : Nat) (post : List (BitVec 4)) : trainingRun n ((List.replicate n [0xA#4, 0x5#4, 0x5#4, 0xA#4]).flatten ++ post) = true := by
  induction n with
  | zero => rfl
  | succ n ih => simpa [List.replicate_succ, trainingRun] using ih

theorem findAlignment_here {ns : List (BitVec 4)} (h : trainingRun 64 ns = true) (k : Nat) : findAlignment k ns = some (k % 4) := by
  unfold findAlignment
  rw [if_pos h]

theorem findAlignment_cons {x : BitVec 4} {ns : List (BitVec 4)} (h : ¬trainingRun 64 (x :: ns) = true) (k : Nat) :
    findAlignment k (x :: ns) = findAlignment (k + 1) ns := by
  rw [findAlignment, if_neg h]

/-- The search ends at the run of 64 training words, or at one before it (R47). -/
theorem findAlignment_append {ns : List (BitVec 4)} (h : trainingRun 64 ns = true) (k : Nat) (pre : List (BitVec 4)) :
    ∃ j, j ≤ k + pre.length ∧ findAlignment k (pre ++ ns) = some (j % 4) := by
  induction pre generalizing k with
  | nil => exact ⟨k, Nat.le_refl k, findAlignment_here h k⟩
  | cons x pre ih =>
    by_cases hx : trainingRun 64 (x :: pre ++ ns) = true
    · exact ⟨k, Nat.le_add_right .., findAlignment_here hx k⟩
    · obtain ⟨j, hj, hfind⟩ := ih (k + 1)
      refine ⟨j, ?_, (findAlignment_cons hx k).trans hfind⟩
      rw [List.length_cons]
      omega

end Sys2Proof.Machine

open Sys2Proof Sys2Proof.Machine

/-- Settles O22: each command by `runHost_admits` and the equation of its effect, each event by its equation. -/
theorem inputCommandsAndEvents : Obligations.InputCommandsAndEvents := by
  unfold Obligations.InputCommandsAndEvents
  refine ⟨fun q s => ⟨?_, ?_, ?_, ?_, ?_⟩, fun n s => ⟨?_, ?_, ?_, ?_, ?_, ?_, ?_, ?_⟩⟩
  · rintro h r rfl
    exact ⟨rfl, runHost_effect h rfl⟩
  · exact fun h => ⟨fun r hr => runHost_effect h (installReadCmd_effect_installed hr),
      fun hnone => ⟨_, State.openBytes_length s 576, runHost_effect h (installReadCmd_effect_blank hnone)⟩⟩
  · rintro h n u rfl hu
    obtain rfl : u = s.dcCommitted q := hu
    refine ⟨fun h0 => runHost_effect h (inputEnable_stops h0), fun h1 hst => ?_, fun h1 hoff hdis => ?_⟩
    · exact runHost_effect h ((inputEnable_enables h1).trans (if_pos hst))
    · exact runHost_effect h ((inputEnable_enables h1).trans (if_neg (not_or.mpr ⟨hoff, hdis⟩)))
  · exact fun h r hr => runHost_effect h (inputStatsCmd_effect hr)
  · rintro cmd rfl h n c u rfl rfl
    refine ⟨fun hen hring hu => ?_, fun hkeep hu => ?_⟩
    · subst hu
      exact (execSubbandSet_admits h (subbandSetCmd_effect_takes hen hring)).trans (by rw [if_pos hen])
    · subst hu
      exact execSubbandSet_admits h (subbandSetCmd_effect_keeps hkeep)
  · exact execClkLoss_ignored
  · exact execClkLoss_run
  · exact execClkLoss_training
  · exact fun h => if_pos h
  · exact fun h => if_neg h
  · exact fun ws => execAlignmentFixed_ignored
  · exact fun ws k hon hst hal => execAlignmentFixed_found ⟨hon, hst, hal⟩
  · rintro pre post k w rfl rfl
    obtain ⟨j, hj, hfind⟩ := findAlignment_append (trainingRun_words 64 post) 0 pre
    exact ⟨j, by omega, by rwa [List.append_assoc]⟩

end

section
/-! PROOFS. The Grinder: the commands of group 0x04, the searches of its pipelines, and what becomes of a ledger entry (R72–R88). -/

namespace Sys2Proof.Machine
open Sys2Proof

/-! ### Ledger entries -/

theorem entryOf_state (next : Nat) (p : List Byte) : (entryOf next p).state = if fieldU p 0 1 = 8 then .held else .pending := rfl

/-- LEDGER_WRITE asks for HELD with STATE = 8, and for PENDING with every other code (R76). -/
theorem entryOf_held_iff (next : Nat) (p : List Byte) : (entryOf next p).state = .held ↔ fieldU p 0 1 = 8 := by
  rw [entryOf_state]
  split <;> simp_all

theorem entryOf_pending_iff (next : Nat) (p : List Byte) : (entryOf next p).state = .pending ↔ fieldU p 0 1 ≠ 8 := by
  rw [entryOf_state]
  split <;> simp_all

/-- The result fields of an entry that has no result yet read 0 (R75). -/
theorem Entry.readBytes_unfinished {e : Entry} (h : e.state = .pending ∨ e.state = .active ∨ e.state = .held) :
    e.readBytes = e.bytes.take 44 ++ rsv 20 := by
  unfold Entry.readBytes
  rcases h with h | h | h <;> rw [h]

theorem Entry.readBytes_finished {e : Entry} (hp : e.state ≠ .pending) (ha : e.state ≠ .active) (hh : e.state ≠ .held) : e.readBytes = e.bytes := by
  unfold Entry.readBytes
  cases hst : e.state with
  | pending => exact absurd hst hp
  | active => exact absurd hst ha
  | held => exact absurd hst hh
  | free | found | notFound | handed | failed | expired => rfl

theorem failWaiting_waits {n : Nat} {s : State} (f : BitVec 8)
    (h : (s.entry n).state = .pending ∨ (s.entry n).state = .held ∨ (s.entry n).state = .found) : failWaiting n f s = moveEntry n .failed f s := by
  unfold failWaiting
  rcases h with h | h | h <;> rw [h]

theorem failWaiting_rests {n : Nat} {s : State} (f : BitVec 8)
    (hp : (s.entry n).state ≠ .pending) (hh : (s.entry n).state ≠ .held) (hf : (s.entry n).state ≠ .found) : failWaiting n f s = s := by
  unfold failWaiting
  cases hst : (s.entry n).state with
  | pending => exact absurd hst hp
  | held => exact absurd hst hh
  | found => exact absurd hst hf
  | free | active | notFound | handed | failed | expired => rfl

/-- LEDGER_DONE is a notice or nothing (R88). -/
theorem ledgerDone_only (n : Nat) (s : State) : Only s (ledgerDone n s) := by
  unfold ledgerDone
  dsimp only
  split
  · exact State.notify_only ..
  · exact .refl s

/-! ### The pipelines -/

section
variable {p n : Nat} {s : State}

theorem execEntryDispatch_free (hfree : s.grinder.pipes[p]? = some none) (hlive : s.live = true) (hon : s.on 7 = true)
    (hplaced : s.grinder.placed = true) : execEntryDispatch p s = .next ((bestEntry s p).elim s fun x => dispatch p x.1 x.2 s) := by
  simp only [execEntryDispatch, hfree, hlive, hon, hplaced, Bool.and_self, if_true]
  cases bestEntry s p <;> rfl

theorem execEntryDispatch_ignored (h : ¬(s.grinder.pipes[p]? = some none ∧ s.live = true ∧ s.on 7 = true ∧ s.grinder.placed = true)) :
    execEntryDispatch p s = .next s := by
  unfold execEntryDispatch
  split
  · rename_i hfree
    exact if_neg fun hready => h ⟨hfree, by simpa only [Bool.and_eq_true, and_assoc] using hready⟩
  · rfl

/-- In a live device with PD7 on, pipeline `p` searches for the ACTIVE entry `n`. -/
def State.searches (s : State) (p n : Nat) : Prop :=
  s.grinder.pipes[p]? = some (some n) ∧ s.live = true ∧ s.on 7 = true ∧ (s.entry n).state = .active

/-- What the end of a search that nobody cancelled makes of its entry (R72, Table 4.2); `e'` and `found` are the judgement on it. -/
def endSearch (p n : Nat) (e' : Entry) (found : Bool) (s : State) : State :=
  if found then moveEntry n .found 0 ((freePipe p s).setEntry n { e' with foundAt := s.time.beat })
  else if (s.entry n).attempts < (s.entry n).retries then
    (freePipe p s).setEntry n { s.entry n with
      state := .pending, startBeat := anyBeat, foundAt := s.time.beat + 1, flags := 0, doneBeat := s.time.beat % 65536 }
  else moveEntry n .notFound 0 ((freePipe p s).setEntry n e')

theorem execGrinderEntryDone_ignored (r : SearchResult) (h : ¬∃ n, s.searches p n) : execGrinderEntryDone p r s = .next s := by
  unfold execGrinderEntryDone
  split
  · rfl
  · rename_i n hpipe
    refine if_pos ?_
    rw [Bool.not_eq_true', ← Bool.not_eq_true]
    simp only [Bool.and_eq_true, decide_eq_true_eq, and_assoc]
    exact fun hrun => h ⟨n, Option.join_eq_some_iff.mp hpipe, hrun⟩

theorem execEntryCancelled_ignored (h : ¬∃ n, s.searches p n) : execEntryCancelled p s = .next s := by
  unfold execEntryCancelled
  split
  · rfl
  · rename_i n hpipe
    exact if_neg fun ⟨hlive, hon, hact, _⟩ => h ⟨n, Option.join_eq_some_iff.mp hpipe, hlive, hon, hact⟩

/-- A cancelled search ends without its results (R84). -/
theorem execGrinderEntryDone_cancelled (r : SearchResult) (h : s.searches p n) (hcancel : (s.entry n).cancel = true) :
    execGrinderEntryDone p r s = .next (moveEntry n .failed 8#8 (freePipe p s)) := by
  obtain ⟨hpipe, hlive, hon, hact⟩ := h
  simp [execGrinderEntryDone, hpipe, hlive, hon, hact, hcancel]

theorem execEntryCancelled_cancelled (h : s.searches p n) (hcancel : (s.entry n).cancel = true) :
    execEntryCancelled p s = .next (moveEntry n .failed 8#8 (freePipe p s)) := by
  obtain ⟨hpipe, hlive, hon, hact⟩ := h
  simp [execEntryCancelled, hpipe, hlive, hon, hact, hcancel]

theorem execEntryCancelled_uncancelled (h : s.searches p n) (hcancel : (s.entry n).cancel = false) : execEntryCancelled p s = .next s := by
  obtain ⟨hpipe, -⟩ := h
  simp [execEntryCancelled, hpipe, hcancel]

theorem execGrinderEntryDone_judged {r : SearchResult} {g : Sig} {e' : Entry} {found : Bool} (h : s.searches p n)
    (hcancel : (s.entry n).cancel = false) (hsig : s.sig (s.entry n).signal (s.entry n).sat = some g) (hjudge : judge s g (s.entry n) r = (e', found)) :
    execGrinderEntryDone p r s = .next (endSearch p n e' found s) := by
  obtain ⟨hpipe, hlive, hon, hact⟩ := h
  simp only [execGrinderEntryDone, hpipe, Option.join_some, hlive, hon, hact, hcancel, hsig, hjudge, decide_true, Bool.and_self, Bool.not_true,
    Bool.false_eq_true, if_false, endSearch, freePipe]
  split
  · rfl
  · split <;> rfl

end

/-! ### Handover and expiry -/

section
variable {n : Nat} {s : State}

theorem tooOld_iff (s : State) (e : Entry) : tooOld s e = true ↔ e.foundAt + s.grinder.age.inForce ≤ s.time.beat := decide_eq_true_iff

theorem execHandoverExpired_expires (hlive : s.live = true) (hon : s.on 7 = true) (hfound : (s.entry n).state = .found)
    (hold : tooOld s (s.entry n) = true) : execHandoverExpired n s = .next (moveEntry n .expired 0 s) :=
  if_pos ⟨hlive, hon, hfound, hold⟩

theorem execHandoverExpired_ignored (h : ¬(s.live = true ∧ s.on 7 = true ∧ (s.entry n).state = .found ∧ tooOld s (s.entry n) = true)) :
    execHandoverExpired n s = .next s :=
  if_neg h

theorem execHandover_ignored (h : ¬(s.live = true ∧ s.on 7 = true ∧ (s.entry n).state = .found ∧ tooOld s (s.entry n) = false)) :
    execHandover n s = .next s :=
  if_neg fun ⟨hlive, hon, _, hfound, _, hyoung⟩ => h ⟨hlive, hon, hfound, Bool.not_eq_true' _ ▸ hyoung⟩

theorem execHandover_tries (hlive : s.live = true) (hon : s.on 7 = true) (hfabric : s.on 5 = true ∨ s.on 6 = true)
    (hfound : (s.entry n).state = .found) (htarget : (s.entry n).target ≠ 0xFFFE) (hyoung : tooOld s (s.entry n) = false) :
    execHandover n s = .next (handover n s) :=
  if_pos ⟨hlive, hon, hfabric, hfound, htarget, (Bool.not_eq_true' _).mpr hyoung⟩

/-- Without an idle channel the entry stays FOUND and tries again (R81). -/
theorem handover_noChannel (h : ((candidates (s.entry n)).find? fun c => (s.chan c).idle && (s.chan c).claim.isNone) = none) : handover n s = s := by
  cases hsig : s.sig (s.entry n).signal (s.entry n).sat <;> simp only [handover, hsig, h]

/-- A refusal of the budget sets BUDGET, and the entry tries again (R81). -/
theorem handover_refused {g : Sig} {ch : Nat} (hsig : s.sig (s.entry n).signal (s.entry n).sat = some g)
    (hfind : ((candidates (s.entry n)).find? fun c => (s.chan c).idle && (s.chan c).claim.isNone) = some ch)
    (hbudget : s.admits false (s.chanCost (entryStream s (s.entry n))) = false) :
    handover n s = s.setEntry n { s.entry n with flags := (s.entry n).flags ||| 0x10#8 } := by
  simp only [handover, hsig, hfind, hbudget, Bool.false_eq_true, if_false]

end

end Sys2Proof.Machine

open Sys2Proof Sys2Proof.Machine

/-- Settles O23: each command by the equation of its effect, each event by what it does where its condition holds and where it does not. -/
theorem grinderCommandsAndEvents : Obligations.GrinderCommandsAndEvents := by
  unfold Obligations.GrinderCommandsAndEvents
  refine ⟨fun q s => ⟨?_, ?_, ?_, ?_, ?_, ?_, ?_⟩, fun next p => ⟨entryOf_held_iff next p, entryOf_pending_iff next p⟩,
    fun e => ⟨Entry.readBytes_unfinished, Entry.readBytes_finished⟩, fun n f s => ⟨failWaiting_waits f, ?_, fun st => ledgerDone_only n _⟩,
    fun p s => ⟨?_, execEntryDispatch_ignored, ?_, ?_⟩, ?_⟩
  · rintro h same u rfl rfl
    exact runHost_effect h rfl
  · exact fun h => runHost_effect h rfl
  · exact fun h => runHost_effect h rfl
  · exact fun h => runHost_effect h rfl
  · exact fun h => runHost_effect h rfl
  · exact fun h => runHost_effect h rfl
  · exact fun h => runHost_effect h rfl
  · exact fun ⟨hp, hh, hf⟩ => failWaiting_rests f hp hh hf
  · intro hfree hlive hon hplaced
    have hstart := execEntryDispatch_free hfree hlive hon hplaced
    exact ⟨fun n e hbest => hstart.trans (by rw [hbest]; rfl), fun hnone => hstart.trans (by rw [hnone]; rfl)⟩
  · exact fun r h => ⟨execGrinderEntryDone_ignored r h, execEntryCancelled_ignored h⟩
  · rintro n e u hpipe hlive hon rfl hact rfl
    have hrun : s.searches p n := ⟨hpipe, hlive, hon, hact⟩
    refine ⟨fun hc => ⟨fun r => execGrinderEntryDone_cancelled r hrun hc, execEntryCancelled_cancelled hrun hc⟩, fun hc => ⟨execEntryCancelled_uncancelled hrun hc, ?_⟩⟩
    intro r g e' found hsig hjudge
    have hend := execGrinderEntryDone_judged hrun hc hsig hjudge
    refine ⟨?_, ?_, ?_⟩
    · rintro rfl
      exact hend
    · rintro rfl hretry
      exact hend.trans (congrArg Host.Outcome.next (if_pos hretry))
    · rintro rfl hlast
      exact hend.trans (congrArg Host.Outcome.next (if_neg (Nat.not_lt.mpr hlast)))
  · rintro n s e rfl
    refine ⟨fun hlive hon hfound hage => ?_, fun h => ⟨?_, ?_⟩, fun hlive hon hfabric hfound htarget hage => ?_, handover_noChannel,
      fun g ch => handover_refused⟩
    · have hold := (tooOld_iff _ _).mpr hage
      exact ⟨execHandoverExpired_expires hlive hon hfound hold, execHandover_ignored (by simp [hold])⟩
    · exact execHandoverExpired_ignored fun ⟨hlive, hon, hfound, _⟩ => h ⟨hlive, hon, hfound⟩
    · exact execHandover_ignored fun ⟨hlive, hon, hfound, _⟩ => h ⟨hlive, hon, hfound⟩
    · have hyoung := Bool.eq_false_iff.mpr (mt (tooOld_iff _ _).mp (Nat.not_le.mpr hage))
      exact ⟨execHandoverExpired_ignored (by simp [hyoung]), execHandover_tries hlive hon hfabric hfound htarget hyoung⟩

end

section
/-! PROOFS. The correlation fabric: the commands of group 0x05, the latch of a channel, its oscillators and its accumulators (R92–R121). -/

namespace Sys2Proof.Machine
open Sys2Proof

/-! ### Commands -/

section
variable {q : Qcp} {s : State} {n : Nat}

/-- A channel that is IDLE and unreserved has nothing to stop (R115). -/
theorem stopChan_rests (hidle : (s.chan n).idle = true) (hclaim : (s.chan n).claim = none) : stopChan s n = s :=
  if_pos (by simp [hidle, hclaim])

theorem stopChan_asks (h : ¬((s.chan n).idle = true ∧ (s.chan n).claim = none)) : stopChan s n = s.setChan n { s.chan n with stop := true } :=
  if_neg (by simpa using h)

theorem modified_tint_named (d : Desc) (h : bitOf (q.u 2 2) 0 = true) : (modified q d).tint = q.u 4 1 := if_pos h

theorem modified_ctrl_named (d : Desc) (h : bitOf (q.u 2 2) 1 = true) : (modified q d).ctrl = BitVec.ofNat 8 (q.u 5 1 % 128) := if_pos h

/-- The channel whose shadow has taken the fields that a CHAN_MODIFY names; the others stay in it as they are (R39, R100). -/
def Chan.modifiedBy (q : Qcp) (c : Chan) : Chan :=
  { c with shadow := { c.shadow with
      tint := if bitOf (q.u 2 2) 0 then some (q.u 4 1) else c.shadow.tint
      ctrl := if bitOf (q.u 2 2) 1 then some (BitVec.ofNat 8 (q.u 5 1 % 128)) else c.shadow.ctrl
      taps := (c.shadow.taps.zip (modified q c.committed).taps).zipIdx.map fun w => if bitOf (q.u 2 2) (2 + w.2) then some w.1.2 else w.1.1 } }

theorem chanModifyCmd_effect : chanModifyCmd.effect q s = (s.modChan (q.u 0 2) (Chan.modifiedBy q), .ok []) := by
  have htint (c : Chan) : (if bitOf (q.u 2 2) 0 then some (modified q c.committed).tint else c.shadow.tint)
      = if bitOf (q.u 2 2) 0 then some (q.u 4 1) else c.shadow.tint :=
    ite_congr rfl (fun h => congrArg some (modified_tint_named _ h)) fun _ => rfl
  have hctrl (c : Chan) : (if bitOf (q.u 2 2) 1 then some (modified q c.committed).ctrl else c.shadow.ctrl)
      = if bitOf (q.u 2 2) 1 then some (BitVec.ofNat 8 (q.u 5 1 % 128)) else c.shadow.ctrl :=
    ite_congr rfl (fun h => congrArg some (modified_ctrl_named _ h)) fun _ => rfl
  simp only [chanModifyCmd, htint, hctrl]
  rfl

end

/-! ### The latch -/

/-- The oscillators of a channel out of IDLE have moved on by the samples of a beat (R93). -/
def Chan.movedNco (s : State) (c : Chan) : Nco :=
  match s.sig c.act.signal c.act.sat with
  | some g => if c.act.state = 0 then c.nco else (advanceNco g c.act (s.chanCost c.act.subband) c.nco).1
  | none => c.nco

/-- A channel as a boundary finds it, before a stop, a claim or the shadow applies: the set of the beat that ended is kept. -/
def Chan.movedOn (s : State) (c : Chan) : Chan :=
  { c with
    prev := { desc := c.act, nco := c.nco, config := c.config, coasted := c.coasted, cut := c.cut }
    nco := c.movedNco s }

section
variable {s : State} {c : Chan}

/-- A stop comes before a claim and before the shadow (R115). -/
theorem latchChan_stopped (h : c.stop = true) : latchChan s c =
    ({ c.movedOn s with
        act := { c.act with state := 0 }, claim := none, stop := false, cost := 0, shadow := Shadow.none, late := Shadow.none, due := false
        config := false, coasted := false, cut := false }, 0) :=
  if_pos h

theorem latchChan_claimed {k : Claim} {g : Sig} (hstop : c.stop = false) (hclaim : c.claim = some k)
    (hsig : s.sig k.desc.signal k.desc.sat = some g) : latchChan s c = (startChan g k (c.movedOn s), 0) := by
  simp only [latchChan, Chan.movedOn, hstop, hclaim, hsig, Bool.false_eq_true, if_false]
  rfl

/-- Whether the stop, the claim or the shadow applies, or none of them, the set of the beat that ended is the past set. -/
theorem latchChan_prev : (latchChan s c).1.prev = (c.movedOn s).prev := by
  unfold latchChan
  dsimp only
  split
  case isTrue stopped => rfl
  case isFalse =>
    split
    case h_1 k claimed => split <;> rfl
    case h_2 unclaimed =>
      split
      case isTrue idle => rfl
      case isFalse running => split <;> rfl

end

/-! ### Oscillators and accumulators -/

/-- The carrier phase wraps at one cycle: the 32 bits of the cycle count, above its 48, do not show in it (R93). -/
theorem advanceNco_carr (g : Sig) (d : Desc) (n : Nat) (c : Nco) :
    (advanceNco g d n c).1.carr = (((c.carr : Int) + d.carrWord * n) % (2 ^ 48 : Nat)).toNat := by
  have hwrap : (advanceNco g d n c).1.carr = ((((c.cycles * 2 ^ 48 + c.carr : Nat) : Int) + d.carrWord * n) % (2 ^ 80 : Nat)).toNat % 2 ^ 48 := rfl
  rw [hwrap]
  generalize d.carrWord * n = w
  omega

theorem advanceNco_code (g : Sig) (d : Desc) (n : Nat) (c : Nco) :
    (advanceNco g d n c).1.code = (c.code + d.codeWord * n) % (g.length * 2 ^ 48) := rfl

section
variable {a x : Int}

theorem accumulate_stays (h : a = 8388607 ∨ a = -8388608) : accumulate a x = (a, true) := if_pos h

/-- Off the limits an accumulator adds and saturates, and says whether that took it to a limit (R105). -/
theorem accumulate_adds (hlo : -8388608 < a) (hhi : a < 8388607) :
    accumulate a x = (sat24 (a + x), sat24 (a + x) == 8388607 || sat24 (a + x) == -8388608) :=
  if_neg (by omega)

theorem sat24_inRange (hlo : -8388608 ≤ x) (hhi : x ≤ 8388607) : sat24 x = x := by
  unfold sat24 clampI
  omega

theorem sat24_above (h : 8388607 < x) : sat24 x = 8388607 := by
  unfold sat24 clampI
  omega

theorem sat24_below (h : x < -8388608) : sat24 x = -8388608 := by
  unfold sat24 clampI
  omega

end

end Sys2Proof.Machine

open Sys2Proof Sys2Proof.Machine

/-- Settles O24: each command by the equation of its effect, the latch by what applies at a boundary, the oscillators and accumulators by their arithmetic. -/
theorem fabricCommandsAndLatch : Obligations.FabricCommandsAndLatch := by
  unfold Obligations.FabricCommandsAndLatch
  refine ⟨fun q s => ⟨?_, ?_, ?_, ?_, fun n => ⟨stopChan_rests, stopChan_asks⟩, ?_, ?_, ?_⟩, fun s c => ⟨?_, ?_, ?_⟩,
    fun g d n c => ⟨advanceNco_carr g d n c, advanceNco_code g d n c⟩, fun a x => ⟨accumulate_stays, ?_, ?_, ?_⟩⟩
  · rintro h u f rfl rfl
    exact runHost_effect h rfl
  · exact fun h => runHost_effect h rfl
  · rintro h c rfl
    exact runHost_effect h rfl
  · exact fun h => runHost_effect h rfl
  · exact fun h => runHost_effect h rfl
  · rintro h m rfl
    exact runHost_effect h chanModifyCmd_effect
  · rintro h c rfl
    exact runHost_effect h rfl
  · intro hstop
    rw [latchChan_stopped hstop]
    exact ⟨rfl, rfl, rfl, rfl⟩
  · intro k g hstop hclaim hsig
    rw [latchChan_claimed hstop hclaim hsig]
    exact ⟨rfl, rfl, rfl, rfl, rfl, rfl⟩
  · rw [latchChan_prev]
    rfl
  · intro hlo hhi hmin hmax
    rw [accumulate_adds hlo hhi]
    exact sat24_inRange hmin hmax
  · intro hlo hhi hover
    rw [accumulate_adds hlo hhi, sat24_above hover]
    rfl
  · intro hlo hhi hunder
    rw [accumulate_adds hlo hhi, sat24_below hunder]
    rfl

end

section
/-! PROOFS. Tracking and the multipath estimator: the commands of group 0x06, the dump service, the timed transitions of a channel, and the fits (R122–R160). -/

namespace Sys2Proof.Machine
open Sys2Proof

/-! ### Dump service -/

/-- In a live device with PD8 on, loop core `core` runs and serves dumps. -/
def State.servesDumps (s : State) (core : Nat) : Prop := s.live = true ∧ s.on 8 = true ∧ core ≤ 3 ∧ coreRunning s (core + 1) = true

/-- The records served in order, each in time for the boundary (R126). -/
def serveInTime (ds : List Dump) (s : State) : State := ds.foldl (fun s d => markServed d (serveDump none d s)) s

/-- The first record of the rest, served `late` by so many clocks; none is with no lateness or no rest (R126). -/
def serveLate (late : Option Nat) (rest : List Dump) (s : State) : State :=
  match late, rest with
  | some k, d :: _ => markServed d (serveDump (some k) d s)
  | _, _ => s

/-- The end of a core's service keeps the last group that it completed, after which its next service begins (R126). -/
def endService (core : Nat) (s : State) : State :=
  { s with fabric := { s.fabric with lastGroup := modAt s.fabric.lastGroup core fun _ => lastDone s core } }

section
variable {core count : Nat} {late : Option Nat} {s : State}

theorem State.servesDumps_iff : s.servesDumps core ↔ (s.live && s.on 8 && decide (core ≤ 3) && coreRunning s (core + 1)) = true := by
  simp only [State.servesDumps, Bool.and_eq_true, decide_eq_true_eq, and_assoc]

theorem execDumpService_ignored (h : ¬s.servesDumps core) : execDumpService core count late s = .next s :=
  if_pos (by rwa [Bool.not_eq_true', ← Bool.not_eq_true, ← State.servesDumps_iff])

theorem execDumpService_serves (h : s.servesDumps core) : execDumpService core count late s =
    .next (endService core (serveLate late ((serviceQueue s core).drop count) (serveInTime ((serviceQueue s core).take count) s))) :=
  if_neg (by simp [State.servesDumps_iff.mp h])

/-- `serveLate` is the only state that is `s` where nothing is late, and has the first of the rest served where one is. -/
theorem eq_serveLate {rest : List Dump} {v : State} (hnothing : late = none ∨ rest = [] → v = s)
    (hlate : ∀ k d r, late = some k → rest = d :: r → v = markServed d (serveDump (some k) d s)) : v = serveLate late rest s := by
  cases late with
  | none => exact hnothing (.inl rfl)
  | some k =>
    cases rest with
    | nil => exact hnothing (.inr rfl)
    | cons d r => exact hlate k d r rfl rfl

end

/-! ### Timed transitions -/

section
variable {n : Nat} {s : State}

/-- The beats that a channel may stay in COAST; more while the vector prediction has stayed valid since it entered (Table 6.2). -/
def coastLimit (t : Track) (p : Profile) : Nat := if t.coastVec then p.coastMaxSky else p.coastMax

/-- Channel `n` with a state asked of its shadow and the reason for it (R122, R123). -/
def State.askState (s : State) (n st reason : Nat) : State :=
  (s.setChan n { s.chan n with shadow := { (s.chan n).shadow with state := some st } }).setTrack n { s.track n with why := reason }

theorem execPullinTimeout_due (hlive : s.live = true) (hon : s.on 8 = true) (hst : (s.chan n).act.state = 1)
    (hdue : (s.track n).stateBeat + (s.chanProfile n).pullinMax ≤ s.time.beat) : execPullinTimeout n s = .next (s.askState n 5 0x05) :=
  if_pos ⟨hlive, hon, hst, hdue⟩

theorem execPullinTimeout_ignored (h : ¬(s.live = true ∧ s.on 8 = true ∧ (s.chan n).act.state = 1
    ∧ (s.track n).stateBeat + (s.chanProfile n).pullinMax ≤ s.time.beat)) : execPullinTimeout n s = .next s :=
  if_neg h

theorem execCoastTimeout_due (hlive : s.live = true) (hon : s.on 8 = true) (hst : (s.chan n).act.state = 4)
    (hdue : (s.track n).stateBeat + coastLimit (s.track n) (s.chanProfile n) ≤ s.time.beat) : execCoastTimeout n s = .next (s.askState n 5 0x0E) :=
  if_pos ⟨hlive, hon, hst, hdue⟩

theorem execCoastTimeout_ignored (h : ¬(s.live = true ∧ s.on 8 = true ∧ (s.chan n).act.state = 4
    ∧ (s.track n).stateBeat + coastLimit (s.track n) (s.chanProfile n) ≤ s.time.beat)) : execCoastTimeout n s = .next s :=
  if_neg h

/-- Channel `n` out of use: IDLE, its shadow and a stop dropped, with a fresh track that keeps its profile (R123). -/
def State.releaseChan (s : State) (n : Nat) : State :=
  (s.setChan n { s.chan n with
      act := { (s.chan n).act with state := 0 }, cost := 0, shadow := Shadow.none, late := Shadow.none, due := false, stop := false }).setTrack n
    { Track.reset with profile := (s.track n).profile, reason := 0x0F, stateBeat := s.time.beat }

theorem execChannelRelease_lost (hlive : s.live = true) (hst : (s.chan n).act.state = 5) (hage : (s.track n).stateBeat < s.time.beat)
    (htick : s.time.tick = 0) : execChannelRelease n s = .next (chanStateNotices [n] (s.releaseChan n)) :=
  if_pos ⟨hlive, hst, hage, htick⟩

theorem execChannelRelease_ignored (h : ¬(s.live = true ∧ (s.chan n).act.state = 5 ∧ (s.track n).stateBeat < s.time.beat ∧ s.time.tick = 0)) :
    execChannelRelease n s = .next s :=
  if_neg h

end

/-! ### Fits -/

section
variable {core n : Nat} {fit : MpFit} {s : State}

/-- The record that a fit of channel `n` now makes of its closed window (R158). -/
def State.fitRecord (s : State) (n : Nat) (p : MpProfile) (fit : MpFit) : MpRec :=
  mpRecordOf s.nav.mpCfg.inForce (((s.sig (s.chan n).act.signal (s.chan n).act.sat).map fun g => g.boc).getD false)
    (decide ((s.track n).cn0 < s.nav.mpCfg.inForce.cn0)) s.time.beat p fit

theorem execMpFit_nothing (h : nextFit core s = none) : execMpFit core fit s = .next s := by
  unfold execMpFit
  rw [h]
  exact ite_self _

theorem execMpFit_fits {k : Core} {p : MpProfile} (hlive : s.live = true) (hon : s.on 8 = true) (hcore : core ≤ 3)
    (hk : s.cores[core + 1]? = some k) (hrun : k.mode = .running) (hnext : nextFit core s = some n) (hready : (s.mpChan n).ready = some p) :
    execMpFit core fit s = .next (s.setMpChan n { s.mpChan n with ready := none, record := some (s.fitRecord n p fit) }) := by
  simp only [execMpFit, hk, hrun, hlive, hon, hcore, hnext, hready, Option.map_some, Option.getD_some, decide_true, Bool.and_self, Bool.not_true,
    Bool.false_eq_true, if_false, State.fitRecord]

end

/-- An echo that the fit may accept after a path at delay `before`: 8/64 chip or more later, at most 96/64 chip in all, an amplitude in [0.1, 1) (R156, R157). -/
def Acceptable (before : Nat) (e : Nat × Nat × Nat) : Prop := before + 128 ≤ e.1 ∧ e.1 ≤ 1536 ∧ 256 ≤ 10 * e.2.1 ∧ e.2.1 < 256

/-- What the fit accepts: no echo, one with 6 or more taps, or two with 8 or more (R157). -/
theorem acceptEchoes_cases (taps : Nat) (f : MpFit) :
    acceptEchoes taps f = []
    ∨ (∃ a, acceptEchoes taps f = [a] ∧ 6 ≤ taps ∧ Acceptable 0 a)
    ∨ ∃ a b, acceptEchoes taps f = [a, b] ∧ 8 ≤ taps ∧ Acceptable 0 a ∧ Acceptable a.1 b := by
  have hone : 1 ≤ (if taps < 6 then 0 else if taps < 8 then 1 else 2) ↔ 6 ≤ taps := by grind
  have htwo : (if taps < 6 then 0 else if taps < 8 then 1 else 2) = 2 ↔ 8 ≤ taps := by grind
  simp only [acceptEchoes, hone, htwo, Bool.and_eq_true, decide_eq_true_eq, and_assoc]
  rcases f.echoes with _ | ⟨a, _ | ⟨b, rest⟩⟩
  · exact .inl rfl
  · by_cases ha : 6 ≤ taps ∧ Acceptable 0 a
    · exact .inr (.inl ⟨a, if_pos ha, ha⟩)
    · exact .inl (if_neg ha)
  · by_cases ha : 6 ≤ taps ∧ Acceptable 0 a
    · by_cases hb : 8 ≤ taps ∧ Acceptable a.1 b
      · exact .inr (.inr ⟨a, b, (if_pos ha).trans (if_pos hb), hb.1, ha.2, hb.2⟩)
      · exact .inr (.inl ⟨a, (if_pos ha).trans (if_neg hb), ha⟩)
    · exact .inl (if_neg ha)

theorem acceptEchoes_mem {taps : Nat} {f : MpFit} {e : Nat × Nat × Nat} (h : e ∈ acceptEchoes taps f) : ∃ before, Acceptable before e := by
  obtain hnone | ⟨a, hone, -, ha⟩ | ⟨a, b, htwo, -, ha, hb⟩ := acceptEchoes_cases taps f
  · simp [hnone] at h
  · obtain rfl : e = a := by simpa [hone] using h
    exact ⟨0, ha⟩
  · obtain rfl | rfl : e = a ∨ e = b := by simpa [htwo] using h
    · exact ⟨0, ha⟩
    · exact ⟨_, hb⟩

/-- No echo with fewer than 6 taps, one at most with fewer than 8, and never more than two (R157). -/
theorem acceptEchoes_bounded (taps : Nat) (f : MpFit) :
    (taps < 6 → acceptEchoes taps f = []) ∧ (taps < 8 → (acceptEchoes taps f).length ≤ 1) ∧ (acceptEchoes taps f).length ≤ 2 := by
  obtain hnone | ⟨a, hone, hsix, -⟩ | ⟨a, b, htwo, height, -⟩ := acceptEchoes_cases taps f
  · simp [hnone]
  · simp [hone, hsix]
  · simp [htwo, height, show 6 ≤ taps by omega]

end Sys2Proof.Machine

open Sys2Proof Sys2Proof.Machine

/-- Settles O25: each command by the equation of its effect, the service by what comes in time and what comes late, each event where its condition holds and where not. -/
theorem trackingAndMultipath : Obligations.TrackingAndMultipath := by
  unfold Obligations.TrackingAndMultipath
  refine ⟨fun q s => ⟨?_, ?_, ?_, ?_, ?_, ?_⟩, fun core count late s => ⟨execDumpService_ignored, ?_⟩, ?_, fun core fit s => ⟨execMpFit_nothing, ?_⟩, ?_⟩
  · exact fun h => runHost_effect h rfl
  · exact fun h => runHost_effect h rfl
  · exact fun h => runHost_effect h rfl
  · exact fun h => runHost_effect h rfl
  · exact fun h => runHost_effect h rfl
  · exact fun h => runHost_effect h rfl
  · rintro hlive hon hcore hrun ds u v rfl rfl hnothing hlate
    rw [eq_serveLate hnothing hlate]
    exact execDumpService_serves ⟨hlive, hon, hcore, hrun⟩
  · rintro n s c t p rfl rfl rfl
    refine ⟨execPullinTimeout_due, execPullinTimeout_ignored, ?_, execChannelRelease_lost, execChannelRelease_ignored⟩
    rintro lim rfl
    exact ⟨execCoastTimeout_due, execCoastTimeout_ignored⟩
  · rintro k hk hlive hon hrun hcore n p r hnext hready rfl
    exact execMpFit_fits hlive hon hcore hk hrun hnext hready
  · intro taps f
    obtain ⟨hfew, hone, htwo⟩ := acceptEchoes_bounded taps f
    refine ⟨hfew, hone, htwo, fun e he => ?_⟩
    obtain ⟨before, hafter, hmax, hamp⟩ := acceptEchoes_mem he
    exact ⟨by omega, hmax, hamp⟩

end

section
/-! PROOFS. Signal integrity: the commands of group 0x06, the interference level of an input, the spoofing score, its state and its evaluation (R161–R176). -/

namespace Sys2Proof.Machine
open Sys2Proof

/-! ### The interference level -/

section
variable {f : Interf} {cause over_ : Nat}

theorem Interf.next_rises (h : f.level < interfLevel cause) :
    f.next cause over_ = { level := interfLevel cause, cause := cause, clear := 0, over_ := over_ } :=
  if_pos h

/-- Without a rise a level holds, or falls one step at the end of 1,000 clear beats (R162). -/
theorem Interf.next_level_cases (h : interfLevel cause ≤ f.level) :
    (f.next cause over_).level = f.level ∨ (1000 ≤ f.clear + 1 ∧ (f.next cause over_).level = f.level - 1) := by
  simp only [Interf.next, Nat.not_lt.mpr h, if_false]
  split
  case isTrue holds => exact .inl rfl
  case isFalse clears =>
    split
    case isTrue due => exact .inr ⟨due, rfl⟩
    case isFalse waits => exact .inl rfl

theorem Interf.next_falls (h : interfLevel cause < f.level) (hclears : levelHolds cause f.level = false) (hdue : 1000 ≤ f.clear + 1) :
    f.next cause over_ = { level := f.level - 1, cause := cause, clear := 0, over_ := over_ } := by
  have hkeeps : ¬(f.level = 0 ∨ levelHolds cause f.level = true) := by simp [hclears, Nat.ne_zero_of_lt h]
  simp only [Interf.next, Nat.not_lt.mpr (Nat.le_of_lt h), hkeeps, hdue, if_false, if_true]

end

/-! ### The spoofing score -/

/-- Metrics of at most `b` weigh no more than `b` under every weight. -/
theorem sum_zipWith_mul_le {b : Nat} {ms : List Nat} (hms : ∀ m ∈ ms, m ≤ b) (ws : List Nat) : (List.zipWith (· * ·) ws ms).sum ≤ ws.sum * b := by
  induction ms generalizing ws with
  | nil => simp
  | cons m ms ih =>
    cases ws with
    | nil => simp
    | cons w ws =>
      obtain ⟨hm, hrest⟩ := List.forall_mem_cons.mp hms
      simp only [List.zipWith_cons_cons, List.sum_cons, Nat.add_mul]
      exact Nat.add_le_add (Nat.mul_le_mul_left w hm) (ih hrest ws)

section
variable {c : SpoofCfg} {ms : List Nat}

theorem spoofScore_hard {n : Nat} (hfull : ms[n]? = some 255) (hhard : bitOf c.hard n = true) : spoofScore c ms = 255 :=
  if_pos (List.any_eq_true.mpr ⟨(255, n), List.mem_zipIdx_iff_getElem?.mpr hfull, by simp [hhard]⟩)

/-- The rounding of R166 does not take the score past a byte: (256 · 255 + 128) div 256 = 255. -/
theorem spoofScore_le (hsum : c.weights.sum = 256) (hms : ∀ m ∈ ms, m ≤ 255) : spoofScore c ms ≤ 255 := by
  have hweighed := sum_zipWith_mul_le hms c.weights
  rw [hsum] at hweighed
  unfold spoofScore
  split
  case isTrue hard => exact Nat.le_refl 255
  case isFalse soft => omega

end

/-! ### The alarm state -/

/-- The threshold that the score reached to enter a state above CLEAR (R167). -/
def SpoofCfg.threshold (c : SpoofCfg) (state : Nat) : Nat := if state = 1 then c.warn else c.alarm

section
variable {c : SpoofCfg} {state fall score : Nat}

theorem spoofNext_rises (h : state < spoofTarget c score) : spoofNext c state fall score = (spoofTarget c score, 0) := if_pos h

/-- Above CLEAR and without a rise, only the distance to the threshold and the fall count decide. -/
theorem spoofNext_settled (h : spoofTarget c score ≤ state) (hraised : state ≠ 0) : spoofNext c state fall score =
    if score + c.hyst < c.threshold state then (if c.clearEvals ≤ fall + 1 then (spoofTarget c score, 0) else (state, fall + 1)) else (state, 0) :=
  (if_neg (Nat.not_lt.mpr h)).trans (if_neg hraised)

end

/-! ### The evaluation -/

/-- PWR, UNI, AOA, JUMP and OSNMA, none where its inputs are unavailable (Table 7.4). -/
def State.spoofMetrics (s : State) : List (Option Nat) := [pwrMetric s, uniMetric s, aoaMetric s.nav.spoof, jumpMetric s.nav.spoof, osnmaMetric s]

/-- A metric whose inputs are unavailable counts as 0 (R165). -/
def State.spoofValues (s : State) : List Nat := s.spoofMetrics.map fun m => m.getD 0

def State.spoofScoreDue (s : State) : Nat := spoofScore s.nav.spoof.cfg.inForce s.spoofValues

/-- The alarm state and the fall count that an evaluation now leads to. -/
def State.spoofVerdict (s : State) : Nat × Nat := spoofNext s.nav.spoof.cfg.inForce s.nav.spoof.state s.nav.spoof.fall s.spoofScoreDue

/-- The results of an evaluation are stored, before any action of R168. -/
def State.spoofStored (s : State) : State := s.modNav fun v => { v with spoof := { v.spoof with
  state := s.spoofVerdict.1, score := s.spoofScoreDue, na := boolBits (s.spoofMetrics.map Option.isNone), metrics := s.spoofValues, fall := s.spoofVerdict.2
  jump := (s.spoofValues[3]?).getD 0 } }

/-- NOTIFY acts where the state that is left or the one that is entered has it (Table 7.5). -/
def State.spoofNotified (s u : State) : State :=
  if bitOf (spoofMask s.nav.spoof.cfg.inForce s.nav.spoof.state) 0 || bitOf (spoofMask s.nav.spoof.cfg.inForce s.spoofVerdict.1) 0
  then u.notify 0x8660 (spoofBody u) else u

/-- CARAFE acts where the state that is entered has it (Table 7.5). -/
def State.spoofCaptured (s v : State) : State :=
  if s.spoofVerdict.1 ≠ 0 ∧ bitOf (spoofMask s.nav.spoof.cfg.inForce s.spoofVerdict.1) 1 = true then v.carafeTrigger 2 (dtAt v.time.beat 0) else v

section
variable {s : State}

theorem execSpoofEvaluation_ignored (h : ¬(s.navRuns = true ∧ s.time.tick = 0 ∧ s.time.beat % 100 = 0)) : execSpoofEvaluation s = .next s :=
  congrArg Host.Outcome.next (if_neg h)

theorem execSpoofEvaluation_evaluates (hruns : s.navRuns = true) (htick : s.time.tick = 0) (hbeat : s.time.beat % 100 = 0) :
    execSpoofEvaluation s = .next (evaluateSpoof s) :=
  congrArg Host.Outcome.next (if_pos ⟨hruns, htick, hbeat⟩)

/-- While the state stays, an evaluation stores its results and acts on nothing. -/
theorem evaluateSpoof_stays (h : s.spoofVerdict.1 = s.nav.spoof.state) : evaluateSpoof s = s.spoofStored := if_pos h

/-- On a change of state the actions follow the stored results, the notice first, and channels are flagged (R168, R169). -/
theorem evaluateSpoof_changes (h : s.spoofVerdict.1 ≠ s.nav.spoof.state) :
    evaluateSpoof s = refreshFlags false (s.spoofCaptured (s.spoofNotified s.spoofStored)) :=
  if_neg h

end

end Sys2Proof.Machine

open Sys2Proof Sys2Proof.Machine

/-- Settles O26: each command by the equation of its effect, the level and the alarm state by their rises and falls, the score by its bound, the evaluation by its verdict. -/
theorem integrityCommandsAndScore : Obligations.IntegrityCommandsAndScore := by
  unfold Obligations.IntegrityCommandsAndScore
  refine ⟨fun q s => ⟨?_, ?_, ?_, ?_, ?_, ?_, ?_⟩, fun f cause over_ => ⟨?_, ?_, ?_, ?_⟩,
    fun c ms => ⟨fun hsum _ _ hms => spoofScore_le hsum hms, fun n => spoofScore_hard⟩, fun c state fall score => ⟨spoofNext_rises, ?_⟩,
    fun s => ⟨execSpoofEvaluation_ignored, ?_⟩⟩
  · exact fun h => runHost_effect h rfl
  · exact fun h => runHost_effect h rfl
  · exact fun h => runHost_effect h rfl
  · exact fun h => runHost_effect h rfl
  · exact fun h => runHost_effect h rfl
  · rintro h c rfl
    exact runHost_effect h rfl
  · exact fun h => runHost_effect h rfl
  · intro hrise
    rw [Interf.next_rises hrise]
    exact ⟨rfl, rfl⟩
  · intro hlow
    obtain hsame | ⟨-, hfell⟩ := Interf.next_level_cases (over_ := over_) hlow <;> omega
  · intro hlow hearly
    obtain hsame | ⟨hdue, -⟩ := Interf.next_level_cases (over_ := over_) hlow
    · exact hsame
    · omega
  · intro hlow hclears hdue
    rw [Interf.next_falls hlow hclears hdue]
  · rintro hreached hraised thr rfl
    rw [spoofNext_settled hreached hraised]
    exact ⟨fun hnear => if_neg (Nat.not_lt.mpr hnear), fun hfar hearly => (if_pos hfar).trans (if_neg (Nat.not_le.mpr hearly)),
      fun hfar hdue => (if_pos hfar).trans (if_pos hdue)⟩
  · rintro hruns htick hbeat ms score state fall u rfl rfl hverdict rfl
    obtain ⟨rfl, rfl⟩ : state = s.spoofVerdict.1 ∧ fall = s.spoofVerdict.2 := Prod.mk.inj hverdict
    have hexec := execSpoofEvaluation_evaluates hruns htick hbeat
    refine ⟨fun hstays => ?_, fun hchanges => ⟨s.spoofNotified s.spoofStored, _, rfl, rfl, ?_⟩⟩
    · exact hexec.trans (congrArg Host.Outcome.next (evaluateSpoof_stays hstays))
    · exact hexec.trans (congrArg Host.Outcome.next (evaluateSpoof_changes hchanges))

end

section
/-! PROOFS. Navigation: the commands of group 0x07, the epochs, and what decoded messages and fusion inputs do (R178–R210). -/

namespace Sys2Proof.Machine
open Sys2Proof

/-! ### Records (R189, R208) -/

theorem length_flatten_map_of_const {α β : Type} {f : α → List β} {n : Nat} (hf : ∀ a, (f a).length = n) (l : List α) :
    (l.map f).flatten.length = l.length * n := by
  induction l with
  | nil => rw [List.map_nil, List.flatten_nil, List.length_nil, List.length_nil, Nat.zero_mul]
  | cons a l ih => rw [List.map_cons, List.flatten_cons, List.length_append, hf, ih, List.length_cons, Nat.add_one_mul, Nat.add_comm]

/-- Table 8.12, whose three vectors have three components each. -/
theorem NavRec.bytes_length {r : NavRec} (hpos : r.pos.length = 3) (hvel : r.vel.length = 3) (hsig : r.posSig.length = 3) : r.bytes.length = 96 := by
  have hp : (r.pos.map i64).flatten.length = 24 := by rw [length_flatten_map_of_const i64_length, hpos]
  have hv : (r.vel.map i32).flatten.length = 12 := by rw [length_flatten_map_of_const i32_length, hvel]
  have hs : (r.posSig.map u16).flatten.length = 6 := by rw [length_flatten_map_of_const u16_length, hsig]
  unfold NavRec.bytes
  simp only [List.length_append, hp, hv, hs, leBytes_length, u8_length, u16_length, u64_length, i16_length, i32_length, rsv_length]

/-- Table 8.5. -/
@[simp] theorem MeasRec.bytes_length (m : MeasRec) : m.bytes.length = 40 := by
  simp only [MeasRec.bytes, List.length_append, leBytes_length, u8_length, u16_length, u32_length, i16_length, i32_length]

/-- Table 8.4: the header, then the records of the part. -/
theorem MeasEpoch.part_length (m : MeasEpoch) (k : Nat) : (m.part k).length = 32 + 40 * ((m.recs.drop (101 * (k - 1))).take 101).length := by
  simp only [MeasEpoch.part, List.length_append, length_flatten_map_of_const MeasRec.bytes_length, leBytes_length, u8_length, u16_length, u32_length, u64_length]
  omega

/-! ### Commands (R208, R209) -/

section
variable {q : Qcp} {s : State}

theorem pvtReadCmd_effect {r : NavRec} (h : s.nav.record (q.u 0 1) = some r) : pvtReadCmd.effect q s = (s, .ok r.bytes) := by
  simp only [pvtReadCmd, h]

theorem measReadCmd_effect {m : MeasEpoch} (h : s.nav.meas = some m) : measReadCmd.effect q s = (s, .ok (m.part (q.u 0 1))) := by
  simp only [measReadCmd, h]

theorem putAlmanac_new {sys n : Nat} {block : List Byte} (h : s.nav.almanac.contains (65536 * sys + n, block) = false) :
    putAlmanac sys n block s = s.modNav fun v =>
      { v with almanac := (v.almanac.filter fun b => b.1 != 65536 * sys + n) ++ [(65536 * sys + n, block)], saveDue := true } :=
  if_neg (Bool.eq_false_iff.mp h)

end

/-! ### The epoch (R178–R181) -/

/-- The boundary of the present tick computes an epoch: that of two beats ago, on the grid of RATE (R179). -/
def State.epochDue (s : State) : Prop :=
  s.navRuns = true ∧ s.time.tick = 0 ∧ 2 ≤ s.time.beat ∧ (s.time.beat - 2) % measBeats s.nav.cfg.inForce.rate = 0

/-- A reset that waits is done, once the settings of the epoch are in force (R209). -/
def State.afterReset (s : State) : State := s.nav.resetDue.elim s fun kind => navReset kind s

/-- The measurements and the pair tests of epoch `k` are done. -/
def State.navTested (k : Nat) (x : NavInput) (s : State) : State :=
  let rx := rxTimeAt s k x.obs
  refreshFlags true (testPairs k x.aoa ((measureAll k (((rx.getD 0 : Nat)) : Rat) x.obs s).1.modNav fun v => { v with rxTime := rx }))

/-- The measurements of epoch `k` as they are kept (R189). -/
def State.epochMeas (k : Nat) (x : NavInput) (s : State) : MeasEpoch :=
  let rx := rxTimeAt s k x.obs
  let a := s.navTested k x
  .mk k a.nv.epoch (a.clock.genAt (dtAt k 0)) (bit8 a.clock.valid 0 + bit8 a.nav.skip 1) (a.clock.uncField (dtAt k 0)) (rx.getD 0)
    (measureAll k (((rx.getD 0 : Nat)) : Rat) x.obs s).2

/-- The measurements of epoch `k` are kept and sent. -/
def State.navMeasured (k : Nat) (x : NavInput) (s : State) : State :=
  let m := s.epochMeas k x
  let b := sendMeas ((s.navTested k x).modNav fun v => { v with meas := some m }) m
  updateOsnma b.nav.osnma.lastKey b

section
variable {x : NavInput} {s : State} {k : Nat}

theorem State.afterReset_none (h : s.nav.resetDue = none) : s.afterReset = s := by
  rw [State.afterReset, h, Option.elim_none]

theorem State.afterReset_some {kind : Nat} (h : s.nav.resetDue = some kind) : s.afterReset = navReset kind s := by
  rw [State.afterReset, h, Option.elim_some]

theorem navEpoch_ignored (h : ¬s.epochDue) : navEpoch x s = s := by
  refine if_pos (eq_true_of_ne_false fun hguard => h ?_)
  simpa only [State.epochDue, Bool.or_eq_false_iff, Bool.not_eq_false', bne_eq_false_iff_eq, decide_eq_false_iff_not, Nat.not_lt, and_assoc] using hguard

/-- An epoch that is due: settings, reset, measurements, and the solution unless the epoch is skipped; then the checkpoint (R179–R181). -/
theorem navEpoch_due (h : s.epochDue) (hk : k = s.time.beat - 2) (hrate : k % measBeats (latchEpoch s).nav.cfg.inForce.rate = 0) :
    navEpoch x s = checkpoint (saveNav (
      let v := (latchEpoch s).afterReset
      let c := v.navMeasured k x
      if c.nav.skip then c.modNav fun n => { n with skip := false } else updateEpoch k x (v.epochMeas k x).recs c)) := by
  obtain ⟨hruns, htick, hbeat, hgrid⟩ := h
  subst hk
  simp only [navEpoch, hruns, htick, hgrid, hrate, Nat.not_lt.mpr hbeat, Bool.not_true, bne_self_eq_false, decide_false, Bool.or_self, Bool.false_eq_true,
    ne_eq, not_true_eq_false, if_false]
  cases hreset : (latchEpoch s).nav.resetDue with
  | none =>
    rw [State.afterReset_none hreset]
    rfl
  | some kind =>
    rw [State.afterReset_some hreset]
    rfl

end

/-- A reset of any kind empties the solution, from kind 1 on the data sets too, at kind 2 also almanac and record (R209). -/
theorem navReset_empties (kind : Nat) (s : State) :
    (navReset kind s).nav.resetDue = none ∧ (navReset kind s).nav.mode = 0 ∧ (navReset kind s).nav.inputs = []
    ∧ (1 ≤ kind → (navReset kind s).nav.sets = []) ∧ (2 ≤ kind → (navReset kind s).nav.almanac = [] ∧ (navReset kind s).nav.pvt = none) := by
  unfold navReset
  by_cases hfull : 2 ≤ kind
  · have hsets : 1 ≤ kind := Nat.le_of_succ_le hfull
    simp only [hfull, hsets, if_true]
    exact ⟨rfl, rfl, rfl, fun _ => rfl, fun _ => ⟨rfl, rfl⟩⟩
  · simp only [hfull, if_false]
    exact ⟨rfl, rfl, rfl, fun hsets => if_pos hsets, False.elim⟩

/-! ### Deadlines and losses (R180, R203) -/

section
variable {s : State}

theorem execNavDeadline_ignored (h : ¬(s.live = true ∧ s.on 9 = true)) : execNavDeadline s = .next s :=
  congrArg Host.Outcome.next (if_neg (by rwa [Bool.and_eq_true]))

theorem execNavDeadline_missed (hlive : s.live = true) (hon : s.on 9 = true) :
    execNavDeadline s = .next ((s.modNav fun v => { v with skip := true, overruns := sat32 (v.overruns + 1) }).navEvent 1 0 none) :=
  congrArg Host.Outcome.next (if_pos (by rw [hlive, hon, Bool.and_self]))

/-- The IMU that fusion uses has given no valid sample for 20 ms, and that was not noticed yet (Table 8.11). -/
def State.imuSilent (s : State) : Prop :=
  s.live = true ∧ bitOf s.nav.fusion.inForce.enable 0 = true ∧ s.nav.imu.lost = false ∧ s.passedMs s.nav.imu.lastValid 20 = true

theorem execImuLost_ignored (h : ¬s.imuSilent) : execImuLost s = .next s :=
  congrArg Host.Outcome.next (if_neg fun hguard => h (by
    simpa only [State.imuSilent, Bool.and_eq_true, Bool.not_eq_true', and_assoc] using hguard))

theorem execImuLost_silent (h : s.imuSilent) : execImuLost s = .next ((s.modImu fun m => { m with lost := true, back := 0 }).navEvent 5 0 none) :=
  congrArg Host.Outcome.next (if_pos (by simpa only [State.imuSilent, Bool.and_eq_true, Bool.not_eq_true', and_assoc] using h))

theorem execCanStale_stale {t : Nat} (hused : s.nav.canUsed = true) (hat : s.nav.canAt = some t) (hpassed : s.passedMs t 100 = true) :
    execCanStale s = .next (s.modNav fun v => { v with canUsed := false }) := by
  simp only [execCanStale, hused, hat, hpassed, Option.map_some, Option.getD_some, Bool.and_self, if_true]

theorem execCanStale_fresh {t : Nat} (hat : s.nav.canAt = some t) (hpassed : s.passedMs t 100 = false) : execCanStale s = .next s := by
  simp only [execCanStale, hat, hpassed, Option.map_some, Option.getD_some, Bool.and_false, Bool.false_eq_true, if_false]

theorem execCanStale_unused (h : s.nav.canUsed = false ∨ s.nav.canAt = none) : execCanStale s = .next s := by
  rcases h with hunused | hnever
  · simp only [execCanStale, hunused, Bool.false_and, Bool.false_eq_true, if_false]
  · simp only [execCanStale, hnever, Option.map_none, Option.getD_none, Bool.and_false, Bool.false_eq_true, if_false]

/-! ### Fused epochs (R204) -/

/-- The boundary of the present tick makes the record of a fused epoch: that of FUSE_WAIT beats ago, on the grid of FUSE. -/
def State.fusedDue (s : State) : Prop :=
  s.navRuns = true ∧ fuseBeats s.nav.cfg.inForce.fuse ≠ 0 ∧ s.nav.fusion.inForce.enable ≠ 0 ∧ s.time.tick = 0 ∧ s.nav.fusion.inForce.fuseWait ≤ s.time.beat
    ∧ (s.time.beat - s.nav.fusion.inForce.fuseWait) % fuseBeats s.nav.cfg.inForce.fuse = 0

/-- The reported time of a record takes a free value and changes nothing else. -/
theorem recTime_only (dt : Nat) (s : State) : ∃ n time scale, recTime dt s = ({ s with freeCtr := n }, time, scale) := by
  unfold recTime State.openVal State.fresh
  dsimp only
  split <;> exact ⟨_, _, _, rfl⟩

theorem execFusedEpoch_ignored {x : FusedFix} (h : ¬s.fusedDue) : execFusedEpoch x s = .next s := by
  refine congrArg Host.Outcome.next (if_pos (eq_true_of_ne_false fun hguard => h ?_))
  simpa only [State.fusedDue, Bool.or_eq_false_iff, Bool.not_eq_false', beq_eq_false_iff_ne, bne_eq_false_iff_eq, decide_eq_false_iff_not, Nat.not_lt,
    and_assoc] using hguard

/-- A fused epoch that is due keeps a record of its fix, sends it and offers it for a seal. -/
theorem execFusedEpoch_due {x : FusedFix} (h : s.fusedDue) : ∃ (n : Nat) (r : NavRec),
    r.mode = x.mode ∧ r.pos = x.pos ∧ r.vel = x.vel ∧ r.dt = BitVec.ofNat 64 (dtAt (s.time.beat - s.nav.fusion.inForce.fuseWait) 0)
    ∧ execFusedEpoch x s = .next (autoSeal 1 r (((({ s with freeCtr := n } : State).modNav fun v =>
      { v with fused := some r, lastFix := if r.mode = 0 then v.lastFix else some r }).notify 0x8730 r.bytes))) := by
  obtain ⟨n, time, scale, htime⟩ := recTime_only (dtAt (s.time.beat - s.nav.fusion.inForce.fuseWait) 0) s
  obtain ⟨hruns, hfuse, henable, htick, hwait, hgrid⟩ := h
  unfold execFusedEpoch
  dsimp only
  rw [if_neg (by simp [hruns, hfuse, henable, htick, hwait, hgrid]), htime]
  exact ⟨n, _, rfl, rfl, rfl, rfl, rfl⟩

/-! ### Fusion inputs (R202–R204) -/

/-- The scheduled read of the IMU falls on the present tick (R202). -/
def State.imuReadDue (s : State) : Prop :=
  s.live = true ∧ s.on 14 = true ∧ bitOf s.nav.fusion.inForce.enable 0 = true ∧ s.time.tick = s.nav.fusion.inForce.imuTick
    ∧ s.time.beat % imuPeriod s.nav.fusion.inForce.imuRate = 0

section
variable (miso : List Byte) (b : Bool)

theorem execImuRead_unconfigured (h : s.periph.imuCfg = none) : execImuRead miso b s = .next s := by
  simp only [execImuRead, h]

theorem execImuRead_ignored (h : ¬s.imuReadDue) : execImuRead miso b s = .next s := by
  unfold execImuRead
  refine congrArg Host.Outcome.next ?_
  cases s.periph.imuCfg with
  | none => rfl
  | some c =>
    refine if_pos (eq_true_of_ne_false fun hguard => h ?_)
    simpa only [State.imuReadDue, Bool.or_eq_false_iff, Bool.not_eq_false', bne_eq_false_iff_eq, and_assoc] using hguard

theorem execImuRead_due {c : ImuCfg} {v : List Int} {at_ : Nat} (hcfg : s.periph.imuCfg = some c) (h : s.imuReadDue)
    (hv : v = imuAxes (c.endian == 1) miso c.gyroOff ++ imuAxes (c.endian == 1) miso c.accOff) (hat : at_ = s.now - s.nav.fusion.inForce.imuLatency * 64000) :
    execImuRead miso b s = .next (imuSample v at_ { s with periph := { s.periph with imuSample := some (v, at_) } }) := by
  obtain ⟨hlive, hon, henable, htick, hbeat⟩ := h
  subst hv hat
  simp only [execImuRead, hcfg, hlive, hon, henable, htick, hbeat, Bool.not_true, bne_self_eq_false, Bool.or_self, Bool.false_eq_true, if_false]

end

section
variable {i : FuseInput}

theorem putInput_future (h : s.now < i.at_) : putInput i s = s := if_pos h

theorem putInput_late (hnow : i.at_ ≤ s.now) (hold : i.at_ < histStart s) : putInput i s = s.modNav fun v => { v with late := sat32 (v.late + 1) } :=
  (if_neg (Nat.not_lt.mpr hnow)).trans (if_pos hold)

theorem putInput_taken (hnow : i.at_ ≤ s.now) (hyoung : histStart s ≤ i.at_) :
    putInput i s = s.modNav fun v => { v with inputs := (v.inputs.filter fun x => decide (histStart s ≤ x.at_)) ++ [i] } :=
  (if_neg (Nat.not_lt.mpr hnow)).trans (if_neg (Nat.not_lt.mpr hyoung))

end

/-! ### Decoded messages (R186, R187) -/

theorem execNavMessage_ignored {m : NavMsg} (h : s.navRuns = false) : execNavMessage m s = .next s :=
  congrArg Host.Outcome.next (if_pos (by rw [h, Bool.not_false]))

end

end Sys2Proof.Machine

open Sys2Proof Sys2Proof.Machine

/-- Settles O27: each command by the equation of its effect, the records by the lengths of their fields. -/
theorem navigationCommands : Obligations.NavigationCommands := by
  unfold Obligations.NavigationCommands
  refine ⟨fun q s => ⟨?_, ?_, ?_, ?_, ?_, ?_, ?_, ?_, ?_, ?_, fun sys n block => putAlmanac_new⟩,
    fun r => NavRec.bytes_length, MeasRec.bytes_length, MeasEpoch.part_length⟩
  · exact fun h => runHost_effect h rfl
  · intro h sys excl eph hsys hexcl heph
    rw [heph, hexcl, hsys]
    exact runHost_effect h rfl
  · exact fun h => runHost_effect h rfl
  · rintro h a rfl
    exact runHost_effect h rfl
  · exact fun h => runHost_effect h rfl
  · exact fun h => runHost_effect h rfl
  · exact fun info h => runHost_effect h rfl
  · rintro pages got h rfl
    exact runHost_effect h rfl
  · exact fun h r hr => runHost_effect h (pvtReadCmd_effect hr)
  · exact fun h m hm => runHost_effect h (measReadCmd_effect hm)

/-- Settles O28: each event by what it does where its condition holds and where it does not; the epoch by its stages. -/
theorem navigationEvents : Obligations.NavigationEvents := by
  unfold Obligations.NavigationEvents
  refine ⟨fun x s => ⟨fun h => congrArg Host.Outcome.next (navEpoch_ignored h), ?_⟩, navReset_empties,
    fun s => ⟨execNavDeadline_ignored, execNavDeadline_missed, ?_, execImuLost_ignored, ?_, execCanStale_unused⟩,
    fun x s => ⟨execFusedEpoch_ignored, ?_⟩, fun m s => ⟨execNavMessage_ignored, ?_⟩,
    fun miso b s => ⟨execImuRead_unconfigured miso b, fun c hcfg => ⟨execImuRead_ignored miso b, ?_⟩⟩, fun i s => ⟨putInput_future, putInput_late, putInput_taken⟩⟩
  · rintro hruns htick hbeat hgrid k u hk rfl hrate v w rx rs hnone hsome rfl hmeas a b c m rfl rfl rfl rfl
    obtain rfl : v = (latchEpoch s).afterReset := by
      cases hreset : (latchEpoch s).nav.resetDue with
      | none => rw [State.afterReset_none hreset, hnone hreset]
      | some kind => rw [State.afterReset_some hreset, hsome kind hreset]
    obtain ⟨rfl, rfl⟩ := Prod.mk.inj hmeas
    have hexec : execNavEpoch x s = _ := congrArg Host.Outcome.next (navEpoch_due ⟨hruns, htick, hbeat, hgrid⟩ hk hrate)
    exact ⟨fun hskip => hexec.trans (congrArg (fun t => Host.Outcome.next (checkpoint (saveNav t))) (if_pos hskip)),
      fun hkeep => hexec.trans (congrArg (fun t => Host.Outcome.next (checkpoint (saveNav t))) (if_neg (Bool.eq_false_iff.mp hkeep)))⟩
  · exact fun hlive henable hlost hpassed => execImuLost_silent ⟨hlive, henable, hlost, hpassed⟩
  · exact fun t hused hat => ⟨execCanStale_stale hused hat, execCanStale_fresh hat⟩
  · intro hruns hfuse henable htick hwait hgrid
    obtain ⟨n, r, hmode, hpos, hvel, hdt, hexec⟩ := execFusedEpoch_due (x := x) ⟨hruns, hfuse, henable, htick, hwait, hgrid⟩
    exact ⟨_, r, hmode, hpos, hvel, hdt, ⟨n, rfl⟩, hexec⟩
  · intro hruns
    have htaken (t : State) : (.next (if !s.navRuns then s else t) : Host.Outcome State Fault Refusal) = .next t :=
      congrArg Host.Outcome.next (if_neg (by rw [hruns]; exact Bool.false_ne_true))
    exact ⟨htaken s, fun _ => htaken _, fun _ _ _ => htaken _, fun _ _ _ => htaken _, fun _ _ hi => (htaken _).trans (congrArg _ (if_pos hi)),
      fun _ _ hbusy => (htaken _).trans (congrArg _ (if_neg (Bool.eq_false_iff.mp hbusy))), fun _ => htaken _, fun _ _ _ _ _ => htaken _,
      fun _ _ _ _ _ => htaken _⟩
  · exact fun hlive hon henable htick hbeat v at_ hv hat => execImuRead_due miso b hcfg ⟨hlive, hon, henable, htick, hbeat⟩ hv hat

end

section
/-! PROOFS. Corrections and the reference station: the commands 0x0801 to 0x0810 and 0x0840, the end of a frame, the table of stations and the timeouts (R214–R223, R234–R238). -/

namespace Sys2Proof.Machine
open Sys2Proof

/-! ### Frames (R215) -/

section
variable {source node : Nat} {f : List Byte} {i : RtcmInfo} {s : State}

theorem applyFrame_badCrc (hcrc : frameCrcOk f = false) :
    applyFrame source node f i s = (s.modCorr fun c => { c with crcFail := sat32 (c.crcFail + 1) }, .badCrc) :=
  if_pos (by rw [hcrc, Bool.not_false])

theorem applyFrame_unsupported (hcrc : frameCrcOk f = true) (hkind : rtcmKind (rtcmNumber f) = .other) :
    applyFrame source node f i s = (s.modCorr fun c => { c with unsupported := c.unsupported + 1 }, .unsupported) :=
  (if_neg (by rw [hcrc]; exact Bool.false_ne_true)).trans (if_pos hkind)

theorem applyFrame_ssrOff (hcrc : frameCrcOk f = true) (hkind : rtcmKind (rtcmNumber f) = .ssr) (hoff : sourceOn s 1 = false) :
    applyFrame source node f i s = (s.modCorr fun c => { c with dropped := c.dropped + 1 }, .off) := by
  have hpasses : ¬(!frameCrcOk f) = true := by rw [hcrc]; exact Bool.false_ne_true
  have hsupported : rtcmKind (rtcmNumber f) ≠ .other := by rw [hkind]; decide
  exact (if_neg hpasses).trans ((if_neg hsupported).trans (if_pos (.inl ⟨hkind, by rw [hoff, Bool.not_false]⟩)))

end

/-! ### Corrections out of range (R218, Table 9.3) -/

theorem Only.corr_eq {s t : State} (h : Only s t) : t.corr = s.corr := by
  obtain ⟨_, _, rfl⟩ := h
  rfl

@[simp] theorem State.corrEvent_corr (s : State) (kind source id value : Nat) : (s.corrEvent kind source id value).corr = s.corr :=
  (State.notify_only ..).corr_eq

theorem putCorr_outOfRange (source time : Nat) {c : SatCorr} (s : State) (h : corrInRange c = false) :
    (putCorr source time c s).corr.corrs = s.corr.corrs := by
  unfold putCorr
  rw [if_pos (by rw [h, Bool.not_false])]
  split
  · rfl
  · rw [State.corrEvent_corr, State.modCorr_corr]

/-! ### The table of stations (R216) -/

/-- When the station heard least recently was heard. -/
def oldestHeard (ts : List Station) : Nat := ts.foldl (fun a t => min a t.heard) ((ts.head?.map (·.heard)).getD 0)

/-- The stations that stay when a new one comes: of eight, all but the one heard least recently. -/
def stationsKept (ts : List Station) : List Station :=
  if 8 ≤ ts.length then match ts.find? fun t => t.heard == oldestHeard ts with | some t => ts.erase t | none => ts else ts

/-- A station that nothing but its first frame is known of. -/
def newStation (source node id now : Nat) : Station :=
  { source := source, node := node, id := id, arp := none, desc := [], open_ := none, obs := none, waitSince := none, heard := now, last := [] }

theorem oldestHeard_mem (t : Station) (ts : List Station) : oldestHeard (t :: ts) ∈ (t :: ts).map (·.heard) := by
  refine List.min?_mem (xs := (t :: ts).map (·.heard)) ?_
  rw [List.map_cons, List.min?_cons', List.foldl_map]
  exact congrArg (fun a => some (ts.foldl (fun a t => min a t.heard) a)) (Nat.min_self _).symm

/-- Of at most eight stations at most seven stay, so that the new one is at most the eighth. -/
theorem stationsKept_length {ts : List Station} (h : ts.length ≤ 8) : (stationsKept ts).length ≤ 7 := by
  unfold stationsKept
  split
  next hfull =>
    cases ts with
    | nil => exact absurd hfull (by decide)
    | cons t ts =>
      obtain ⟨x, hx, heard⟩ := List.mem_map.mp (oldestHeard_mem t ts)
      cases hfind : (t :: ts).find? fun t' => t'.heard == oldestHeard (t :: ts) with
      | none => exact absurd (beq_iff_eq.mpr heard) (List.find?_eq_none.mp hfind x hx)
      | some y =>
        dsimp only
        rw [List.length_erase_of_mem (List.mem_of_find?_eq_some hfind)]
        omega
  next => omega

section
variable {source node id : Nat} {s : State}

theorem holdStation_known (h : (s.corr.stations.any fun t => t.is source node id) = true) :
    (holdStation source node id s).corr.stations = s.corr.stations.map fun t => if t.is source node id then { t with heard := s.now } else t :=
  congrArg (fun u : State => u.corr.stations) (if_pos h)

theorem holdStation_new (h : (s.corr.stations.any fun t => t.is source node id) = false) :
    (holdStation source node id s).corr.stations = stationsKept s.corr.stations ++ [newStation source node id s.now] := by
  unfold holdStation
  rw [if_neg (Bool.eq_false_iff.mp h)]
  rfl

theorem holdStation_length (h : s.corr.stations.length ≤ 8) : (holdStation source node id s).corr.stations.length ≤ 8 := by
  cases hknown : s.corr.stations.any fun t => t.is source node id with
  | true => rwa [holdStation_known hknown, List.length_map]
  | false =>
    rw [holdStation_new hknown, List.length_append, List.length_singleton]
    exact Nat.succ_le_succ (stationsKept_length h)

theorem holdStation_holds : ∃ t ∈ (holdStation source node id s).corr.stations, t.is source node id = true := by
  cases hknown : s.corr.stations.any fun t => t.is source node id with
  | true =>
    obtain ⟨t, ht, his⟩ := List.any_eq_true.mp hknown
    rw [holdStation_known hknown]
    exact ⟨{ t with heard := s.now }, List.mem_map.mpr ⟨t, ht, if_pos his⟩, his⟩
  | false =>
    rw [holdStation_new hknown]
    refine ⟨newStation source node id s.now, List.mem_append_right _ (List.mem_singleton_self _), ?_⟩
    simp [newStation, Station.is]

end

/-! ### Timeouts of a station (R216) -/

/-- The station with its epoch closed, where that has been open for 500 ms. -/
def Station.closeLate (s : State) (t : Station) : Station :=
  match t.open_ with
  | some o => if s.passedMs o.since 500 then t.close s.now else t
  | none => t

/-- The station without observations that waited 30 s for an ARP. -/
def Station.dropWaiting (s : State) (t : Station) : Station :=
  match t.waitSince with
  | some w => if t.arp.isNone ∧ s.passedMs w 30000 then { t with obs := none, waitSince := none } else t
  | none => t

section
variable {s : State} {t : Station}

theorem execMsmEpochTimeout_eq (s : State) : execMsmEpochTimeout s = .next (s.modCorr fun c => { c with stations := c.stations.map (Station.closeLate s) }) :=
  rfl

theorem execArpWaitTimeout_eq (s : State) : execArpWaitTimeout s = .next (s.modCorr fun c => { c with stations := c.stations.map (Station.dropWaiting s) }) :=
  rfl

theorem Station.closeLate_none (h : t.open_ = none) : t.closeLate s = t := by
  rw [Station.closeLate, h]

theorem Station.closeLate_some {o : ObsEpoch} (h : t.open_ = some o) : t.closeLate s = if s.passedMs o.since 500 then t.close s.now else t := by
  rw [Station.closeLate, h]

theorem Station.dropWaiting_late {w : Nat} (hwait : t.waitSince = some w) (harp : t.arp = none) (hlate : s.passedMs w 30000 = true) :
    t.dropWaiting s = { t with obs := none, waitSince := none } := by
  rw [Station.dropWaiting, hwait]
  exact if_pos ⟨by rw [harp, Option.isNone_none], hlate⟩

theorem Station.dropWaiting_ignored (h : t.waitSince = none ∨ t.arp ≠ none) : t.dropWaiting s = t := by
  unfold Station.dropWaiting
  split
  next w hwait =>
    have harp : t.arp ≠ none := h.resolve_left (by rw [hwait]; exact Option.some_ne_none w)
    exact if_neg fun hdrop => harp (Option.isNone_iff_eq_none.mp hdrop.1)
  next => rfl

end

end Sys2Proof.Machine

open Sys2Proof Sys2Proof.Machine

/-- Settles O29: each command by the equation of its effect, a frame by its end, the table by what stays in it, each timeout by what it does to one station. -/
theorem correctionsAndStation : Obligations.CorrectionsAndStation := by
  unfold Obligations.CorrectionsAndStation
  refine ⟨fun q s => ⟨?_, ?_, ?_, ?_, ?_⟩, fun src node f i s => ⟨applyFrame_badCrc, applyFrame_unsupported, applyFrame_ssrOff⟩,
    fun src time c s => putCorr_outOfRange src time s, fun src node id s h => ⟨holdStation_length h, holdStation_holds⟩, fun s => ⟨?_, ?_, rfl, rfl⟩⟩
  · exact fun h => runHost_effect h rfl
  · rintro h rtk rfl
    exact runHost_effect h rfl
  · intro info u rs h hframes
    obtain ⟨rfl, rfl⟩ := Prod.mk.inj hframes
    exact runHost_effect h rfl
  · exact fun h => runHost_effect h rfl
  · exact fun h => runHost_effect h rfl
  · refine ⟨_, execMsmEpochTimeout_eq s, List.length_map .., fun n t ht => ?_⟩
    rw [List.getElem?_map, ht, Option.map_some]
    refine ⟨fun hnone => by rw [Station.closeLate_none hnone], fun o ho => ⟨fun hyoung => ?_, fun hlate => ?_⟩⟩
    · rw [Station.closeLate_some ho, hyoung, if_neg Bool.false_ne_true]
    · rw [Station.closeLate_some ho, if_pos hlate]
  · refine ⟨_, execArpWaitTimeout_eq s, List.length_map .., fun n t ht => ?_⟩
    rw [List.getElem?_map, ht, Option.map_some]
    exact ⟨fun w hwait harp hlate => by rw [Station.dropWaiting_late hwait harp hlate], fun h => by rw [Station.dropWaiting_ignored h]⟩

end

section
/-! PROOFS. The domain and received frames: the commands 0x0830 to 0x0832, the checks of a datagram, the replay window, what goes out and what ends in time (R224–R233, R238, R265). -/

namespace Sys2Proof.Machine
open Sys2Proof

/-! ### Datagrams (R224–R226) -/

section
variable {n stamp : Nat} {d : List Byte} {info : List RtcmInfo} {s : State}

theorem execQdpDatagramRx_up (h : s.portUp n = true) (hn : n < 2) :
    execQdpDatagramRx n stamp d info s = .next (qdpReceive n (some (((stamp : Int) - (s.port n).lat.committed.2).toNat)) d info s) :=
  congrArg Host.Outcome.next (if_pos ⟨h, hn⟩)

theorem execQdpDatagramRx_ignored (h : ¬(s.portUp n = true ∧ n < 2)) : execQdpDatagramRx n stamp d info s = .next s :=
  congrArg Host.Outcome.next (if_neg h)

end

section
variable {src : Nat} {rx : Option Nat} {d : List Byte} {info : List RtcmInfo} {s : State}

theorem qdpReceive_off (h : s.qdpOn = false ∨ bitOf s.domain.cfg.transport src = false) : qdpReceive src rx d info s = s := by
  refine if_pos ?_
  rcases h with hoff | hclosed
  · rw [hoff, Bool.not_false, Bool.true_or]
  · rw [hclosed, Bool.not_false, Bool.or_true]

section
variable (hon : s.qdpOn = true) (hopen : bitOf s.domain.cfg.transport src = true)
include hon hopen

theorem qdpReceive_badHeader (hheader : qdpHeaderOk s d = false) : qdpReceive src rx d info s = qdpDiscard s := by
  simp only [qdpReceive, hon, hopen, hheader, Bool.not_true, Bool.not_false, Bool.or_self, Bool.false_eq_true, if_false, if_true]

theorem qdpReceive_noKey (hheader : qdpHeaderOk s d = true) (hkey : macKey s = none) : qdpReceive src rx d info s = macFailed (qField d 6 2) s := by
  simp only [qdpReceive, hon, hopen, hheader, hkey, Bool.not_true, Bool.or_self, Bool.false_eq_true, if_false]

theorem qdpReceive_badMac {key : List Nat} (hheader : qdpHeaderOk s d = true) (hkey : macKey s = some key)
    (hmac : qdpMac key (d.take (d.length - 8)) ≠ d.drop (d.length - 8)) : qdpReceive src rx d info s = macFailed (qField d 6 2) s := by
  simp only [qdpReceive, hon, hopen, hheader, hkey, Bool.not_true, Bool.or_self, Bool.false_eq_true, if_false]
  exact if_pos hmac

end

end

/-! ### The replay window (R227) -/

section
variable {p p' : Peer} {e q : BitVec 32}

theorem replayStep_earlierEpoch (h : e.toNat < p.epoch.toNat) : replayStep p e q = none := if_pos h

/-- A number of the present epoch that the window holds is a replay. -/
theorem replayStep_seen (hq : q.toNat ≤ p.highest.toNat) (hseen : p.window.getLsbD (p.highest.toNat - q.toNat) = true) :
    replayStep p p.epoch q = none := by
  simp only [replayStep, Nat.lt_irrefl, Nat.not_lt.mpr hq, hseen, or_true, if_true, if_false]

/-- What is accepted opens a later epoch, is the new highest number, or sets its bit within the window. -/
theorem replayStep_accepted (h : replayStep p e q = some p') :
    (p.epoch.toNat < e.toNat ∧ p' = { p with epoch := e, highest := q, window := 1 })
    ∨ (p.epoch = e ∧ p.highest.toNat < q.toNat ∧ ∃ w : BitVec 64, w.getLsbD 0 = true ∧ p' = { p with highest := q, window := w })
    ∨ (p.epoch = e ∧ q.toNat ≤ p.highest.toNat ∧ p.highest.toNat - q.toNat < 64
        ∧ p' = { p with window := p.window ||| (1#64 <<< (p.highest.toNat - q.toNat)) }) := by
  unfold replayStep at h
  dsimp only at h
  split at h
  · cases h
  next hnotEarlier =>
    split at h
    next hlater => exact .inl ⟨hlater, (Option.some.inj h).symm⟩
    next hnotLater =>
      have hepoch : p.epoch = e := BitVec.eq_of_toNat_eq (Nat.le_antisymm (Nat.not_lt.mp hnotEarlier) (Nat.not_lt.mp hnotLater))
      split at h
      next hhigher =>
        refine .inr (.inl ⟨hepoch, hhigher, _, ?_, (Option.some.inj h).symm⟩)
        split <;> simp
      next hnotHigher =>
        split at h
        · cases h
        next hunseen =>
          exact .inr (.inr ⟨hepoch, Nat.not_lt.mp hnotHigher, Nat.not_le.mp fun hold => hunseen (.inl hold), (Option.some.inj h).symm⟩)

theorem replayStep_twice (h : replayStep p e q = some p') : replayStep p' e q = none := by
  rcases replayStep_accepted h with ⟨-, rfl⟩ | ⟨rfl, -, w, hw, rfl⟩ | ⟨rfl, hq, hb, rfl⟩
  · exact replayStep_seen (p := { p with epoch := e, highest := q, window := 1 }) (Nat.le_refl _) (by simp)
  · exact replayStep_seen (p := { p with highest := q, window := w }) (Nat.le_refl _) (by rw [Nat.sub_self]; exact hw)
  · refine replayStep_seen (p := { p with window := p.window ||| (1#64 <<< (p.highest.toNat - q.toNat)) }) hq ?_
    simp [hb]

theorem replayStep_advances (h : replayStep p e q = some p') :
    p.epoch.toNat ≤ p'.epoch.toNat ∧ p'.epoch = e ∧ (e = p.epoch → p.highest.toNat ≤ p'.highest.toNat) := by
  rcases replayStep_accepted h with ⟨hlater, rfl⟩ | ⟨rfl, hhigher, w, -, rfl⟩ | ⟨rfl, -, -, rfl⟩
  · exact ⟨Nat.le_of_lt hlater, rfl, fun hsame => absurd hlater (by rw [hsame]; exact Nat.lt_irrefl _)⟩
  · exact ⟨Nat.le_refl _, rfl, fun _ => Nat.le_of_lt hhigher⟩
  · exact ⟨Nat.le_refl _, rfl, fun _ => Nat.le_refl _⟩

end

/-! ### What goes out and ends in time (R228–R233) -/

/-- The next HELLO is set and this one sent. -/
def State.helloSent (s : State) : State :=
  let t := s.modDomain fun d => { d with helloDue := s.now + d.cfg.helloInt * msUnits }
  qdpSend 1 0xFFFF (fun _ => helloBody t) none t

/-- A GM node elects at each HELLO. -/
def State.gmElected (s : State) : State := if s.domain.role 0 then electGm s else s

/-- The grandmaster sends TIME with each HELLO. -/
def State.timeSent (s : State) : State :=
  if s.domain.role 0 && s.domain.gm == some s.nodeId then
    qdpSend 2 0xFFFF (fun t => timeBody s (if t = 2 then s.now else s.now + timeLead)) (some (s.now + timeLead)) s
  else s

/-- The GM nodes of the table that no HELLO came from for 3 × HELLO_INT. -/
def State.latePeers (s : State) : List Peer :=
  s.domain.peers.filter fun p => !p.timedOut && bitOf p.roles 0 && s.passedMs p.hello (3 * s.domain.cfg.helloInt)

/-- The nodes `old` are marked and reported lost. -/
def State.peersLost (old : List Peer) (s : State) : State :=
  old.foldl (fun s p => s.domainEvent 2 p.node 0) (s.modDomain fun d => { d with peers := d.peers.map fun p => if old.contains p then { p with timedOut := true } else p })

section
variable {s : State}

theorem execHelloSend_ignored (h : s.qdpOn = false ∨ s.domain.sends = false ∨ s.now < s.domain.helloDue) : execHelloSend s = .next s := by
  refine congrArg Host.Outcome.next (if_pos ?_)
  rcases h with hoff | hsilent | hearly
  · rw [hoff, Bool.not_false, Bool.true_or, Bool.true_or]
  · rw [hsilent, Bool.not_false, Bool.or_true, Bool.true_or]
  · rw [decide_eq_true hearly, Bool.or_true]

theorem execHelloSend_due (hon : s.qdpOn = true) (hsends : s.domain.sends = true) (hdue : s.domain.helloDue ≤ s.now) :
    execHelloSend s = .next (sendAlert s.helloSent.gmElected.timeSent) := by
  refine congrArg Host.Outcome.next (if_neg ?_)
  rw [hon, hsends, decide_eq_false (Nat.not_lt.mpr hdue)]
  exact Bool.false_ne_true

theorem State.peersLost_nil (s : State) : s.peersLost [] = s := by
  have hkeep (ps : List Peer) : (ps.map fun p => if ([] : List Peer).contains p then { p with timedOut := true } else p) = ps := List.map_id ps
  exact congrArg (fun ps => s.modDomain fun d => { d with peers := ps }) (hkeep s.domain.peers)

/-- The grandmaster is elected anew where a GM node was lost. -/
theorem execPeerTimeout_eq (s : State) : execPeerTimeout s
    = .next (let u := s.peersLost s.latePeers; if u.qdpOn && u.domain.role 0 && !s.latePeers.isEmpty then electGm u else u) := rfl

theorem execPeerTimeout_none (h : s.latePeers = []) : execPeerTimeout s = .next s := by
  rw [execPeerTimeout_eq, h, State.peersLost_nil]
  exact congrArg Host.Outcome.next (if_neg (by rw [List.isEmpty_nil, Bool.not_true, Bool.and_false]; exact Bool.false_ne_true))

theorem execPeerTimeout_some {u : State} (hu : u = s.peersLost s.latePeers) (h : s.latePeers ≠ []) :
    execPeerTimeout s = .next (if u.qdpOn && u.domain.role 0 then electGm u else u) := by
  rw [execPeerTimeout_eq, ← hu, List.isEmpty_eq_false_iff.mpr h, Bool.not_false]
  dsimp only
  rw [Bool.and_true]

end

/-! ### Received frames (R265) -/

/-- A frame for the device, by its EtherType. -/
def etherReceive (n stamp type : Nat) (srcMac data : List Byte) (info : List RtcmInfo) (s : State) : State :=
  match type with
  | 0x0806 => arpReceive n data s
  | 0x0800 => ipReceive n stamp srcMac data info s
  | 0x88F7 => if (s.ptp n).enable ∧ (s.ptp n).stop.profile ≠ 0 then ptpReceive n stamp data (goodRx n s) else dropRx n s
  | _ => dropRx n s

section
variable {n stamp : Nat} {f : List Byte} {info : List RtcmInfo} {s : State}

theorem execEthFrameRx_down {ok : Bool} (h : s.portUp n = false ∨ 1 < n) : execEthFrameRx n stamp ok f info s = .next s := by
  refine congrArg Host.Outcome.next (if_pos ?_)
  rcases h with hdown | hnone
  · rw [hdown, Bool.not_false, Bool.true_or]
  · rw [decide_eq_true hnone, Bool.or_true]

section
variable (hup : s.portUp n = true) (hn : n ≤ 1)
include hup hn

theorem execEthFrameRx_badFcs : execEthFrameRx n stamp false f info s = .next (s.modPort n fun p => { p with rxFcs := sat32 (p.rxFcs + 1) }) := by
  simp only [execEthFrameRx, hup, Nat.not_lt.mpr hn, decide_false, Bool.not_true, Bool.not_false, Bool.or_self, Bool.false_eq_true, if_false, if_true]

theorem execEthFrameRx_refused (h : f.length < 60 ∨ 1518 < f.length ∨ macAccepted s n (f.take 6) = false) :
    execEthFrameRx n stamp true f info s = .next (dropRx n s) := by
  simp only [execEthFrameRx, hup, Nat.not_lt.mpr hn, decide_false, Bool.not_true, Bool.or_self, Bool.false_eq_true, if_false]
  exact congrArg Host.Outcome.next (if_pos (by simpa only [Bool.not_eq_true'] using h))

/-- A good frame for a port without a VLAN goes by its EtherType. -/
theorem execEthFrameRx_untagged (hmin : 60 ≤ f.length) (hmax : f.length ≤ 1518) (hmac : macAccepted s n (f.take 6) = true) (hvlan : (s.port n).cfg.vlan = 0)
    (htag : beField f 12 2 ≠ 0x8100) : execEthFrameRx n stamp true f info s
      = .next (etherReceive n (((stamp : Int) - (s.port n).lat.committed.2).toNat) (beField f 12 2) (fieldB f 6 6) (f.drop 14) info s) := by
  simp only [execEthFrameRx, hup, Nat.not_lt.mpr hn, Nat.not_lt.mpr hmin, Nat.not_lt.mpr hmax, hmac, hvlan, beq_eq_false_iff_ne.mpr htag, decide_false,
    Bool.not_true, Bool.or_self, Bool.false_eq_true, ne_eq, not_true_eq_false, false_and, or_self, eq_self, eq_false true_ne_false, if_false]
  rfl

end

theorem arpReceive_request {p : List Byte} (hrequest : p.take 8 = [0, 1, 8, 0, 6, 4, 0, 1]) (hmine : beField p 24 4 = (s.port n).cfg.ipv4) :
    arpReceive n p s = sendOwn n (s.ethFrame n (fieldB p 8 6) 0x0806
      ([0, 1, 8, 0, 6, 4, 0, 2] ++ s.macOf n ++ be 4 (s.port n).cfg.ipv4 ++ fieldB p 8 6 ++ fieldB p 14 4)) false 0 0 none (goodRx n s) :=
  if_pos ⟨hrequest, hmine⟩

theorem arpReceive_other {p : List Byte} (h : p.take 8 ≠ [0, 1, 8, 0, 6, 4, 0, 1]) : arpReceive n p s = dropRx n s :=
  if_neg fun hrequest => h hrequest.1

end

end Sys2Proof.Machine

open Sys2Proof Sys2Proof.Machine

/-- Settles O30: each command by the equation of its effect, datagrams and frames by the first check they fail, the window by what it accepts. -/
theorem domainAndReceivedFrames : Obligations.DomainAndReceivedFrames := by
  unfold Obligations.DomainAndReceivedFrames
  refine ⟨fun q s => ⟨?_, fun h => runHost_effect h rfl, fun info h => runHost_effect h rfl⟩,
    fun port stamp d info s => ⟨execQdpDatagramRx_up, execQdpDatagramRx_ignored⟩,
    fun src rx d info s => ⟨qdpReceive_off, qdpReceive_badHeader, qdpReceive_noKey, fun key hon hopen => qdpReceive_badMac hon hopen⟩,
    fun p p' e q => ⟨replayStep_earlierEpoch, replayStep_twice, replayStep_advances⟩,
    fun s => ⟨execHelloSend_ignored, ?_, ?_, ?_, rfl⟩, fun n stamp ok f info s => ⟨execEthFrameRx_down, fun hup hn => ⟨?_, ?_, ?_, ?_⟩⟩,
    fun n p s => ⟨arpReceive_request, arpReceive_other⟩⟩
  · rintro h c d rfl rfl
    exact runHost_effect h rfl
  · rintro hon hsends hdue u v w rfl rfl rfl
    exact execHelloSend_due hon hsends hdue
  · rintro ps rfl
    rfl
  · rintro old rfl
    exact ⟨execPeerTimeout_none, fun u => execPeerTimeout_some⟩
  · rintro rfl
    exact execEthFrameRx_badFcs hup hn
  · rintro rfl
    exact execEthFrameRx_refused hup hn
  · rintro rfl hmin hmax hmac hvlan htype
    exact (execEthFrameRx_untagged hup hn hmin hmax hmac hvlan (by rw [htype]; decide)).trans (by rw [htype]; rfl)
  · rintro rfl hmin hmax hmac hvlan htype
    exact (execEthFrameRx_untagged hup hn hmin hmax hmac hvlan (by rw [htype]; decide)).trans (by rw [htype]; rfl)

end

section
/-! PROOFS. Reported time, the TP outputs, FREQ_OUT, the steps of time and the event captures: where edges lie and what each event leaves (R244–R259). -/

namespace Sys2Proof.Machine
open Sys2Proof

/-! ### The grid of edges and the generations (R244, R252) -/

theorem placeEdge_dvd (d : Int) : placeEdge d % 16 = 0 := by
  unfold placeEdge
  split
  case isTrue haligned => exact haligned
  case isFalse => split <;> omega

theorem placeEdge_near (d : Int) : d - 16 < placeEdge d ∧ placeEdge d < d + 17 := by
  unfold placeEdge
  split
  case isTrue => omega
  case isFalse => split <;> omega

theorem nextGen_bounds {g : Nat} (h : g ≤ 0xFFFF) : 1 ≤ nextGen g ∧ nextGen g ≤ 0xFFFF := by
  unfold nextGen
  split <;> omega

/-! ### TP outputs (R252–R256) -/

/-- A TP output with settings `t` runs, and the edge `e` of its grid instant lies in the present tick and half a second after it was enabled (R252). -/
def State.tpDue (s : State) (n grid : Nat) (t : TpOut) (e : Int) : Prop :=
  s.live = true ∧ s.on 13 = true ∧ t.enable = true ∧ n ≤ 3 ∧ s.inTick e = true ∧ t.enabledAt + halfSecond ≤ grid

/-- The mark goes out when POLICY of the output asks for marks (R256). -/
def TpOut.mark (t : TpOut) (n : Nat) (e : Int) (grid time quality kind : Nat) (same first : Bool) (u : State) : State :=
  if bitOf t.pulse.inForce.policy 2 then u.tpMark n e grid time quality kind same first else u

/-- The output after a pulse at `e`: the end of the pulse and, where it marks, the generation of its mark (R255, R256). -/
def TpOut.pulsed (t : TpOut) (e : Int) (gen quality : Nat) : TpOut :=
  { t with
    lastEdge := some e.toNat, pulseEnd := some (e.toNat + t.pulse.inForce.width * 64000 * (if bitOf t.pulse.inForce.policy 1 then quality + 1 else 1))
    markGen := if bitOf t.pulse.inForce.policy 2 then some gen else t.markGen }

/-- The edge of a due grid instant: omitted when too close to the last (R254), muted while unqualified (R255), or else a pulse. -/
def State.tpEdge (s : State) (n grid time : Nat) (same : Bool) (t : TpOut) (e : Int) : Host.Outcome State Fault Refusal :=
  let k := tpQuality s.clock t.scale grid
  if tooClose t.lastEdge e then .next (t.mark n e grid time k 1 same false (s.modTp n fun _ => { t with omitted := sat32 (t.omitted + 1) }))
  else if k = 2 ∧ bitOf t.pulse.inForce.policy 0 then .next (t.mark n e grid time k 2 same false (s.modTp n fun _ => t))
  else .next (t.mark n e grid time k 0 same (t.markGen != some (s.clock.genAt grid)) (s.modTp n fun _ => t.pulsed e (s.clock.genAt grid) k))

section
variable {n grid time : Nat} {b : Bool} {s : State} {t : TpOut} {e : Int}

theorem State.tpDue_iff : s.tpDue n grid t e
    ↔ (s.live && s.on 13 && t.enable && decide (n ≤ 3) && s.inTick e && decide (t.enabledAt + halfSecond ≤ grid)) = true := by
  simp only [State.tpDue, Bool.and_eq_true, decide_eq_true_eq, and_assoc]

theorem State.tpEdge_omits (hclose : tooClose t.lastEdge e = true) : s.tpEdge n grid time b t e
    = .next (t.mark n e grid time (tpQuality s.clock t.scale grid) 1 b false (s.modTp n fun _ => { t with omitted := sat32 (t.omitted + 1) })) :=
  if_pos hclose

theorem State.tpEdge_mutes (hfar : tooClose t.lastEdge e = false) (hmuted : tpQuality s.clock t.scale grid = 2 ∧ bitOf t.pulse.inForce.policy 0 = true) :
    s.tpEdge n grid time b t e = .next (t.mark n e grid time (tpQuality s.clock t.scale grid) 2 b false (s.modTp n fun _ => t)) :=
  (if_neg (Bool.eq_false_iff.mp hfar)).trans (if_pos hmuted)

theorem State.tpEdge_pulses (hfar : tooClose t.lastEdge e = false) (hunmuted : ¬(tpQuality s.clock t.scale grid = 2 ∧ bitOf t.pulse.inForce.policy 0 = true)) :
    s.tpEdge n grid time b t e = .next (t.mark n e grid time (tpQuality s.clock t.scale grid) 0 b (t.markGen != some (s.clock.genAt grid))
      (s.modTp n fun _ => t.pulsed e (s.clock.genAt grid) (tpQuality s.clock t.scale grid))) :=
  (if_neg (Bool.eq_false_iff.mp hfar)).trans (if_neg hunmuted)

section
variable (ht : t = { s.tp n with pulse := (s.tp n).pulse.latch }) (he : e = placeEdge ((grid : Int) - t.pulse.inForce.cable))
include ht he

theorem execTimePulseEdge_ignored (h : ¬s.tpDue n grid t e ∨ tpGrid s.clock t grid = none) : execTimePulseEdge n grid b s = .next s := by
  subst ht he
  rw [State.tpDue_iff, Bool.not_eq_true, ← Bool.not_eq_true'] at h
  rcases h with hidle | hnone
  · exact if_pos hidle
  · refine (congrArg (ite _ _) ?_).trans (ite_self _)
    rw [hnone]

theorem execTimePulseEdge_due (h : s.tpDue n grid t e) (hgrid : tpGrid s.clock t grid = some time) :
    execTimePulseEdge n grid b s = s.tpEdge n grid time b t e := by
  subst ht he
  rw [State.tpDue_iff] at h
  refine (if_neg (by rw [h]; exact Bool.false_ne_true)).trans ?_
  rw [hgrid]
  rfl

end
end

/-! ### FREQ_OUT (R257) -/

section
variable {grid : Nat} {s : State} {f : FoutOut} {e : Int}
  (hf : f = { s.timeSys.fout with pulse := s.timeSys.fout.pulse.latch }) (he : e = placeEdge ((grid : Int) - f.pulse.inForce.2))
include hf he

theorem execFoutEdge_ignored (h : ¬(s.live = true ∧ s.on 13 = true ∧ f.enable = true ∧ s.inTick e = true) ∨ foutGrid s.clock f grid = none) :
    execFoutEdge grid s = .next s := by
  have hruns : (s.live && s.on 13 && f.enable && s.inTick e) = true ↔ s.live = true ∧ s.on 13 = true ∧ f.enable = true ∧ s.inTick e = true := by
    simp only [Bool.and_eq_true, and_assoc]
  rw [← hruns, Bool.not_eq_true, ← Bool.not_eq_true'] at h
  subst hf he
  rcases h with hidle | hnone
  · exact if_pos hidle
  · refine (congrArg (ite _ _) ?_).trans (ite_self _)
    rw [hnone]

/-- The level follows the parity of the half period `k`, once the wait for a whole second is over and half a nominal period has passed since the last edge. -/
theorem execFoutEdge_toggles {k : Int} (hlive : s.live = true) (hon : s.on 13 = true) (hen : f.enable = true) (htick : s.inTick e = true)
    (hgrid : foutGrid s.clock f grid = some k) (hstarted : ¬(f.waiting = true ∧ k % (2 * f.freq : Nat) ≠ 0))
    (hunmuted : ¬(f.pulse.inForce.1 = true ∧ s.clock.effective = 5))
    (hroom : ∀ l, f.lastEdge = some l → (64000000000 : Int) ≤ (e - (l : Int) + 16) * (2 * f.freq : Nat)) :
    execFoutEdge grid s = .next (s.modFout fun _ => { f with level := decide (k % 2 = 0), lastEdge := some e.toNat, waiting := false }) := by
  have hspaced : (f.lastEdge.map fun l => decide (64000000000 ≤ (e - (l : Int) + 16) * (2 * f.freq : Nat))).getD true = true := by
    cases hl : f.lastEdge with
    | none => rfl
    | some l => exact decide_eq_true (hroom l hl)
  subst hf he
  refine (if_neg (by rw [hlive, hon, hen, htick]; exact Bool.false_ne_true)).trans ?_
  rw [hgrid]
  exact (if_neg hstarted).trans ((if_neg hunmuted).trans (if_pos hspaced))

end

/-! ### Steps, leap seconds and the end of holdover (R244, R246, R248, R249) -/

section
variable {s : State}

theorem execStepInstant_ignored (h : s.clock.step = none ∨ s.clock.state ≠ 4 ∨ s.on 13 = false) : execStepInstant s = .next s := by
  simp only [execStepInstant]
  rcases h with hnone | hrest
  · rw [hnone]
  · split
    · exact if_neg fun ⟨hpending, hon, _⟩ => hrest.elim (absurd hpending) fun hoff => Bool.false_ne_true (hoff.symm.trans hon)
    · rfl

theorem execLeapSecond_ignored (h : s.clock.leapNext = none ∨ s.on 13 = false) : execLeapSecond s = .next s := by
  simp only [execLeapSecond]
  rcases h with hnone | hoff
  · rw [hnone]
  · split
    · exact if_neg fun ⟨hon, _⟩ => Bool.false_ne_true (hoff.symm.trans hon)
    · rfl

section
variable {g : Seg} (hseg : s.clock.seg s.now = some g) (hon : s.on 13 = true)
include hseg hon

/-- The servo restarts in LOCKED on a segment of the next GEN, and what was queued for launch under the old time is withdrawn (R249, R272). -/
theorem execStepInstant_steps {sec : Nat} {dt : Int} (hstep : s.clock.step = some sec) (hpending : s.clock.state = 4)
    (hdt : dt = g.dtOf (seconds 0 + (sec : Int) * nsUnit)) (hdue : dt < (dtAt s.time.beat (s.time.tick + 1) : Nat)) {u : State}
    (hu : u = s.modClock fun c => { c.newSeg dt.toNat (-c.y) (-(roundRat (c.e * 4294967296))) (nextGen c.gen) with
      state := 1, step := none, next := none, e := 0, steps := (c.steps + 1) % 65536, big := 0, lastValid := s.now }) :
    execStepInstant s = .next ((({ u with eth := u.eth.map (EthPort.withdraw u.now) } : State).timeStep dt.toNat (-(roundRat (s.clock.e * 1000)))
      (if (s.clock.from_ = 1 ∨ s.clock.from_ = 3) ∧ (s.clock.source = 2 ∨ s.clock.source = 3) then 2 else 0) 0xFF).timeState 4) := by
  subst hdt hu
  simp only [execStepInstant, hstep, hseg]
  exact if_pos ⟨hpending, hon, hdue⟩

/-- GPS time runs on: the new segment differs in its GEN alone, and the counts that follow LEAP step (R246); the SCALE of the notice is free. -/
theorem execLeapSecond_steps {at_ leap : Nat} {dt : Int} (hnext : s.clock.leapNext = some (at_, leap)) (hdt : dt = g.dtOf ((at_ : Int) * nsUnit))
    (hdue : dt < (dtAt s.time.beat (s.time.tick + 1) : Nat)) {u : State}
    (hu : u = s.modClock fun c => { c.newSeg dt.toNat g.slope 0 (nextGen c.gen) with
      leaps := (dt.toNat, leap) :: c.leaps, leapNext := none, steps := (c.steps + 1) % 65536 }) :
    ∃ v, execLeapSecond s = .next (({ u with freeCtr := u.freeCtr + 1 } : State).timeStep dt.toNat
      ((((s.clock.leapAt s.now).getD leap : Nat) : Int) * 1000000000000 - (leap : Int) * 1000000000000) 1 (v % 256)) := by
  subst hdt
  refine ⟨(u.openVal 30).2, ?_⟩
  subst hu
  simp only [execLeapSecond, hnext, hseg, ← Int.sub_mul]
  exact if_pos ⟨hon, hdue⟩

end

theorem execHoldoverLimit_ends (h : s.clock.state = 2 ∧ s.clock.pastLimit s.now = true) :
    execHoldoverLimit s = .next ((s.modClock fun c => { c with state := 5 }).timeState 2) :=
  if_pos h

theorem execHoldoverLimit_ignored (h : ¬(s.clock.state = 2 ∧ s.clock.pastLimit s.now = true)) : execHoldoverLimit s = .next s :=
  if_neg h

end

/-! ### Event captures (R258, R259) -/

section
variable {n pin : Nat} {up b : Bool} {s : State}

theorem capture_unselected (h : (s.ev n).selects up = false) : capture n up pin b s = s :=
  if_pos (by rw [h]; rfl)

/-- Past eight edges in a beat an edge is dropped, and the next record is to say so. -/
theorem capture_dropped (h : (s.ev n).selects up = true) (hbeat : (s.ev n).beat = s.time.beat) (hfull : 8 ≤ (s.ev n).count) :
    capture n up pin b s = s.modEv n fun e => { e with dropped := true } :=
  (if_neg (by rw [h]; exact Bool.false_ne_true)).trans (if_pos ⟨hbeat, hfull⟩)

end

end Sys2Proof.Machine

open Sys2Proof Sys2Proof.Machine

/-- Settles O31: each command by the equation of its effect, a TP edge by what `tpEdge` says of it, the other events by the case they meet. -/
theorem timeCommandsAndPulses : Obligations.TimeCommandsAndPulses := by
  unfold Obligations.TimeCommandsAndPulses
  refine ⟨fun q s => ⟨fun h => runHost_effect h rfl, fun h => runHost_effect h rfl, ?_, ?_, fun h => runHost_effect h rfl, ?_⟩,
    fun d => ⟨placeEdge_dvd d, placeEdge_near d⟩, fun g => nextGen_bounds, fun n grid b s t e ht he => ⟨execTimePulseEdge_ignored ht he, ?_⟩,
    fun grid s f e hf he => ⟨execFoutEdge_ignored hf he, fun k => execFoutEdge_toggles hf he⟩,
    fun s => ⟨execStepInstant_ignored, ?_, execLeapSecond_ignored, ?_, ?_, execHoldoverLimit_ignored⟩,
    fun n up pin b s => ⟨capture_unselected, capture_dropped⟩⟩
  · rintro h p on rfl rfl
    exact runHost_effect h rfl
  · rintro h p on rfl rfl
    exact runHost_effect h rfl
  · rintro h rs rfl
    exact runHost_effect h rfl
  · rintro hlive hon hen hn htick hold time k u hgrid rfl
    have hedge : execTimePulseEdge n grid b s = s.tpEdge n grid time b t e :=
      execTimePulseEdge_due ht he ⟨hlive, hon, hen, hn, htick, hold⟩ hgrid
    refine ⟨?_, ?_, ?_⟩
    · rintro hclose rfl
      exact hedge.trans (State.tpEdge_omits hclose)
    · rintro hfar hquality hpolicy rfl
      exact hedge.trans (State.tpEdge_mutes hfar ⟨hquality, hpolicy⟩)
    · rintro hfar hunmuted rfl
      exact hedge.trans (State.tpEdge_pulses hfar hunmuted)
  · rintro sec g dt u kind hstep hseg hpending hon hdt hdue rfl hu
    exact execStepInstant_steps hseg hon hstep hpending hdt hdue hu
  · rintro at_ leap g dt u hnext hseg hon hdt hdue hu
    exact execLeapSecond_steps hseg hon hnext hdt hdue hu
  · rintro hstate hlimit
    exact execHoldoverLimit_ends ⟨hstate, hlimit⟩

end

section
/-! PROOFS. The Ethernet ports: the commands of group 0x0A, launch frames, transmit timestamps, and the link (R266–R272, R276, R281, R285, R286). -/

namespace Sys2Proof.Machine
open Sys2Proof

/-! ### Commands (R268, R271, R281) -/

/-- EP_CFG sets the port as given; a port that is disabled keeps neither link, queue nor fragments. -/
def State.epConfigured (s : State) (q : Qcp) : State :=
  s.modPort (q.u 0 1) fun p =>
    { p with
      cfg := epCfgOf q, lat := if p.line.isSome || !p.queue.isEmpty then p.lat.commit (q.i 24 4, q.i 28 4) else .at (q.i 24 4, q.i 28 4)
      link := if (epCfgOf q).enable && s.on 12 then p.link else 0, linkUpAt := if (epCfgOf q).enable then p.linkUpAt else none
      queue := if (epCfgOf q).enable then p.queue else [], frags := if (epCfgOf q).enable then p.frags else [] }

/-- PTP_CFG sets its fields, whatever the port does then. -/
def State.ptpConfigured (s : State) (q : Qcp) : State :=
  s.modPtp (q.u 0 1) fun p => { p with enable := q.u 1 1 == 1, stop := ptpStopOf q, cfg := .at (ptpFrameOf q) }

/-- A PTP port that is enabled starts anew (R281). -/
def State.ptpStarted (s : State) (n : Nat) : State :=
  s.modPtp n fun p => { p.restart with foreign := [], untrusted := [], asCapable := false, parent := none }

section
variable {q : Qcp} {s : State}

theorem epCfgCmd_effect_keeps (h : (s.port (q.u 0 1)).cfg.enable = false ∨ (epCfgOf q).enable = true) :
    epCfgCmd.effect q s = (s.epConfigured q, .ok []) := by
  refine congrArg (·, Reply.ok []) (if_neg ?_)
  rw [Bool.and_eq_true, Bool.not_eq_true']
  rintro ⟨hwas, hnow⟩
  rcases h with hoff | hon
  · exact Bool.false_ne_true (hoff.symm.trans hwas)
  · exact Bool.false_ne_true (hnow.symm.trans hon)

theorem epCfgCmd_effect_disables (hwas : (s.port (q.u 0 1)).cfg.enable = true) (hnow : (epCfgOf q).enable = false) : epCfgCmd.effect q s
    = (((s.epConfigured q).port (q.u 0 1)).queue.foldl (fun s f => dropFrame (q.u 0 1) 1 f s) (s.epConfigured q), .ok []) :=
  congrArg (·, Reply.ok []) (if_pos (by rw [hwas, hnow]; rfl))

/-- A frame with a launch instant waits among the launches, any other in the queue. -/
theorem ethTxCmd_effect {f : TxFrame} (hf : f = ⟨lineBytes (fieldB q.payload 16 (q.u 4 2)), if bitOf (q.u 1 1) 0 then some (q.u 2 2) else none,
    if bitOf (q.u 1 1) 1 then some (launchAt s (q.u 8 8)) else none, false, 0, 0, s.clock.gen⟩) : ethTxCmd.effect q s
      = (s.modPort (q.u 0 1) fun p =>
        { p with entries := if bitOf (q.u 1 1) 0 then p.entries ++ [⟨q.u 2 2, bitOf (q.u 1 1) 2, none⟩] else p.entries
                 launches := if bitOf (q.u 1 1) 1 then p.launches ++ [f] else p.launches
                 queue := if bitOf (q.u 1 1) 1 then p.queue else p.queue ++ [f] }, .ok []) := by
  subst hf
  simp only [ethTxCmd, Option.isSome_ite]

theorem ptpCfgCmd_effect_keeps (h : (q.u 1 1 == 1) = (s.ptp (q.u 0 1)).enable) : ptpCfgCmd.effect q s = (s.ptpConfigured q, .ok []) :=
  congrArg (·, Reply.ok []) ((if_neg (by rw [h, Bool.and_not_self]; exact Bool.false_ne_true)).trans
    (if_neg (by rw [h, Bool.not_and_self]; exact Bool.false_ne_true)))

section
variable (hen : q.u 1 1 = 1) (hwas : (s.ptp (q.u 0 1)).enable = false)
include hen hwas

theorem ptpCfgCmd_effect_enables (hup : ((s.ptpConfigured q).ptpStarted (q.u 0 1)).portUp (q.u 0 1) = true) : ptpCfgCmd.effect q s
    = (runBmca (q.u 0 1) false (setPtpState (q.u 0 1) ptpListening none ((s.ptpConfigured q).ptpStarted (q.u 0 1))), .ok []) :=
  congrArg (·, Reply.ok []) ((if_pos (by rw [hen, hwas]; rfl)).trans (if_pos hup))

theorem ptpCfgCmd_effect_enables_down (hdown : ((s.ptpConfigured q).ptpStarted (q.u 0 1)).portUp (q.u 0 1) = false) : ptpCfgCmd.effect q s
    = (setPtpState (q.u 0 1) ptpFaulty none ((s.ptpConfigured q).ptpStarted (q.u 0 1)), .ok []) :=
  congrArg (·, Reply.ok []) ((if_pos (by rw [hen, hwas]; rfl)).trans (if_neg (Bool.eq_false_iff.mp hdown)))

end

theorem ptpCfgCmd_effect_disables (hen : q.u 1 1 ≠ 1) (hwas : (s.ptp (q.u 0 1)).enable = true) :
    ptpCfgCmd.effect q s = (setPtpState (q.u 0 1) ptpDisabled none (s.ptpConfigured q), .ok []) := by
  have hoff : (q.u 1 1 == 1) = false := beq_false_of_ne hen
  exact congrArg (·, Reply.ok []) ((if_neg (by rw [hoff, hwas]; exact Bool.false_ne_true)).trans (if_pos (by rw [hoff, hwas]; rfl)))

end

/-! ### Launch frames and timestamps (R266, R269–R272) -/

/-- The launch frames of a port that start within two ordering ticks. -/
def State.dueLaunches (s : State) (n : Nat) : List TxFrame :=
  (s.port n).launches.filter fun f => (f.launch.map fun l => decide (l ≤ s.now + ((s.port n).lat.inForce.1.toNat) + 4925)).getD false

/-- A launch frame is dropped with a status and counted (R272). -/
def loseLaunch (n stat : Nat) (f : TxFrame) (s : State) : State :=
  (dropFrame n stat f s).modPort n fun p => { p with launchDrop := sat32 (p.launchDrop + 1) }

/-- A due launch frame goes to the line, unless the port is down or a frame of the device was queued under another GEN (R272). -/
def startLaunch (n : Nat) (f : TxFrame) (s : State) : State :=
  if !s.portUp n then loseLaunch n 1 f s
  else if f.own && f.gen != s.clock.gen then loseLaunch n 3 f s
  else s.modPort n fun p => { p with line := some f }

/-- A completed timestamp entry that has waited 10 s (R269). -/
def State.tsOld (s : State) (e : TsEntry) : Bool :=
  match e.done with
  | some (_, _, _, at_) => s.passedMs at_ 10000
  | none => false

/-- The frame that a port sends next: the launch frame on the line, or else the oldest in the queue (R266). -/
def EthPort.nextFrame (p : EthPort) : Option TxFrame := p.line.orElse fun _ => p.queue.head?

/-- The frame `f` has left a port that is free again, at the DT `dt`: it is counted, and its timestamp entry completes (R269). -/
def frameSent (n dt : Nat) (b : Bool) (f : TxFrame) (s : State) : State :=
  let u := s.modPort n fun p =>
    { p with line := none, queue := if p.line.isSome then p.queue else p.queue.drop 1, txOk := sat32 (p.txOk + 1), lat := p.lat.latch }
  afterOwn n dt f ((f.id.map fun i => completeTs n i 0 dt b u).getD u)

section
variable {n stamp : Nat} {b : Bool} {s : State} {f : TxFrame}

theorem execEthLaunch_none (h : s.dueLaunches n = []) : execEthLaunch n s = .next s := by
  unfold State.dueLaunches at h
  simp only [execEthLaunch, h]

theorem execEthLaunch_first {r : List TxFrame} (h : s.dueLaunches n = f :: r) :
    execEthLaunch n s = .next (startLaunch n f (s.modPort n fun p => { p with launches := p.launches.erase f })) := by
  unfold State.dueLaunches at h
  simp only [execEthLaunch, h]
  rfl

theorem startLaunch_down (hdown : s.portUp n = false) : startLaunch n f s = loseLaunch n 1 f s :=
  if_pos (by rw [hdown]; rfl)

section
variable (hup : s.portUp n = true)
include hup

theorem startLaunch_up : startLaunch n f s
    = if f.own && f.gen != s.clock.gen then loseLaunch n 3 f s else s.modPort n fun p => { p with line := some f } :=
  if_neg (by rw [hup]; exact Bool.false_ne_true)

theorem startLaunch_otherGen (h : f.own = true ∧ f.gen ≠ s.clock.gen) : startLaunch n f s = loseLaunch n 3 f s :=
  (startLaunch_up hup).trans (if_pos (by rwa [Bool.and_eq_true, bne_iff_ne]))

theorem startLaunch_starts (h : ¬(f.own = true ∧ f.gen ≠ s.clock.gen)) : startLaunch n f s = s.modPort n fun p => { p with line := some f } :=
  (startLaunch_up hup).trans (if_neg (by rwa [Bool.and_eq_true, bne_iff_ne]))

end

theorem State.tsOld_iff (e : TsEntry) : s.tsOld e = true ↔ ∃ a b c d, e.done = some (a, b, c, d) ∧ s.passedMs d 10000 = true := by
  unfold State.tsOld
  split
  case h_1 a b c d hdone =>
    rw [hdone]
    exact ⟨fun h => ⟨a, b, c, d, rfl, h⟩, fun ⟨_, _, _, _, heq, h⟩ => by cases heq; exact h⟩
  case h_2 hnone =>
    rw [hnone]
    exact ⟨fun h => absurd h Bool.false_ne_true, fun ⟨_, _, _, _, heq, _⟩ => nomatch heq⟩

theorem EthPort.nextFrame_eq_none {p : EthPort} : p.nextFrame = none ↔ p.line = none ∧ p.queue = [] := by
  rw [EthPort.nextFrame, Option.orElse_eq_or, Option.or_eq_none_iff, List.head?_eq_none_iff]

theorem EthPort.nextFrame_eq_some {p : EthPort} : p.nextFrame = some f ↔ p.line = some f ∨ (p.line = none ∧ p.queue.head? = some f) := by
  rw [EthPort.nextFrame, Option.orElse_eq_or, Option.or_eq_some_iff]

theorem execEthTxDone_idle (h : (drainEth s).portUp n = false ∨ ((drainEth s).port n).nextFrame = none) :
    execEthTxDone n stamp b s = .next (drainEth s) := by
  refine congrArg Host.Outcome.next ?_
  rcases h with hdown | hnone
  · exact if_pos (by rw [hdown]; rfl)
  · unfold EthPort.nextFrame at hnone
    dsimp only
    rw [hnone]
    exact ite_self _

theorem execEthTxDone_sends (hup : (drainEth s).portUp n = true) (hf : ((drainEth s).port n).nextFrame = some f) :
    execEthTxDone n stamp b s = .next (frameSent n ((stamp : Int) + ((drainEth s).port n).lat.inForce.1).toNat b f (drainEth s)) := by
  unfold EthPort.nextFrame at hf
  simp only [execEthTxDone, hup, hf, Bool.not_true, Bool.false_eq_true, if_false, frameSent]
  cases f.id <;> rfl

end

/-! ### The link (R285) -/

section
variable {n sp : Nat} {s : State}

theorem execLinkDown_ignored (h : (s.port n).link = 0) : execLinkDown n s = .next s :=
  congrArg Host.Outcome.next (if_pos h)

theorem execLinkDown_drops (h : (s.port n).link ≠ 0) {u : State} (hu : u = dropAll n (s.modPort n fun p => { p with link := 0, linkUpAt := none })) :
    execLinkDown n s = .next (if (u.ptp n).enable then setPtpState n ptpFaulty none u else u) := by
  subst hu
  exact congrArg Host.Outcome.next (if_neg h)

/-- A port takes a link of speed `sp` (R285). -/
def State.takesLink (s : State) (n sp : Nat) : Prop := s.live = true ∧ s.on 12 = true ∧ (s.port n).cfg.enable = true ∧ 1 ≤ sp ∧ sp ≤ 3

theorem State.takesLink_iff : s.takesLink n sp
    ↔ (!s.live || !s.on 12 || !(s.port n).cfg.enable || decide (sp = 0) || decide (3 < sp)) = false := by
  simp only [State.takesLink, Bool.or_eq_false_iff, Bool.not_eq_false', decide_eq_false_iff_not, Nat.not_lt, Nat.one_le_iff_ne_zero, and_assoc, ne_eq]

theorem execLinkUp_ignored (h : ¬s.takesLink n sp) : execLinkUp n sp s = .next s :=
  congrArg Host.Outcome.next (if_pos (by rwa [State.takesLink_iff, Bool.not_eq_false] at h))

section
variable (h : s.takesLink n sp)
include h

theorem execLinkUp_takes (hlink : (s.port n).link = 0) :
    execLinkUp n sp s = .next (s.modPort n fun p => { p with link := sp, linkUpAt := some (s.now + 1000 * msUnits) }) := by
  rw [State.takesLink_iff, ← Bool.not_eq_true] at h
  exact congrArg Host.Outcome.next ((if_neg h).trans (if_pos hlink))

section
variable (hlink : (s.port n).link ≠ 0)
include hlink

theorem execLinkUp_waits (hwaits : ∀ t, (s.port n).linkUpAt = some t → s.now < t) : execLinkUp n sp s = .next s := by
  rw [State.takesLink_iff, ← Bool.not_eq_true] at h
  refine congrArg Host.Outcome.next ((if_neg h).trans ((if_neg hlink).trans ?_))
  split
  case h_1 t ht => exact if_neg (Nat.not_le.mpr (hwaits t ht))
  case h_2 => rfl

theorem execLinkUp_listens {t : Nat} (ht : (s.port n).linkUpAt = some t) (hdue : t ≤ s.now) {u : State}
    (hu : u = s.modPort n fun p => { p with linkUpAt := none }) : execLinkUp n sp s
      = .next (if (u.ptp n).enable && (u.ptp n).state == ptpFaulty then runBmca n false (setPtpState n ptpListening none u) else u) := by
  subst hu
  rw [State.takesLink_iff, ← Bool.not_eq_true] at h
  refine congrArg Host.Outcome.next ((if_neg h).trans ((if_neg hlink).trans ?_))
  rw [ht]
  exact if_pos hdue

end
end
end

end Sys2Proof.Machine

open Sys2Proof Sys2Proof.Machine

/-- Settles O33: each command by the equation of its effect, a launch by `startLaunch`, a frame that leaves by `frameSent`, the link by the case it meets. -/
theorem ethernetCommandsAndLine : Obligations.EthernetCommandsAndLine := by
  unfold Obligations.EthernetCommandsAndLine
  refine ⟨?_, ?_, fun n s => ⟨s.tsOld, s.tsOld_iff, rfl⟩, ?_, fun n s => ⟨execLinkDown_ignored, fun hlink u => execLinkDown_drops hlink⟩, ?_⟩
  · rintro q s n rfl
    refine ⟨?_, ?_, ?_, ?_, ?_, ?_, fun h => runHost_effect h rfl⟩
    · rintro h c l u rfl rfl rfl
      exact ⟨fun hkeeps => runHost_effect h (epCfgCmd_effect_keeps hkeeps), fun hwas hnow => runHost_effect h (epCfgCmd_effect_disables hwas hnow)⟩
    · rintro h p rfl
      exact runHost_effect h rfl
    · rintro h fl f rfl hf
      exact runHost_effect h (ethTxCmd_effect hf)
    · rintro h ready rfl
      exact runHost_effect h rfl
    · rintro h u v rfl rfl
      exact ⟨fun hkeeps => runHost_effect h (ptpCfgCmd_effect_keeps hkeeps), fun hen hwas hup => runHost_effect h (ptpCfgCmd_effect_enables hen hwas hup),
        fun hen hwas hdown => runHost_effect h (ptpCfgCmd_effect_enables_down hen hwas hdown),
        fun hen hwas => runHost_effect h (ptpCfgCmd_effect_disables hen hwas)⟩
    · rintro h p sub rfl rfl
      exact runHost_effect h rfl
  · rintro n s due rfl
    refine ⟨execEthLaunch_none, ?_⟩
    rintro f r u hdue rfl
    have hfirst := execEthLaunch_first hdue
    exact ⟨fun hup hgen => hfirst.trans (congrArg _ (startLaunch_starts hup hgen)), fun hup hgen => hfirst.trans (congrArg _ (startLaunch_otherGen hup hgen)),
      fun hdown => hfirst.trans (congrArg _ (startLaunch_down hdown))⟩
  · rintro n stamp b s d rfl
    refine ⟨fun h => execEthTxDone_idle (h.imp_right EthPort.nextFrame_eq_none.mpr), ?_⟩
    rintro hup f dt u rfl hf rfl
    exact execEthTxDone_sends hup (EthPort.nextFrame_eq_some.mpr hf)
  · intro n sp s
    refine ⟨execLinkUp_ignored, fun hlive hon hen hmin hmax => ?_⟩
    have h : s.takesLink n sp := ⟨hlive, hon, hen, hmin, hmax⟩
    exact ⟨execLinkUp_takes h, execLinkUp_waits h, fun t u hlink ht hdue => execLinkUp_listens h hlink ht hdue⟩

end

section
/-! PROOFS. PTP: the messages that a port receives and sends, the tests of a sample, the ends of a port's waits, and the order of data sets (R274–R284). -/

namespace Sys2Proof.Machine
open Sys2Proof

/-! ### Received messages (R284) -/

/-- A message of the device's own clock: counted, and told of once a minute (R284). -/
def ptpLooped (n : Nat) (s : State) : State :=
  let u := discardPtp n s
  if ((s.ptp n).loopAt.map fun t => u.passedMs t 60000).getD true then (u.modPtp n fun p => { p with loopAt := some u.now }).ptpEvent n 9 0 else u

/-- The use of a message that has passed every check, by its type. -/
def ptpUse (type n dt : Nat) (m : List Byte) (s : State) : State :=
  match type with
  | 0 | 8 => ptpSync n dt m s
  | 1 => ptpDelayReq n dt m s
  | 9 => ptpDelayResp n m s
  | 2 | 3 | 10 => ptpPeer n dt m s
  | 11 => ptpAnnounce n m s
  | _ => discardPtp n s

/-- A message of another clock: its rate and its correction are checked, then it is used. -/
def ptpForeign (n dt : Nat) (m : List Byte) (s : State) : State :=
  let r := ptpRate n (beField m 0 1 % 16) (ptpSource m) s
  if !r.2 || !ptpCorrOk m then discardPtp n r.1 else ptpUse (beField m 0 1 % 16) n dt m r.1

section
variable {n dt : Nat} {m : List Byte} {s u : State}

/-- A row uses the messages of its types alone. -/
theorem ptpRow_eq_ite {types : List Nat} {P : Prop} [Decidable P] (h : beField m 0 1 % 16 ∈ types ↔ P) :
    ptpRow types n dt m s = if P then ptpReceive n dt m s else s := by
  simp only [ptpRow, List.contains_iff_mem, h]

theorem ptpReceive_off (h : (s.ptp n).enable = false ∨ s.portUp n = false) : ptpReceive n dt m s = s := by
  refine if_pos ?_
  rcases h with hdisabled | hdown
  · rw [hdisabled]; rfl
  · rw [hdown, Bool.not_false, Bool.or_true]

section
variable (hen : (s.ptp n).enable = true) (hup : s.portUp n = true)
include hen hup

theorem ptpReceive_on : ptpReceive n dt m s
    = if !ptpHeaderOk s n m then discardPtp n s else if (ptpSource m).take 8 = s.clockId then ptpLooped n s else ptpForeign n dt m s :=
  if_neg (by rw [hen, hup]; exact Bool.false_ne_true)

theorem ptpReceive_badHeader (h : ptpHeaderOk s n m = false) : ptpReceive n dt m s = discardPtp n s :=
  (ptpReceive_on hen hup).trans (if_pos (by rw [h]; rfl))

section
variable (hok : ptpHeaderOk s n m = true)
include hok

theorem ptpReceive_header : ptpReceive n dt m s = if (ptpSource m).take 8 = s.clockId then ptpLooped n s else ptpForeign n dt m s :=
  (ptpReceive_on hen hup).trans (if_neg (by rw [hok]; exact Bool.false_ne_true))

theorem ptpReceive_own (hown : (ptpSource m).take 8 = s.clockId) : ptpReceive n dt m s = ptpLooped n s :=
  (ptpReceive_header hen hup hok).trans (if_pos hown)

theorem ptpReceive_foreign (hother : (ptpSource m).take 8 ≠ s.clockId) : ptpReceive n dt m s = ptpForeign n dt m s :=
  (ptpReceive_header hen hup hok).trans (if_neg hother)

end
end

theorem discardPtp_passedMs {t ms : Nat} : (discardPtp n s).passedMs t ms = s.passedMs t ms := by
  rw [State.passedMs, State.passedMs, State.now, State.now, discardPtp, State.modPtp, State.modPort_time]

theorem ptpLooped_again {t : Nat} (ht : (s.ptp n).loopAt = some t) (hrecent : s.passedMs t 60000 = false) : ptpLooped n s = discardPtp n s := by
  refine if_neg ?_
  rw [ht, Option.map_some, Option.getD_some, discardPtp_passedMs, hrecent]
  exact Bool.false_ne_true

theorem ptpLooped_first (h : (s.ptp n).loopAt = none) (hu : u = discardPtp n s) :
    ptpLooped n s = (u.modPtp n fun p => { p with loopAt := some u.now }).ptpEvent n 9 0 := by
  subst hu
  exact if_pos (by rw [h]; rfl)

section
variable {ok : Bool} (hrate : ptpRate n (beField m 0 1 % 16) (ptpSource m) s = (u, ok))
include hrate

theorem ptpForeign_refused (h : ok = false ∨ ptpCorrOk m = false) : ptpForeign n dt m s = discardPtp n u := by
  unfold ptpForeign
  rw [hrate]
  refine if_pos ?_
  rcases h with hfast | hcorr
  · rw [hfast]; rfl
  · rw [hcorr, Bool.not_false, Bool.or_true]

theorem ptpForeign_used (hok : ok = true) (hcorr : ptpCorrOk m = true) : ptpForeign n dt m s = ptpUse (beField m 0 1 % 16) n dt m u := by
  unfold ptpForeign
  rw [hrate]
  exact if_neg (by rw [hok, hcorr]; exact Bool.false_ne_true)

end

section
variable {type : Nat}

theorem ptpUse_sync (h : type = 0 ∨ type = 8) : ptpUse type n dt m s = ptpSync n dt m s := by
  rcases h with rfl | rfl <;> rfl

theorem ptpUse_delayReq (h : type = 1) : ptpUse type n dt m s = ptpDelayReq n dt m s := by
  subst h; rfl

theorem ptpUse_delayResp (h : type = 9) : ptpUse type n dt m s = ptpDelayResp n m s := by
  subst h; rfl

theorem ptpUse_peer (h : type = 2 ∨ type = 3 ∨ type = 10) : ptpUse type n dt m s = ptpPeer n dt m s := by
  rcases h with rfl | rfl | rfl <;> rfl

theorem ptpUse_announce (h : type = 11) : ptpUse type n dt m s = ptpAnnounce n m s := by
  subst h; rfl

end

/-! ### Sync and Follow_Up (R277) -/

theorem ptpSync_refused (h : (s.ptp n).state ≠ ptpSlave ∨ ((s.ptp n).parent.map (·.port)) ≠ some (ptpSource m)) :
    ptpSync n dt m s = discardPtp n s :=
  if_pos h

section
variable (hslave : (s.ptp n).state = ptpSlave) (hparent : ((s.ptp n).parent.map (·.port)) = some (ptpSource m))
include hslave hparent

/-- A new two-step Sync waits for its Follow_Up. -/
theorem ptpSync_waits (htype : beField m 0 1 % 16 ≠ 8) (htwo : ptpTwoStep m = true)
    (hnew : 1 ≤ (ptpSeq m + 65536 - (s.ptp n).syncSeq.getD (ptpSeq m + 65535)) % 65536)
    (hnear : (ptpSeq m + 65536 - (s.ptp n).syncSeq.getD (ptpSeq m + 65535)) % 65536 < 32768) :
    ptpSync n dt m s = s.modPtp n fun p => { p with syncSeq := some (ptpSeq m), wait := some (ptpSeq m, dt, ptpCorr m) } := by
  have hsync : ¬(beField m 0 1 % 16 == 8) = true := by rwa [beq_iff_eq]
  exact (if_neg (by simp only [hslave, hparent, ne_eq, not_true_eq_false, or_self, not_false_eq_true])).trans
    ((if_neg hsync).trans ((if_neg (by omega)).trans (if_pos htwo)))

/-- The Follow_Up of the Sync that waits completes the pair, when it comes within a sync interval. -/
theorem ptpSync_pairs (htype : beField m 0 1 % 16 = 8) {t2 : Nat} {c : Rat} (hwait : (s.ptp n).wait = some (ptpSeq m, t2, c))
    (htime : s.now ≤ t2 + logUnits (s.ptp n).stop.logSync) (hstamp : beField m 40 4 < 1000000000) :
    ptpSync n dt m s = syncPair n t2 (ptpStampOf m 34) (c + ptpCorr m) s := by
  refine (if_neg (by simp only [hslave, hparent, ne_eq, not_true_eq_false, or_self, not_false_eq_true])).trans
    ((if_pos (beq_iff_eq.mpr htype)).trans ?_)
  rw [hwait]
  exact if_pos ⟨rfl, htime, decide_eq_true hstamp⟩

end
end

/-! ### The tests of a sample (R279, R282) -/

/-- The tests of a sample `o` against the prediction `pred` of the filter (R279). -/
def testSample (n dt : Nat) (o pred : Rat) (s : State) : State :=
  let p := s.ptp n
  if p.suspect.isSome then s.modPtp n fun p => { p with kept := (o, pred) :: p.kept }
  else if (p.cfg.inForce.jumpThr : Rat) < absRat (o - pred) then
    (s.modPtp n fun p => { p with suspect := some (s.now, 0), kept := [(o, pred)] }).ptpEvent n 4 (roundRat (o - pred))
  else if 4 * rmsOf p.residuals < absRat (o - pred) ∧ 4 * (p.cfg.inForce.lockThr : Rat) < absRat (o - pred) then
    s.modPtp n fun p => { p with outliers := sat32 (p.outliers + 1) }
  else useSample n dt o s

section
variable {n dt : Nat} {fwd o d pred : Rat} {s : State}

theorem takeSample_noPath (h : (s.ptp n).path = none) : takeSample n dt fwd s = s := by
  rw [takeSample, h]

section
variable (hpath : (s.ptp n).path = some d)
include hpath

/-- In a path window a sample only measures the path against GNSS (R282). -/
theorem takeSample_window {g : SourceFix} (hwindow : (s.ptp n).window.isSome = true) (hfix : s.gnssFix = some g) : takeSample n dt fwd s
    = s.modPtp n fun p => { p with gnssSum := p.gnssSum + (fwd - p.asym - g.e), gnssCount := p.gnssCount + 1 } := by
  simp only [takeSample, hpath, hwindow, hfix, if_true]

section
variable (hwindow : (s.ptp n).window = none) (ho : o = fwd - d - (s.ptp n).asym)
include hwindow ho

theorem takeSample_unpredicted (h : predictedOffset s n dt = none) : takeSample n dt fwd s = useSample n dt o s := by
  subst ho
  simp only [takeSample, hpath, hwindow, h, Option.isSome_none, Bool.false_eq_true, if_false]

theorem takeSample_predicted (h : predictedOffset s n dt = some pred) : takeSample n dt fwd s = testSample n dt o pred s := by
  subst ho
  simp only [takeSample, hpath, hwindow, h, Option.isSome_none, Bool.false_eq_true, if_false]
  rfl

end
end

theorem testSample_suspect (h : (s.ptp n).suspect.isSome = true) :
    testSample n dt o pred s = s.modPtp n fun p => { p with kept := (o, pred) :: p.kept } :=
  if_pos h

section
variable (hsuspect : (s.ptp n).suspect = none)
include hsuspect

theorem testSample_trusted : testSample n dt o pred s
    = if ((s.ptp n).cfg.inForce.jumpThr : Rat) < absRat (o - pred) then
        (s.modPtp n fun p => { p with suspect := some (s.now, 0), kept := [(o, pred)] }).ptpEvent n 4 (roundRat (o - pred))
      else if 4 * rmsOf (s.ptp n).residuals < absRat (o - pred) ∧ 4 * ((s.ptp n).cfg.inForce.lockThr : Rat) < absRat (o - pred) then
        s.modPtp n fun p => { p with outliers := sat32 (p.outliers + 1) }
      else useSample n dt o s :=
  if_neg (by rw [hsuspect]; exact Bool.false_ne_true)

theorem testSample_jump (h : ((s.ptp n).cfg.inForce.jumpThr : Rat) < absRat (o - pred)) : testSample n dt o pred s
    = (s.modPtp n fun p => { p with suspect := some (s.now, 0), kept := [(o, pred)] }).ptpEvent n 4 (roundRat (o - pred)) :=
  (testSample_trusted hsuspect).trans (if_pos h)

section
variable (hnear : ¬((s.ptp n).cfg.inForce.jumpThr : Rat) < absRat (o - pred))
include hnear

theorem testSample_outlier (h : 4 * rmsOf (s.ptp n).residuals < absRat (o - pred) ∧ 4 * ((s.ptp n).cfg.inForce.lockThr : Rat) < absRat (o - pred)) :
    testSample n dt o pred s = s.modPtp n fun p => { p with outliers := sat32 (p.outliers + 1) } :=
  (testSample_trusted hsuspect).trans ((if_neg hnear).trans (if_pos h))

theorem testSample_used (h : ¬(4 * rmsOf (s.ptp n).residuals < absRat (o - pred) ∧ 4 * ((s.ptp n).cfg.inForce.lockThr : Rat) < absRat (o - pred))) :
    testSample n dt o pred s = useSample n dt o s :=
  (testSample_trusted hsuspect).trans ((if_neg hnear).trans (if_neg h))

end
end
end

/-! ### Messages sent (R275–R277) -/

theorem nextGrid_bounds {i now : Nat} (h : 0 < i) : nextGrid i now % i = 0 ∧ now < nextGrid i now ∧ nextGrid i now ≤ now + i := by
  have hexpand : nextGrid i now = now / i * i + i := Nat.succ_mul ..
  refine ⟨Nat.mul_mod_left .., ?_, ?_⟩
  · exact hexpand ▸ Nat.lt_div_mul_add h
  · exact hexpand ▸ Nat.add_le_add_right (Nat.div_mul_le_self ..) i

section
variable {n : Nat} {s : State}

section
variable (h : ¬((s.ptp n).state = ptpMaster ∧ s.portUp n = true))
include h

theorem execSyncSend_ignored : execSyncSend n s = .next s :=
  congrArg Host.Outcome.next (if_neg h)

theorem execAnnounceSend_ignored : execAnnounceSend n s = .next s :=
  congrArg Host.Outcome.next (if_neg h)

end

theorem execDelayReqSend_ignored (h : (s.ptp n).enable = false ∨ s.portUp n = false ∨ ((s.ptp n).stop.profile < 2 ∧ (s.ptp n).state ≠ ptpSlave)) :
    execDelayReqSend n s = .next s := by
  refine congrArg Host.Outcome.next (if_neg ?_)
  rw [Bool.and_eq_true, Bool.and_eq_true, Bool.or_eq_true, decide_eq_true_eq, beq_iff_eq]
  rintro ⟨⟨hen, hup⟩, hpeer⟩
  rcases h with hdisabled | hdown | ⟨hend, hother⟩
  · exact Bool.false_ne_true (hdisabled.symm.trans hen)
  · exact Bool.false_ne_true (hdown.symm.trans hup)
  · exact hpeer.elim (Nat.not_le.mpr hend) hother

section
variable (hen : (s.ptp n).enable = true) (hup : s.portUp n = true) {v : State}
  (hv : v = s.modPtp n fun r => { r with txSeq := (r.txSeq + 1) % 65536, req := some ((s.ptp n).txSeq, none), responders := [], pdelay := none })
include hen hup hv

theorem execDelayReqSend_peer (hpeer : 2 ≤ (s.ptp n).stop.profile) : execDelayReqSend n s
    = .next (sendPtp n 2 (ptpMessage s n 2 (s.ptp n).txSeq 0 0 0x7F (rsv 20)) true 3 (s.ptp n).txSeq none v) := by
  subst hv
  simp only [execDelayReqSend, hen, hup, decide_eq_true hpeer, Bool.true_or, Bool.and_self, if_true]

theorem execDelayReqSend_slave (hend : (s.ptp n).stop.profile < 2) (hslave : (s.ptp n).state = ptpSlave) : execDelayReqSend n s
    = .next (sendPtp n 1 (ptpMessage s n 1 (s.ptp n).txSeq 0 0 0x7F (rsv 10)) true 2 (s.ptp n).txSeq none v) := by
  subst hv
  simp only [execDelayReqSend, hen, hup, decide_eq_false (Nat.not_le.mpr hend), hslave, beq_self_eq_true, Bool.false_or, Bool.and_self, if_true,
    Bool.false_eq_true, if_false]

end
end

/-! ### The end of SUSPECT_MASTER (R280) -/

/-- The differences of the kept samples from their predictions. -/
def Ptp.keptDiffs (p : Ptp) : List Rat := p.kept.map fun x => x.1 - x.2

/-- J: the mean of these differences (Table 11.6). -/
def Ptp.keptJump (p : Ptp) : Rat := p.keptDiffs.sum / (p.kept.length : Nat)

/-- From the least to the greatest of them. -/
def Ptp.keptSpread (p : Ptp) : Rat :=
  p.keptDiffs.foldl (fun a b => if a < b then b else a) p.keptJump - p.keptDiffs.foldl (fun a b => if b < a then b else a) p.keptJump

/-- The verdict on a master at the end of SUSPECT_MASTER, with GNSS or without (Table 11.6). -/
def suspectVerdict (n restarts : Nat) (s : State) : State :=
  let p := s.ptp n
  match s.gnssFix with
  | some g =>
    if (p.cfg.inForce.jumpThr : Rat) < absRat (g.e - (p.kept.map (·.1)).sum / (p.kept.length : Nat)) then distrust n s else reanchor n p.keptJump s
  | none =>
    if p.keptSpread ≤ (p.cfg.inForce.jumpThr : Rat) / 4 then (reanchor n p.keptJump s).ptpEvent n 5 (roundRat p.keptJump)
    else if 3 ≤ restarts + 1 then distrust n s
    else s.modPtp n fun p => { p with suspect := some (s.now, restarts + 1), kept := [] }

section
variable {n since r : Nat} {s : State}

theorem execSuspectMasterEnd_none (h : (s.ptp n).suspect = none) : execSuspectMasterEnd n s = .next s := by
  simp only [execSuspectMasterEnd, h]

section
variable (hsuspect : (s.ptp n).suspect = some (since, r))
include hsuspect

theorem execSuspectMasterEnd_early (h : s.now < since + 4 * logUnits (s.ptp n).stop.logSync) : execSuspectMasterEnd n s = .next s := by
  simp only [execSuspectMasterEnd, hsuspect, h, if_true]

theorem execSuspectMasterEnd_due (hdue : since + 4 * logUnits (s.ptp n).stop.logSync ≤ s.now) (hkept : (s.ptp n).kept ≠ []) :
    execSuspectMasterEnd n s = .next (suspectVerdict n r s) := by
  simp only [execSuspectMasterEnd, hsuspect, Nat.not_lt.mpr hdue, List.isEmpty_eq_false_iff.mpr hkept, Bool.false_eq_true, if_false]
  rfl

end

section
variable (hfix : s.gnssFix = none)
include hfix

theorem suspectVerdict_alone : suspectVerdict n r s
    = if (s.ptp n).keptSpread ≤ ((s.ptp n).cfg.inForce.jumpThr : Rat) / 4 then
        (reanchor n (s.ptp n).keptJump s).ptpEvent n 5 (roundRat (s.ptp n).keptJump)
      else if 3 ≤ r + 1 then distrust n s
      else s.modPtp n fun p => { p with suspect := some (s.now, r + 1), kept := [] } := by
  rw [suspectVerdict, hfix]

theorem suspectVerdict_jumped (h : (s.ptp n).keptSpread ≤ ((s.ptp n).cfg.inForce.jumpThr : Rat) / 4) :
    suspectVerdict n r s = (reanchor n (s.ptp n).keptJump s).ptpEvent n 5 (roundRat (s.ptp n).keptJump) :=
  (suspectVerdict_alone hfix).trans (if_pos h)

section
variable (hspread : ¬(s.ptp n).keptSpread ≤ ((s.ptp n).cfg.inForce.jumpThr : Rat) / 4)
include hspread

theorem suspectVerdict_distrusts (h : 2 ≤ r) : suspectVerdict n r s = distrust n s :=
  (suspectVerdict_alone hfix).trans ((if_neg hspread).trans (if_pos (Nat.succ_le_succ h)))

theorem suspectVerdict_restarts (h : r < 2) : suspectVerdict n r s = s.modPtp n fun p => { p with suspect := some (s.now, r + 1), kept := [] } :=
  (suspectVerdict_alone hfix).trans ((if_neg hspread).trans (if_neg (Nat.not_le.mpr (Nat.succ_lt_succ h))))

end
end

theorem suspectVerdict_gnss {g : SourceFix} (hfix : s.gnssFix = some g) : suspectVerdict n r s
    = if ((s.ptp n).cfg.inForce.jumpThr : Rat) < absRat (g.e - ((s.ptp n).kept.map (·.1)).sum / ((s.ptp n).kept.length : Nat)) then distrust n s
      else reanchor n (s.ptp n).keptJump s := by
  rw [suspectVerdict, hfix]

end

/-! ### The other ends of a port's waits (R278, R281, R283, R284) -/

section
variable {n : Nat} {s : State}

theorem execPathWindowEnd_none (h : (s.ptp n).window = none) : execPathWindowEnd n s = .next s := by
  simp only [execPathWindowEnd, h]

section
variable {since : Nat} {m0 held : Rat} (hwindow : (s.ptp n).window = some (since, m0, held))
include hwindow

theorem execPathWindowEnd_early (h : s.passedMs since (1000 * (s.ptp n).cfg.inForce.stabWindow) = false) : execPathWindowEnd n s = .next s := by
  simp only [execPathWindowEnd, hwindow, h, Bool.not_false, if_true]

section
variable (hdue : s.passedMs since (1000 * (s.ptp n).cfg.inForce.stabWindow) = true) {d : Rat} (hd : d = meanDelay (s.ptp n))
include hdue hd

/-- With GNSS through the window the asymmetry that it shows is taken. -/
theorem execPathWindowEnd_gnss (hok : (s.ptp n).gnssOk = true) (hcount : 0 < (s.ptp n).gnssCount) {c : Rat}
    (hc : c = (s.ptp n).gnssSum / (s.ptp n).gnssCount - d) : execPathWindowEnd n s = .next ((s.modPtp n fun p =>
      { p with path := some d, window := none, asym := p.asym + c, asymBound := p.asymBound, anchor := none, used := p.used }).ptpEvent n 8 (roundRat c)) := by
  subst hc hd
  simp only [execPathWindowEnd, hwindow, hdue, hok, decide_eq_true hcount, Bool.and_self, Bool.not_true, Bool.false_eq_true, if_false, if_true]

/-- Without GNSS the bound of the asymmetry grows by the change of the path. -/
theorem execPathWindowEnd_alone (h : (s.ptp n).gnssOk = false ∨ (s.ptp n).gnssCount = 0) : execPathWindowEnd n s = .next ((s.modPtp n fun p =>
      { p with path := some d, window := none, asym := p.asym + 0, asymBound := p.asymBound + absRat (d - held), anchor := none
               used := p.used }).ptpEvent n 8 (roundRat (absRat (d - held)))) := by
  have hgnss : ((s.ptp n).gnssOk && decide (0 < (s.ptp n).gnssCount)) = false := by
    rcases h with hlost | hempty
    · rw [hlost, Bool.false_and]
    · rw [hempty, decide_eq_false (Nat.lt_irrefl 0), Bool.and_false]
  subst hd
  simp only [execPathWindowEnd, hwindow, hdue, hgnss, Bool.not_true, Bool.false_eq_true, if_false]

end
end

section
variable {keep : List (List Byte × Option Nat)} (hkeep : keep = (s.ptp n).untrusted.filter fun u => (u.2.map fun t => decide (s.now < t)).getD true)
include hkeep

theorem execUntrustHoldEnd_ignored (h : keep.length = (s.ptp n).untrusted.length) : execUntrustHoldEnd n s = .next s := by
  subst hkeep
  exact congrArg Host.Outcome.next (if_pos h)

theorem execUntrustHoldEnd_ends (h : keep.length ≠ (s.ptp n).untrusted.length) :
    execUntrustHoldEnd n s = .next (runBmca n false (s.modPtp n fun p => { p with untrusted := keep })) := by
  subst hkeep
  exact congrArg Host.Outcome.next (if_neg h)

end

theorem execSyncReceiptTimeout_ignored
    (h : ¬((s.ptp n).state = ptpSlave ∧ (s.ptp n).locked = true ∧ (s.ptp n).lastSync + 3 * logUnits (s.ptp n).stop.logSync ≤ s.now)) :
    execSyncReceiptTimeout n s = .next s :=
  congrArg Host.Outcome.next (if_neg h)

theorem execSyncReceiptTimeout_unlocks
    (h : (s.ptp n).state = ptpSlave ∧ (s.ptp n).locked = true ∧ (s.ptp n).lastSync + 3 * logUnits (s.ptp n).stop.logSync ≤ s.now) :
    execSyncReceiptTimeout n s = .next ((s.modPtp n fun p => { p with locked := false }).ptpEvent n 3 0) :=
  congrArg Host.Outcome.next (if_pos h)

theorem execAnnounceTimeout_off (h : (s.ptp n).enable = false ∨ s.portUp n = false) : execAnnounceTimeout n s = .next s := by
  refine congrArg Host.Outcome.next (if_pos ?_)
  rcases h with hdisabled | hdown
  · rw [hdisabled]; rfl
  · rw [hdown, Bool.not_false, Bool.or_true]

section
variable {stale : ClockSet → Bool} {u : State}
  (hstale : stale = fun c : ClockSet => decide (c.heard + (s.ptp n).stop.annTimeout * logUnits (s.ptp n).stop.logAnnounce ≤ s.now))
  (hu : u = s.modPtp n fun p => { p with foreign := p.foreign.filter fun c => !stale c }) (hen : (s.ptp n).enable = true) (hup : s.portUp n = true)
include hstale hu hen hup

theorem execAnnounceTimeout_orphan (h : (s.ptp n).parent = none) : execAnnounceTimeout n s = .next (runBmca n true u) := by
  subst hu hstale
  simp only [execAnnounceTimeout, hen, hup, h, Bool.not_true, Bool.or_self, Bool.false_eq_true, if_false]

theorem execAnnounceTimeout_parent {m : ClockSet} (h : (s.ptp n).parent = some m) : execAnnounceTimeout n s
    = .next (if ((s.ptp n).foreign.any fun c => c.identity == m.identity && stale c) then runBmca n true u else s) := by
  subst hu hstale
  simp only [execAnnounceTimeout, hen, hup, h, Bool.not_true, Bool.or_self, Bool.false_eq_true, if_false]

end
end

/-! ### The order of data sets (R274) -/

theorem lexLt_cons {a b : Nat} {as_ bs : List Nat} : lexLt (a :: as_) (b :: bs) = true ↔ a < b ∨ (a = b ∧ lexLt as_ bs = true) := by
  rw [lexLt]
  split
  case isTrue hlt => exact iff_of_true rfl (.inl hlt)
  case isFalse hle =>
    split
    case isTrue hgt => exact iff_of_false Bool.false_ne_true (by omega)
    case isFalse hge =>
      have heq : a = b := by omega
      exact ⟨fun h => .inr ⟨heq, h⟩, fun h => h.elim (absurd · hle) And.right⟩

theorem lexLt_irrefl (l : List Nat) : lexLt l l = false := by
  induction l with
  | nil => rfl
  | cons a l ih => exact Bool.eq_false_iff.mpr fun h => (lexLt_cons.mp h).elim (Nat.lt_irrefl a) fun htail => Bool.eq_false_iff.mp ih htail.2

theorem lexLt_asymm {l k : List Nat} (h : lexLt l k = true) : lexLt k l = false := by
  induction l generalizing k with
  | nil => cases k <;> rfl
  | cons a l ih =>
    cases k with
    | nil => exact absurd h Bool.false_ne_true
    | cons b k =>
      refine Bool.eq_false_iff.mpr fun hback => ?_
      rcases lexLt_cons.mp h, lexLt_cons.mp hback with ⟨hlt | ⟨heq, htail⟩, hgt | ⟨heq', htail'⟩⟩
      · omega
      · omega
      · omega
      · exact Bool.eq_false_iff.mp (ih htail) htail'

end Sys2Proof.Machine

open Sys2Proof Sys2Proof.Machine

/-- Settles O34: a message by the first check it fails, a sample by the tests of `testSample`, a suspect master by `suspectVerdict`, what is sent and what ends
where its condition holds and where not, and the order of data sets as that of their keys. -/
theorem ptpMessagesAndTimers : Obligations.PtpMessagesAndTimers := by
  unfold Obligations.PtpMessagesAndTimers
  refine ⟨?_, ?_, fun i now => nextGrid_bounds, ?_, ?_, fun a b => ⟨lexLt_irrefl _, lexLt_asymm⟩⟩
  · rintro n dt m s type rfl
    refine ⟨congrArg _ (ptpRow_eq_ite (by simp)), congrArg _ (ptpRow_eq_ite (by simp)), congrArg _ (ptpRow_eq_ite (by simp)),
      congrArg _ (ptpRow_eq_ite (by simp)), ptpReceive_off, fun hen hup => ⟨ptpReceive_badHeader hen hup, ?_, ?_, ?_⟩, ptpSync_refused, ?_, ?_⟩
    · exact fun hok hown t ht hrecent => (ptpReceive_own hen hup hok hown).trans (ptpLooped_again ht hrecent)
    · exact fun hok hown hfirst u hu => (ptpReceive_own hen hup hok hown).trans (ptpLooped_first hfirst hu)
    · intro hok hother u ok hrate
      have hforeign := ptpReceive_foreign (dt := dt) hen hup hok hother
      refine ⟨fun h => hforeign.trans (ptpForeign_refused hrate h), fun hslow hcorr => ?_⟩
      have huse := hforeign.trans (ptpForeign_used hrate hslow hcorr)
      exact ⟨fun h => huse.trans (ptpUse_sync h), fun h => huse.trans (ptpUse_delayReq h), fun h => huse.trans (ptpUse_delayResp h),
        fun h => huse.trans (ptpUse_peer h), fun h => huse.trans (ptpUse_announce h)⟩
    · exact fun hslave hparent htype htwo => ptpSync_waits hslave hparent htype htwo
    · exact fun hslave hparent htype t2 c => ptpSync_pairs hslave hparent htype
  · rintro n dt fwd s p rfl
    refine ⟨takeSample_noPath, fun d o hpath ho => ⟨fun g => takeSample_window hpath, fun hwindow => takeSample_unpredicted hpath hwindow ho, ?_⟩⟩
    intro pred hwindow hpred
    have htest := takeSample_predicted hpath hwindow ho hpred
    exact ⟨fun h => htest.trans (testSample_suspect h), fun h hjump => htest.trans (testSample_jump h hjump),
      fun h hnear hrms hlock => htest.trans (testSample_outlier h hnear ⟨hrms, hlock⟩), fun h hnear hgood => htest.trans (testSample_used h hnear hgood)⟩
  · rintro n s p u rfl rfl
    refine ⟨fun h => ⟨execSyncSend_ignored h, execAnnounceSend_ignored h⟩, fun hmaster hup => congrArg _ (if_pos ⟨hmaster, hup⟩), ?_,
      execDelayReqSend_ignored, fun v hv => ⟨fun hen hup => execDelayReqSend_peer hen hup hv, fun hen hup => execDelayReqSend_slave hen hup hv⟩⟩
    rintro c hmaster hup rfl
    exact congrArg _ (if_pos ⟨hmaster, hup⟩)
  · rintro n s p rfl
    refine ⟨execSuspectMasterEnd_none, fun since r hsuspect => ⟨execSuspectMasterEnd_early hsuspect, ?_, ?_⟩, execPathWindowEnd_none, ?_,
      fun keep hkeep => ⟨execUntrustHoldEnd_ignored hkeep, execUntrustHoldEnd_ends hkeep⟩, execSyncReceiptTimeout_ignored,
      fun hslave hlocked hlate => execSyncReceiptTimeout_unlocks ⟨hslave, hlocked, hlate⟩, execAnnounceTimeout_off, ?_⟩
    · rintro hdue hkept hfix diffs j sp rfl rfl rfl
      have hverdict := execSuspectMasterEnd_due hsuspect hdue hkept
      exact ⟨fun h => hverdict.trans (congrArg _ (suspectVerdict_jumped hfix h)),
        fun h hlast => hverdict.trans (congrArg _ (suspectVerdict_distrusts hfix h hlast)),
        fun h hmore => hverdict.trans (congrArg _ (suspectVerdict_restarts hfix h hmore))⟩
    · intro g hdue hkept hfix
      have hverdict := (execSuspectMasterEnd_due hsuspect hdue hkept).trans (congrArg _ (suspectVerdict_gnss hfix))
      exact ⟨fun h => hverdict.trans (congrArg _ (if_pos h)), fun h => hverdict.trans (congrArg _ (if_neg h))⟩
    · exact fun since m0 held hwindow => ⟨execPathWindowEnd_early hwindow, fun hdue d hd =>
        ⟨fun hok hcount c => execPathWindowEnd_gnss hwindow hdue hd hok hcount, execPathWindowEnd_alone hwindow hdue hd⟩⟩
    · exact fun u stale hstale hu hen hup => ⟨execAnnounceTimeout_orphan hstale hu hen hup, fun m => execAnnounceTimeout_parent hstale hu hen hup⟩

end

section
/-! PROOFS. The Carafe: the commands of group 0x0B, triggers, the windows at their boundaries, the end of a replay, and event edges as triggers (R258, R291–R301). -/

namespace Sys2Proof.Machine
open Sys2Proof

/-! ### Commands (R297, R301) -/

section
variable {q : Qcp} {s : State}

/-- The ring goes back where a setting that only a stop may change moves it, and ARM takes its banks where none is placed (R290). -/
theorem carafeCfgCmd_effect {u v : State}
    (hu : u = if s.carafe.placed && !(carafeOf q).sameStop s.carafe.cfg then
      (s.freeBanks s.carafe.cfg.first s.carafe.cfg.banks).modCarafe fun k => { k with placed := false, slots := [], mixes := [] } else s)
    (hv : v = if q.u 0 1 == 1 && !u.carafe.placed then u.giveBanks (carafeOf q).first (carafeOf q).banks 0x16 .carafe else u) :
    carafeCfgCmd.effect q s = (v.modCarafe fun k => { k with
      cfg := carafeOf q, arm := k.arm.commit (q.u 0 1 == 1), placed := k.placed || q.u 0 1 == 1, freeReq := !(q.u 0 1 == 1)
      rates := if q.u 0 1 == 1 && !k.arm.committed && !k.anyHeld then (carafeOf q).streams.map fun n => (v.subband n).cfg.committed.rate
        else k.rates }, .ok []) := by
  rw [hv, hu]
  rfl

theorem carafeReleaseCmd_effect_held (h : (s.window (q.u 0 1)).held = true) :
    carafeReleaseCmd.effect q s = (s.modWindow (q.u 0 1) fun w => { w with release := true }, .ok []) :=
  congrArg (·, Reply.ok []) (if_pos h)

theorem carafeReleaseCmd_effect_free (h : (s.window (q.u 0 1)).held = false) : carafeReleaseCmd.effect q s = (s, .ok []) :=
  congrArg (·, Reply.ok []) (if_neg (Bool.eq_false_iff.mp h))

theorem carafeReadCmd_effect {k : Nat} (h : histSlotOf s (q.u 4 8) = some k) :
    carafeReadCmd.effect q s = (s, .ok (s.memRead (histTagAddr s k (q.u 1 1)) 16
      ++ s.memRead (histDataAddr s k (q.u 1 1) + q.u 12 4) (min 4000 (histStreamBytes s (q.u 1 1) - q.u 12 4)))) := by
  simp only [carafeReadCmd, h]

/-- OFFSET counts from the beat of the commit, LEAD later, to the window's first beat (R297). -/
theorem carafeReplayCmd_effect {plans : List (List Byte)} {u : State} {ns : List Nat}
    (h : (u, ns) = placeEntries (q.u 0 1) (s.window (q.u 0 1)).first (BitVec.ofNat 32 (q.u 4 4)) plans s) :
    (carafeReplayCmd plans).effect q s = ((u.modWindow (q.u 0 1) fun v => { v with state := .replaying }).modCarafe fun c =>
      { c with replay := some (Replay.mk (q.u 0 1) (q.u 1 1 == 1) (BitVec.ofNat 32 (q.u 4 4))
          (((u.time.beat + q.u 2 2 : Nat) : Int) - (s.window (q.u 0 1)).first) ns) }, .ok []) := by
  simp only [carafeReplayCmd, carafeReplay, ← h]

end

/-! ### Triggers (R292–R294) -/

theorem State.carafeEvent_only (s : State) (w kind source : Nat) : Only s (s.carafeEvent w kind (some source)) := State.notify_only ..

section
variable {s : State} {bit at_ bt w : Nat}

theorem State.carafeTrigger_ignored (h : s.carafe.arm.inForce = false ∨ bitOf s.carafe.cfg.mask bit = false) : s.carafeTrigger bit at_ = s :=
  if_pos (by rwa [Bool.or_eq_true, Bool.not_eq_true', Bool.not_eq_true'])

theorem openWindow_full (h : ∀ w, w < 8 → (s.window w).held = true) : openWindow s bit at_ bt = dropTrigger s bit := by
  have hnone : ((List.range 8).find? fun w => !(s.window w).held) = none :=
    List.find?_eq_none.mpr fun w hw => by simp [h w (List.mem_range.mp hw)]
  simp only [openWindow, hnone]

theorem openWindow_noSlots (hfree : ((List.range 8).find? fun w => !(s.window w).held) = some w)
    (hslots : slotsLeft s (bt + s.carafe.cfg.post + 1 - windowStart s bt) = false) : openWindow s bit at_ bt = dropTrigger s bit := by
  simp only [openWindow, hfree]
  exact if_pos (.inr (.inr (by rw [hslots, Bool.not_false])))

/-- No window was opened in this tick, and window `w` is the first FILLING one that holds the trigger's beat. -/
theorem State.carafeTrigger_extends (harmed : s.carafe.arm.inForce = true) (hmask : bitOf s.carafe.cfg.mask bit = true)
    (hnew : ∀ w, w < 8 → ¬((s.window w).state = .filling ∧ (s.window w).trigNow = s.now))
    (hmeets : ((List.range 8).find? fun w => decide ((s.window w).state = .filling) && (s.window w).has (at_ / beatUnits)) = some w)
    {last : Nat} (hlast : last = max (s.window w).last (at_ / beatUnits + s.carafe.cfg.post)) (hroom : (s.window w).triggers.length < 8)
    (hlength : last + 1 - (s.window w).first ≤ 60000) (hslots : slotsLeft s (last - (s.window w).last) = true) :
    s.carafeTrigger bit at_ = (s.modWindow w fun v => { v with last := last, triggers := v.triggers ++ [bit] }).carafeEvent w 2 (some bit) := by
  have hnone : ((List.range 8).find? fun w => decide ((s.window w).state = .filling ∧ (s.window w).trigNow = s.now)) = none :=
    List.find?_eq_none.mpr fun w hw => by simpa only [decide_eq_true_eq] using hnew w (List.mem_range.mp hw)
  have hfits : ¬(8 ≤ (s.window w).triggers.length ∨ 60000 < last + 1 - (s.window w).first ∨ (!slotsLeft s (last - (s.window w).last)) = true) := by
    rw [hslots]
    simp only [Bool.not_true, Bool.false_eq_true, or_false]
    omega
  subst hlast
  refine (if_neg (by rw [harmed, hmask]; exact Bool.false_ne_true)).trans ?_
  simp only [hnone, hmeets]
  exact if_neg hfits

end

/-! ### The windows at their boundaries (R293, R295) -/

section
variable {s : State} {w : Nat}

theorem execWindowFrozen_freezes (hlive : s.live = true) (hfilling : (s.window w).state = .filling) (hover : (s.window w).last < s.time.beat) :
    execWindowFrozen w s = .next ((s.modWindow w fun v => { v with state := .frozen }).carafeEvent w 3 none) :=
  congrArg Host.Outcome.next ((if_pos hlive).trans (if_pos ⟨hfilling, hover⟩))

theorem execWindowFrozen_ignored (h : ¬(s.live = true ∧ (s.window w).state = .filling ∧ (s.window w).last < s.time.beat)) :
    execWindowFrozen w s = .next s := by
  refine congrArg Host.Outcome.next ?_
  split
  next hlive => exact if_neg fun hdue => h ⟨hlive, hdue⟩
  next => rfl

theorem releaseWindow_eq_ite (w : Nat) (s : State) :
    releaseWindow w s = if (s.window w).held = true ∧ (s.window w).release = true ∧ (s.window w).state ≠ .replaying
      then ((failWindow w s).modWindow w fun _ => HistWindow.reset).carafeEvent w 5 none else s := by
  simp only [releaseWindow, Bool.and_eq_true, decide_eq_true_eq, and_assoc]

theorem execWindowRelease_frees (hlive : s.live = true) (htick : s.time.tick = 0) (hheld : (s.window w).held = true)
    (hasked : (s.window w).release = true) (hidle : (s.window w).state ≠ .replaying) :
    execWindowRelease w s = .next (((failWindow w s).modWindow w fun _ => HistWindow.reset).carafeEvent w 5 none) :=
  congrArg Host.Outcome.next ((if_pos ⟨hlive, htick⟩).trans ((releaseWindow_eq_ite w s).trans (if_pos ⟨hheld, hasked, hidle⟩)))

theorem execWindowRelease_ignored (h : ¬(s.live = true ∧ s.time.tick = 0 ∧ (s.window w).held = true ∧ (s.window w).release = true ∧
    (s.window w).state ≠ .replaying)) : execWindowRelease w s = .next s := by
  refine congrArg Host.Outcome.next ?_
  split
  next hnow =>
    obtain ⟨hlive, htick⟩ := hnow
    exact (releaseWindow_eq_ite w s).trans (if_neg fun hdue => h ⟨hlive, htick, hdue⟩)
  next => rfl

end

/-! ### The end of a replay (R297–R299) -/

section
variable {fix : Option NavFix} {n : Nat} {s : State}

theorem replayDone_ignored (h : s.carafe.replay = none ∨ s.live = false) : replayDone fix n s = s := by
  unfold replayDone
  split
  next => rfl
  next r hr =>
    have hoff : s.live = false := h.resolve_left (by rw [hr]; exact Option.some_ne_none r)
    exact if_pos (by rw [hoff]; rfl)

section
variable {r : Replay} (hr : s.carafe.replay = some r)
include hr

theorem replayDone_early (h : replayOver r s = false) : replayDone fix n s = s := by
  simp only [replayDone, hr]
  exact if_pos (by rw [h, Bool.not_false, Bool.or_true])

section
variable (hlive : s.live = true) (hover : replayOver r s = true)
include hlive hover

theorem replayDone_noFix : replayDone none n s = replayNone r 1 (stopWindow r.window s) := by
  simp only [replayDone, hr, hlive, hover, Bool.not_true, Bool.or_self, Bool.false_eq_true, if_false]

section
variable {f : NavFix}

theorem replayDone_fewSats (h : enoughSats f.used = false) : replayDone (some f) n s = replayNone r 1 (stopWindow r.window s) := by
  simp only [replayDone, hr, hlive, hover, h, Bool.not_true, Bool.not_false, Bool.or_self, Bool.false_eq_true, if_false, if_true]

/-- Without SEAL the record is compared with the window's stored one, and reported. -/
theorem replayDone_resolved (h : enoughSats f.used = true) {u v : State} {rec : NavRec} {old : NavRec} (hu : u = stopWindow r.window s)
    (hrec : (v, rec) = resolvedRecord ((u.window r.window).trigBeat + 1) f n u) (hold : (v.window r.window).live = some old)
    (hunsealed : r.sealIt = false) :
    replayDone (some f) n s = (endReplay r.window v).notify 0x8B20 (replayHead v r.window 0 f.used.length
      (agrees (horizDist rec.pos (propagated old (dtAt ((u.window r.window).trigBeat + 1) 0))) old rec)
      (min 0xFFFFFFFF (roundRat (horizDist rec.pos (propagated old (dtAt ((u.window r.window).trigBeat + 1) 0)) / 100)).toNat) 0 ++ rec.bytes) := by
  subst hu
  simp only [replayDone, hr, hlive, hover, h, ← hrec, hold, hunsealed, Bool.not_true, Bool.or_self, Bool.false_eq_true, if_false]

end
end
end
end

/-! ### Event edges (R258, R292) -/

section
variable {n pin : Nat} {up b : Bool} {s : State}

theorem execEventCapture_ignored (h : ¬(s.live = true ∧ s.on 13 = true)) : execEventCapture n up pin b s = .next s :=
  if_neg (by rwa [Bool.and_eq_true])

theorem execEventCapture_eq_ite (hlive : s.live = true) (hon : s.on 13 = true) :
    execEventCapture n up pin b s = .next (capture n up pin b
      (if n = s.carafe.cfg.evSel ∧ bitOf s.carafe.cfg.evEdge (if up then 0 else 1) = true
        then s.carafeTrigger 1 ((pin : Int) - (s.ev n).cable).toNat else s)) := by
  simp only [execEventCapture, hlive, hon, Bool.and_self, if_true, Bool.and_eq_true, beq_iff_eq]

theorem execEventCapture_triggers (hlive : s.live = true) (hon : s.on 13 = true)
    (h : n = s.carafe.cfg.evSel ∧ bitOf s.carafe.cfg.evEdge (if up then 0 else 1) = true) :
    execEventCapture n up pin b s = .next (capture n up pin b (s.carafeTrigger 1 ((pin : Int) - (s.ev n).cable).toNat)) :=
  (execEventCapture_eq_ite hlive hon).trans (by rw [if_pos h])

theorem execEventCapture_captures (hlive : s.live = true) (hon : s.on 13 = true)
    (h : ¬(n = s.carafe.cfg.evSel ∧ bitOf s.carafe.cfg.evEdge (if up then 0 else 1) = true)) :
    execEventCapture n up pin b s = .next (capture n up pin b s) :=
  (execEventCapture_eq_ite hlive hon).trans (by rw [if_neg h])

end

end Sys2Proof.Machine

open Sys2Proof Sys2Proof.Machine

/-- Settles O32: each command by the equation of its effect, a trigger by the case it meets, the windows and a replay's end by what they do where their condition
holds and where it does not. -/
theorem carafeCommandsAndEvents : Obligations.CarafeCommandsAndEvents := by
  unfold Obligations.CarafeCommandsAndEvents
  refine ⟨fun q s => ⟨?_, fun h => runHost_effect h rfl, fun h => runHost_effect h rfl, fun h => ⟨fun hheld => ?_, fun hfree => ?_⟩, ?_, ?_⟩,
    fun s bit at_ => ⟨State.carafeTrigger_ignored, fun bt => openWindow_full, fun bt w => openWindow_noSlots, ?_, State.carafeEvent_only s⟩,
    fun s w => ⟨execWindowFrozen_freezes, execWindowFrozen_ignored, execWindowRelease_frees, execWindowRelease_ignored⟩,
    fun fix n s => ⟨fun h => congrArg Host.Outcome.next (replayDone_ignored h), fun r hr hlive => ⟨fun h => congrArg Host.Outcome.next (replayDone_early hr h), ?_⟩⟩,
    fun n up pin b s => ⟨execEventCapture_ignored, fun hlive hon => ⟨execEventCapture_triggers hlive hon, execEventCapture_captures hlive hon⟩⟩⟩
  · rintro h c arm u v rfl rfl hu hv
    exact runHost_effect h (carafeCfgCmd_effect hu hv)
  · exact runHost_effect h (carafeReleaseCmd_effect_held hheld)
  · exact runHost_effect h (carafeReleaseCmd_effect_free hfree)
  · exact fun h k hk => runHost_effect h (carafeReadCmd_effect hk)
  · exact fun plans u ns h hplaced => runHost_effect h (carafeReplayCmd_effect hplaced)
  · exact fun w harmed hmask hnew hmeets last => State.carafeTrigger_extends harmed hmask hnew hmeets
  · rintro hover u rfl
    refine ⟨?_, ?_, ?_⟩
    · rintro rfl
      exact congrArg Host.Outcome.next (replayDone_noFix hr hlive hover)
    · rintro f rfl hfew
      exact congrArg Host.Outcome.next (replayDone_fewSats hr hlive hover hfew)
    · rintro f v rec old rfl henough hrec hold hunsealed
      exact congrArg Host.Outcome.next (replayDone_resolved hr hlive hover henough rfl hrec hold hunsealed)

end

section
/-! PROOFS. What every step does to the queue and to the OTP: one lemma per effect of `Effect` (R314, R356, R476, R502). -/

namespace Sys2Proof.Machine
open Sys2Proof

/-! ### The queue -/

theorem Cut.pending_eq {s t : State} (h : Cut s t) : t.pending = s.pending := by
  obtain ⟨-, -, -, -, hp⟩ := h
  exact hp

/-- No effect that a step can have writes the queue. -/
theorem Effect.pending_eq {s t : State} (e : Effect s t) : t.pending = s.pending := by
  cases e with
  | same hk => exact pending_of_keep hk
  | tick hk => exact (pending_of_keep hk).trans (State.advance_pending s)
  | beat hk => exact (pending_of_keep hk).trans (State.toNextBeat_pending s)
  | down hd => exact hd.1.pending_eq
  | booted hb =>
    obtain ⟨-, -, -, -, -, -, hp, -⟩ := hb
    exact hp
  | commit n hk => exact congrArg Prod.fst hk
  | port ir hk => exact congrArg Prod.fst hk
  | key p k hk hp => exact congrArg Prod.fst hk
  | blown p hk hb hp => exact congrArg Prod.fst hk
  | cut hc hb hi => exact hc.pending_eq

/-! ### The OTP -/

/-- What a step may do to the one-time programmable state and to the DT epoch ID. -/
def OtpRises (s t : State) : Prop :=
  OtpOk t ∧ s.nv.rk1 &&& ~~~t.nv.rk1 = 0 ∧ (s.nv.rk1Done = true → t.nv.rk1Done = true ∧ t.nv.rk1 = s.nv.rk1)
    ∧ s.nv.rollback ≤ t.nv.rollback ∧ s.nv.epoch.toNat ≤ t.nv.epoch.toNat

theorem nextEpoch_ge (e : BitVec 32) : e.toNat ≤ (nextEpoch e).toNat := by
  unfold nextEpoch
  split
  · exact Nat.le_refl _
  · bv_omega

theorem and_not_or (v w : BitVec 256) : v &&& ~~~(v ||| w) = 0 := by
  ext i hi
  simp +contextual

/-- The parts of the bundle that the OTP and the epoch are. -/
theorem otp_of_keep {s t : State} (h : t.keep = s.keep) : t.nv.rk1 = s.nv.rk1 ∧ t.nv.rk1Done = s.nv.rk1Done ∧ t.nv.rk1Open = s.nv.rk1Open
    ∧ t.nv.rollback = s.nv.rollback ∧ t.nv.epoch = s.nv.epoch ∧ t.tap = s.tap := by
  simp only [State.keep, Prod.mk.injEq] at h
  obtain ⟨-, -, hepoch, ⟨hrk1, hdone, hopen, hroll⟩, htap⟩ := h
  exact ⟨hrk1, hdone, hopen, hroll, hepoch, htap⟩

/-- A step that leaves RK1 and its marks, lowers neither count, and shows no programming that was not shown. -/
theorem OtpRises.of_same_key {s t : State} (h : OtpOk s) (hrk1 : t.nv.rk1 = s.nv.rk1) (hdone : t.nv.rk1Done = s.nv.rk1Done)
    (hopen : t.nv.rk1Open = s.nv.rk1Open) (hroll : s.nv.rollback ≤ t.nv.rollback) (hepoch : s.nv.epoch.toNat ≤ t.nv.epoch.toNat)
    (htap : t.tap.prov = 1 → s.tap.prov = 1 ∧ t.tap.key = s.tap.key) : OtpRises s t := by
  obtain ⟨hprog, hblank⟩ := h
  refine ⟨⟨fun hp => ?_, ?_⟩, ?_, fun h => ⟨hdone.trans h, hrk1⟩, hroll, hepoch⟩
  · obtain ⟨hs, hkey⟩ := htap hp
    rw [hrk1, hdone, hkey]
    exact hprog hs
  · rwa [hrk1, hdone, hopen]
  · rw [hrk1]
    exact BitVec.and_not_self _

theorem OtpRises.of_keep {s t : State} (h : OtpOk s) (hk : t.keep = s.keep) : OtpRises s t := by
  obtain ⟨hrk1, hdone, hopen, hroll, hepoch, htap⟩ := otp_of_keep hk
  exact .of_same_key h hrk1 hdone hopen hroll.ge (by rw [hepoch]) fun hp => by rw [htap] at hp ⊢; exact ⟨hp, rfl⟩

/-- DT moves on; of what the OTP is nothing changes, and the epoch only rises. -/
theorem OtpRises.of_addDt {s u t : State} {n : Nat} (hk : t.keep = (u.addDt n).keep) (h : OtpOk s) (hu : u.nv = s.nv) (htap : u.tap = s.tap) : OtpRises s t := by
  obtain ⟨-, hnv, -, htap'⟩ := State.addDt_moves u n
  obtain ⟨hrk1, hdone, hopen, hroll, hepoch, htap''⟩ := otp_of_keep hk
  rw [hnv, hu] at hrk1 hdone hopen hroll hepoch
  refine .of_same_key h hrk1 hdone hopen hroll.ge ?_ fun hp => ?_
  · rw [hepoch]
    exact ite_cases (s.nv.epoch.toNat ≤ BitVec.toNat ·) _ (nextEpoch_ge _) (Nat.le_refl _)
  · rw [htap'', htap', htap] at hp ⊢
    exact ⟨hp, rfl⟩

/-- A programming that is cut off has blown bits of its key alone, and no marker. -/
theorem OtpRises.of_cut {s t : State} (h : OtpOk s) (hc : Cut s t) (hp : t.tap.prov ≠ 1) : OtpRises s t := by
  obtain ⟨hkey, hdone, hroll, hepoch, -⟩ := hc
  rcases hkey with ⟨hrk1, hopen, -⟩ | ⟨hs, hopen, m, hrk1⟩
  · exact .of_same_key h hrk1 hdone hopen hroll.ge (by rw [hepoch]) fun hp' => absurd hp' hp
  · obtain ⟨-, hnot⟩ := h.1 hs
    refine ⟨⟨fun hp' => absurd hp' hp, fun _ hclosed => ?_⟩, ?_, fun hd => ?_, hroll.ge, by rw [hepoch]⟩
    · rw [hopen] at hclosed
      cases hclosed
    · rw [hrk1, and_not_or]
    · rw [hnot] at hd
      cases hd

/-- A key that is taken agrees with the bits that an earlier programming of it has blown (R502). -/
theorem OtpRises.of_key {s t : State} (h : OtpOk s) (p : Nat) (k : BitVec 256)
    (hk : t.keep = (s.pending, s.instant, s.nv.epoch, (s.nv.rk1, s.nv.rk1Done, s.nv.rk1Open, s.nv.rollback), ⟨0xA0, p, k⟩))
    (hp : p = 1 → s.nv.rk1Done = false ∧ (s.nv.rk1Open = true → s.nv.rk1 &&& ~~~k = 0)) : OtpRises s t := by
  simp only [State.keep, Prod.mk.injEq] at hk
  obtain ⟨-, -, hepoch, ⟨hrk1, hdone, hopen, hroll⟩, htap⟩ := hk
  obtain ⟨-, hblank⟩ := h
  refine ⟨⟨fun hp' => ?_, ?_⟩, ?_, fun hd => ⟨hdone.trans hd, hrk1⟩, hroll.ge, by rw [hepoch]⟩
  · rw [htap] at hp' ⊢
    obtain ⟨hnot, hbits⟩ := hp hp'
    rw [hrk1, hdone]
    refine ⟨?_, hnot⟩
    cases hs : s.nv.rk1Open with
    | true => exact hbits hs
    | false =>
      rw [hblank hnot hs]
      exact BitVec.zero_and
  · rwa [hrk1, hdone, hopen]
  · rw [hrk1]
    exact BitVec.and_not_self _

/-- Programming ends with RK1 equal to its key and the marker blown (R502). -/
theorem OtpRises.of_blown {s t : State} (h : OtpOk s) (p : Nat)
    (hk : t.keep = (s.pending, s.instant, s.nv.epoch, (s.tap.key, true, false, s.nv.rollback), { s.tap with prov := p })) (hb : s.tap.prov = 1) (hp : p ≠ 1) :
    OtpRises s t := by
  simp only [State.keep, Prod.mk.injEq] at hk
  obtain ⟨-, -, hepoch, ⟨hrk1, hdone, -, hroll⟩, htap⟩ := hk
  obtain ⟨hbits, hnot⟩ := h.1 hb
  refine ⟨⟨fun hp' => ?_, fun hd => ?_⟩, ?_, fun hd => ?_, hroll.ge, by rw [hepoch]⟩
  · rw [htap] at hp'
    exact absurd hp' hp
  · rw [hdone] at hd
    cases hd
  · rwa [hrk1]
  · rw [hnot] at hd
    cases hd

/-- Whatever a step does to the bundle of `State.keep`, the OTP and the epoch only rise. -/
theorem Effect.otpRises {s t : State} (e : Effect s t) (h : OtpOk s) : OtpRises s t := by
  cases e with
  | same hk => exact .of_keep h hk
  | tick hk =>
    rw [State.advance_addDt] at hk
    exact .of_addDt hk h rfl rfl
  | beat hk => exact .of_addDt hk h rfl rfl
  | down hd =>
    obtain ⟨hc, -, htap⟩ := hd
    exact .of_cut h hc (by rw [htap]; decide)
  | booted hb =>
    obtain ⟨-, hepoch, hrk1, hdone, hopen, hroll, -, htap⟩ := hb
    exact .of_same_key h hrk1 hdone hopen hroll.ge (by rw [hepoch]; exact nextEpoch_ge _) fun hp => absurd hp htap
  | commit n hk =>
    simp only [State.keep, Prod.mk.injEq] at hk
    obtain ⟨-, -, hepoch, ⟨hrk1, hdone, hopen, hroll⟩, htap⟩ := hk
    refine .of_same_key h hrk1 hdone hopen (by rw [hroll]; exact Nat.le_max_left ..) (by rw [hepoch]) fun hp => ?_
    rw [htap] at hp ⊢
    exact ⟨hp, rfl⟩
  | port ir hk =>
    simp only [State.keep, Prod.mk.injEq] at hk
    obtain ⟨-, -, hepoch, ⟨hrk1, hdone, hopen, hroll⟩, htap⟩ := hk
    refine .of_same_key h hrk1 hdone hopen hroll.ge (by rw [hepoch]) fun hp => ?_
    rw [htap] at hp ⊢
    exact ⟨hp, rfl⟩
  | key p k hk hp => exact .of_key h p k hk hp
  | blown p hk hb hp => exact .of_blown h p hk hb hp
  | cut hc hb _ => exact .of_cut h hc hb

/-- Every step has one of the effects of `Effect`. -/
theorem step_effect {s t : State} (hs : step s = .next t) : ∃ cs, Effect { s with pending := cs } t := by
  cases hp : s.pending with
  | nil =>
    rw [step_nil hp] at hs
    cases hs
    exact ⟨s.pending, idleTick_effect s⟩
  | cons c cs =>
    rw [step_cons hp] at hs
    obtain ⟨u, hu, he⟩ := exec_effect c { s with pending := cs }
    cases hu.symm.trans hs
    exact ⟨cs, he⟩

end Sys2Proof.Machine

open Sys2Proof Sys2Proof.Machine

/-- Settles O6: every command answers a next state, and none of the effects it can have writes the queue. -/
theorem everyCommandCompletesAndKeepsQueue : Obligations.EveryCommandCompletesAndKeepsQueue := by
  unfold Obligations.EveryCommandCompletesAndKeepsQueue
  intro c s
  obtain ⟨t, ht, he⟩ := exec_effect c s
  exact ⟨t, ht, he.pending_eq⟩

/-- Settles O7: every effect that a step can have lets the OTP and the epoch only rise. -/
theorem otpInvariant : Obligations.OtpInvariant := by
  unfold Obligations.OtpInvariant
  refine ⟨by unfold OtpOk; decide, fun s t h hs => ?_⟩
  obtain ⟨cs, he⟩ := step_effect hs
  exact he.otpRises h

/-- Settles O1, by the equation of the step on a queue with a front. -/
theorem stepRunsFrontCommand : Obligations.StepRunsFrontCommand := by
  unfold Obligations.StepRunsFrontCommand
  exact ⟨fun c s => step_cons rfl, fun c cs s hp => step_cons hp, fun s n w => rfl⟩
end

section
/-! PROOFS. The command pipeline, the commands of sessions and transports, and the events of the transports (R307–R324). -/

namespace Sys2Proof.Machine
open Sys2Proof

/-! ### Sessions and transports alone -/

theorem State.send_transports (s : State) (t : Nat) (x : OutItem) : ∃ ts, s.send t x = { s with transports := ts } := by
  unfold State.send
  split
  · exact ⟨_, rfl⟩
  · exact ⟨_, rfl⟩

/-! ### Step 1 to 4 of R314 -/

section
variable (c : HostCmd) {q : Qcp} {s : State} {e : Session}

theorem runHost_notReceived (h : s.receives q = false) : runHost c q s = .next s := by
  simp only [runHost, processFrame, h, Bool.false_eq_true, if_false]

theorem runHost_badHeader {r : Reply} (hrec : s.receives q = true) (h : headerFault q = some r) : runHost c q s = .next (s.reply q (q.frame c.opcode r)) := by
  simp only [runHost, processFrame, hrec, h, if_true]

theorem runHost_otherSession (hrec : s.receives q = true) (hhead : headerFault q = none) (h : sessionInRange q = false) :
    runHost c q s = .next (s.reply q (q.frame c.opcode (.priv c.priv 0xFF))) := by
  simp only [runHost, processFrame, hrec, hhead, h, Bool.not_false, if_true]

theorem headerFault_ver (h : q.ver ≠ 1) : headerFault q = some (.range (-8)) := if_pos h

theorem headerFault_kind (hver : q.ver = 1) (h : 16 ≤ q.sess.toNat) : headerFault q = some (.range (-7)) := by
  have hkind : q.sess.toNat / 16 ≠ 0 := by omega
  simp only [headerFault, hver, ne_eq, not_true_eq_false, if_false, hkind, not_false_eq_true, if_true]

theorem headerFault_flg (hver : q.ver = 1) (hkind : q.sess.toNat < 16) (h : q.flg ≠ 0) : headerFault q = some (.range (-2)) := by
  simp only [headerFault, hver, ne_eq, not_true_eq_false, if_false, Nat.div_eq_of_lt hkind, h, not_false_eq_true, if_true]

theorem headerFault_stat (hver : q.ver = 1) (hkind : q.sess.toNat < 16) (hflg : q.flg = 0) (h : q.stat ≠ 0) : headerFault q = some (.range (-1)) := by
  simp only [headerFault, hver, hflg, ne_eq, not_true_eq_false, if_false, Nat.div_eq_of_lt hkind, h, not_false_eq_true, if_true]

theorem sessionInRange_eq_false (h : q.transport = 10 ∧ q.session ≠ 15 ∨ q.transport ≠ 10 ∧ q.session = 15) : sessionInRange q = false := by
  unfold sessionInRange
  rcases h with ⟨ht, hs⟩ | ⟨ht, hs⟩
  · simp [ht, hs]
  · simp [ht, hs]

/-- The frame has passed steps 1 and 2 of R314: it reaches its session, and its command is one of the sequenced ones. -/
structure ReachesSession (c : HostCmd) (q : Qcp) (e : Session) (s : State) : Prop where
  received : s.receives q = true
  header : headerFault q = none
  range : sessionInRange q = true
  session : s.sessions[q.session]? = some e
  sequenced : c.unsequenced = false

variable {c}

theorem ReachesSession.runHost_eq (h : ReachesSession c q e s) : runHost c q s =
    if e.binding ≠ some q.binding ∨ e.history = 2 then .next (s.reply q (q.frame c.opcode .state))
    else .next (Machine.sequenced c.opcode (fun held s => c.run q held s) q e s) := by
  obtain ⟨hrec, hhead, hrange, hs, hseq⟩ := h
  simp only [runHost, processFrame, hrec, hhead, hrange, hs, hseq, Bool.not_true, Bool.false_eq_true, if_false, if_true]
  exact apply_ite Host.Outcome.next _ _ _

theorem ReachesSession.runHost_refused (h : ReachesSession c q e s) (hb : e.binding ≠ some q.binding ∨ e.history = 2) :
    runHost c q s = .next (s.reply q (q.frame c.opcode .state)) := by
  rw [h.runHost_eq, if_pos hb]

theorem ReachesSession.runHost_sequenced (h : ReachesSession c q e s) (hb : e.binding = some q.binding) (hh : e.history ≠ 2) :
    runHost c q s = .next (Machine.sequenced c.opcode (fun held s => c.run q held s) q e s) := by
  rw [h.runHost_eq, if_neg (by simp [hb, hh])]

/-- A new command whose checks fail is recorded with that error and has no other effect (R322). -/
theorem sequenced_failing {r : Reply} (hseq : c.unsequenced = false) (hnew : e.classify q.seq = .new) (hlen : e.running.length < 4) (hcount : s.runningCount < 32)
    (hr : c.check q e.priv s = some r) : sequenced c.opcode (fun held s => c.run q held s) q e s = c.answer q s r := by
  have hroom : ¬(4 ≤ e.running.length ∨ 32 ≤ s.runningCount) := by omega
  simp only [sequenced, hnew, hroom, HostCmd.run, hr, HostCmd.answer, hseq, Bool.false_eq_true, if_false]

theorem sequenced_full {opc : Nat} {run : Nat → State → State × Reply} (hnew : e.classify q.seq = .new) (h : 4 ≤ e.running.length ∨ 32 ≤ s.runningCount) :
    sequenced opc run q e s = s.reply q (q.frame opc (.busy 1)) := by
  simp only [sequenced, hnew, h, if_true]

end

/-! ### Commands of sessions and transports -/

section
variable {q : Qcp} {s : State}

/-- A command that its session's range lets through is processed alike whatever privilege a refusal would name. -/
theorem processFrame_priv {opc p r : Nat} {un : Bool} {run : Nat → State → State × Reply} (h : sessionInRange q = true) :
    processFrame opc p un run q s = processFrame opc r un run q s := by
  unfold processFrame
  simp only [h, Bool.not_true, Bool.false_eq_true, if_false]

theorem sessionInRange_of_admits {c : HostCmd} (h : admits c q s = true) : sessionInRange q = true := by
  unfold admits at h
  simp only [Bool.and_eq_true] at h
  exact h.1.2

theorem execUndefinedOpcode_admits {opc : BitVec 16} (hopc : definedOpcodes.contains opc.toNat = false) (h : admits (undefinedCmd opc.toNat) q s = true) :
    execUndefinedOpcode opc q s = .next ((undefinedCmd opc.toNat).answer q s ⟨stBadOpcode, []⟩) := by
  unfold execUndefinedOpcode
  rw [hopc, if_neg Bool.false_ne_true, processFrame_priv (sessionInRange_of_admits h) (r := (undefinedCmd opc.toNat).priv)]
  exact runHost_effect h rfl

/-- The state in which SESSION_OPEN has told the binding that it takes the session from (R313). -/
def State.rebound (s : State) (q : Qcp) : State :=
  if boundElsewhere q (s.session q.session) then s.sessionEvent q.session 1 q.transport (q.u 0 1) else s

/-- The session as SESSION_OPEN leaves it (R313, R318). -/
def Session.openedBy (q : Qcp) (e : Session) : Session :=
  { e with binding := some q.binding, priv := q.u 0 1, mask := BitVec.ofNat 32 (q.u 4 4)
           last := if bitOf (q.u 1 1) 1 then 0 else e.last, executed := if bitOf (q.u 1 1) 1 then 0 else e.executed
           history := if bitOf (q.u 1 1) 1 then 0 else e.history, cache := if bitOf (q.u 1 1) 1 then [] else e.cache }

theorem sessionOpen_opens {t : State} (ht : t = (s.rebound q).modSession q.session (Session.openedBy q)) :
    sessionOpen q s = (t, .ok (u8 (t.session q.session).priv ++ u8 (t.session q.session).history
      ++ leBytes 2 (t.session q.session).last.toNat ++ leBytes 8 (t.session q.session).executed.toNat)) := by
  have hopen : (fun e : Session =>
      if bitOf (q.u 1 1) 1 then { e with binding := some q.binding, priv := q.u 0 1, mask := BitVec.ofNat 32 (q.u 4 4), last := 0, executed := 0, history := 0, cache := [] }
      else { e with binding := some q.binding, priv := q.u 0 1, mask := BitVec.ofNat 32 (q.u 4 4) }) = Session.openedBy q := by
    funext e
    unfold Session.openedBy
    cases bitOf (q.u 1 1) 1
    · rfl
    · rfl
  rw [← hopen] at ht
  rw [ht]
  rfl

end

/-! ### Events of the transports -/

section
variable {s : State} {t : Nat}

/-- Changes of one transport that leave its ENABLE leave it up. -/
theorem State.transportUp_modAt (f : Transport → Transport) (hf : ∀ r, (f r).enable = r.enable) :
    ({ s with transports := modAt s.transports t f } : State).transportUp t = s.transportUp t := by
  unfold State.transportUp modAt State.live State.on
  dsimp only
  rw [List.getElem?_modify_eq]
  cases s.transports[t]? with
  | none => rfl
  | some r => exact congrArg (fun b => _ && b) (hf r)

/-- Discarding what arrived and sending a NAK is one change of the transport (R309). -/
theorem State.nak_discarding (dst : Endpoint) (cause : Nat) (hup : s.transportUp t = true) :
    ({ s with transports := modAt s.transports t fun r => { r with rx := [] } } : State).nak t dst cause
      = { s with transports := modAt s.transports t fun r =>
          ({ r with rx := [], nakCount := (r.nakCount + 1) % 256 } : Transport).queue ⟨dst, .nak cause ((r.nakCount + 1) % 256)⟩ } := by
  have hup' := (State.transportUp_modAt (fun r => { r with rx := [] }) fun _ => rfl).trans hup
  exact (if_pos hup').trans (congrArg (fun ts => { s with transports := ts }) (modAt_modAt ..))

theorem isEth_iff {t : Nat} : isEth t = true ↔ t = 8 ∨ t = 9 := by
  simp [isEth]

theorem execQcpFrameRejected_up (ep : Endpoint) (cause : FrameFault) (hup : s.transportUp t = true) :
    execQcpFrameRejected t ep cause s = .next { s with transports := modAt s.transports t fun r =>
      ({ r with rx := [], nakCount := (r.nakCount + 1) % 256 } : Transport).queue (OutItem.mk
        (if t = 8 ∨ t = 9 then ep else .zero) (.nak (match cause with | .crc => 1 | .length => 2 | .overflow => 4) ((r.nakCount + 1) % 256))) } := by
  have hdst : (if isEth t then ep else .zero) = if t = 8 ∨ t = 9 then ep else .zero := by simp only [isEth_iff]
  unfold execQcpFrameRejected
  rw [if_pos hup, hdst]
  exact congrArg Host.Outcome.next (State.nak_discarding _ _ hup)

theorem execGapTimeout_partial (ht : t ≤ 7) (hup : s.transportUp t = true) (hrx : (s.transport t).rx ≠ []) :
    execGapTimeout t s = .next { s with transports := modAt s.transports t fun r =>
      ({ r with rx := [], nakCount := (r.nakCount + 1) % 256 } : Transport).queue (OutItem.mk .zero (.nak 3 ((r.nakCount + 1) % 256))) } := by
  unfold execGapTimeout
  rw [if_pos ⟨ht, hrx⟩, State.nak_discarding _ _ hup]

theorem State.reportLost_room {i : Nat} {e : Session} {b : Binding} (he : s.sessions[i]? = some e) (hb : e.binding = some b) (hlost : e.lostPending ≠ 0)
    (hroom : s.noticeRoom i b.transport 24 = true) : s.reportLost i
      = (s.modSession i fun e => { e with noticeSeq := e.noticeSeq + 1, lostPending := 0 }).send b.transport ⟨b.ep, .frame
          { kind := .notice, sess := i, seq := e.noticeSeq, opc := 0x8002, flg := 0, stat := 0
            payload := u32 e.lostPending ++ leBytes 2 e.firstLost.toNat ++ rsv 2 }⟩ := by
  unfold State.reportLost
  simp only [he, hb, ne_eq, hlost, not_false_eq_true, decide_true, hroom, Bool.and_self, if_true]
  rfl

/-- An empty queue shifts out zeros, and no byte of a next item counts as sent (R308). -/
theorem shiftOut_nil (k n : Nat) : shiftOut k [] n = (List.replicate k 0, [], if k = 0 then n else 0) := by
  induction k generalizing n with
  | zero => rfl
  | succ k ih =>
    simp only [shiftOut, ih, List.replicate_succ, Nat.add_one_ne_zero, if_false, ite_self]

theorem Transport.queue_unsent (r : Transport) (x : OutItem) (h : r.sent = 0) : (r.queue x).out = insertRanked x r.out := by
  unfold Transport.queue
  rw [h]
  cases r.out
  · rfl
  · rfl

theorem Transport.queue_sending {r : Transport} (x : OutItem) {y : OutItem} {ys : List OutItem} (hout : r.out = y :: ys) (h : r.sent ≠ 0) :
    (r.queue x).out = y :: insertRanked x ys := by
  obtain ⟨n, hn⟩ := Nat.exists_eq_succ_of_ne_zero h
  unfold Transport.queue
  rw [hout, hn]

end

end Sys2Proof.Machine

open Sys2Proof Sys2Proof.Machine

/-- Settles O11: each of them is a chain of changes of sessions and of transports. -/
theorem repliesAndNoticesOnlyQueue : Obligations.RepliesAndNoticesOnlyQueue := by
  unfold Obligations.RepliesAndNoticesOnlyQueue
  exact ⟨HostCmd.answer_only, fun s q f => State.send_transports .., State.noticeTo_only, State.notifyF_only, State.complete_only⟩

/-- Settles O9: steps 1 to 5 of R314 in their order. -/
theorem pipelineRefusals : Obligations.PipelineRefusals := by
  unfold Obligations.PipelineRefusals
  refine ⟨fun c q s => ⟨runHost_notReceived c, ?_, ?_, ?_, ?_, ?_, ?_⟩, fun q s => ⟨rfl, rfl, rfl⟩⟩
  · exact fun hrec hver => runHost_badHeader c hrec (headerFault_ver hver)
  · exact fun hrec hver hkind => runHost_badHeader c hrec (headerFault_kind hver hkind)
  · exact fun hrec hver hkind hflg => runHost_badHeader c hrec (headerFault_flg hver hkind hflg)
  · exact fun hrec hver hkind hflg hstat => runHost_badHeader c hrec (headerFault_stat hver hkind hflg hstat)
  · exact fun hrec hhead hother => runHost_otherSession c hrec hhead (sessionInRange_eq_false hother)
  · intro e hrec hhead hrange hs hseq
    have hreach : ReachesSession c q e s := ⟨hrec, hhead, hrange, hs, hseq⟩
    refine ⟨hreach.runHost_refused, fun hb hh => ?_⟩
    rw [hreach.runHost_sequenced hb hh]
    refine ⟨fun hcl => ?_, fun f hcl => ?_, fun hcl => ?_, fun hcl => ?_, fun hcl hfull => ?_, fun r hcl hlen hcount hr => ?_⟩
    · simp only [sequenced, hcl]
    · simp only [sequenced, hcl]
    · simp only [sequenced, hcl]
    · simp only [sequenced, hcl]
    · rw [sequenced_full hcl hfull]
    · rw [sequenced_failing hseq hcl hlen hcount hr]

/-- Settles O8: each command by `runHost_effect` and the equation of its effect. -/
theorem sessionCommands : Obligations.SessionCommands := by
  unfold Obligations.SessionCommands
  intro q s
  refine ⟨fun h => runHost_effect h rfl, fun h => runHost_effect h rfl, fun h => runHost_effect h rfl, ?_, fun h => runHost_effect h rfl,
    fun h => runHost_effect h rfl, ?_, fun opc => execUndefinedOpcode_admits⟩
  · rintro h u t rfl ht
    exact runHost_effect h (sessionOpen_opens ht)
  · rintro c rfl h u t n rfl rfl rfl
    refine runHost_effect h ?_
    simp only [transportCfgCmd, transportCfg, isEth_iff, beq_iff_eq]
    rfl

/-- Settles O10: each event by its equation, and the order of the output queue by the two cases of its first item. -/
theorem transportEvents : Obligations.TransportEvents := by
  unfold Obligations.TransportEvents
  intro s
  refine ⟨fun t ep cause => execQcpFrameRejected_up ep cause, fun t => execGapTimeout_partial, fun n => rfl, ?_, ?_, shiftOut_nil, Transport.queue_unsent,
    fun r x y ys => Transport.queue_sending x⟩
  · rintro i e b f he hb hlost hroom rfl
    exact congrArg Host.Outcome.next (State.reportLost_room he hb hlost hroom)
  · exact fun n mosi hn hup => if_pos ⟨hn, hup⟩

end

section
/-! PROOFS. Frames on the wire: the checksum of R304, the fields of Table 13.1, and the delimiter of R307. -/

namespace Sys2Proof.Machine
open Sys2Proof

/-! ### Fields of a byte string -/

/-- The parts of a byte string, each in its place. -/
theorem fieldB_flatten {ps : List (List Byte)} {i off n : Nat} {l : List Byte} (h : ps[i]? = some l) (hoff : (ps.take i).flatten.length = off)
    (hn : l.length = n) : fieldB ps.flatten off n = l := by
  obtain ⟨hi, rfl⟩ := List.getElem?_eq_some_iff.mp h
  have hsplit : ps.flatten = (ps.take i).flatten ++ (ps[i] ++ (ps.drop (i + 1)).flatten) := by
    rw [← List.flatten_cons, ← List.flatten_append, List.getElem_cons_drop, List.take_append_drop]
  rw [hsplit, fieldB, List.drop_left' hoff, List.take_left' hn]

theorem fieldU_eq (p : List Byte) (off n : Nat) : fieldU p off n = leNat (fieldB p off n) := rfl

/-- A signed field reads back every value in its range (R7). -/
theorem toSigned_leBytesI {n : Nat} {v : Int} (hn : 1 ≤ n) (hlo : -((2 : Int) ^ (8 * n - 1)) ≤ v) (hhi : v < (2 : Int) ^ (8 * n - 1)) :
    toSigned n (leNat (leBytesI n v)) = v := by
  have hdouble : 2 ^ (8 * n) = 2 * 2 ^ (8 * n - 1) := by
    rw [← Nat.pow_succ', show (8 * n - 1).succ = 8 * n by omega]
  have hhalf : (2 : Int) ^ (8 * n - 1) = ((2 ^ (8 * n - 1) : Nat) : Int) := by norm_cast
  rw [hhalf] at hlo hhi
  unfold toSigned leBytesI
  rw [leNat_leBytes, hdouble]
  generalize 2 ^ (8 * n - 1) = h at *
  have hpos : (0 : Int) < ((2 * h : Nat) : Int) := by omega
  rcases lt_or_ge v 0 with hneg | hnonneg
  · have hmod : v % ((2 * h : Nat) : Int) = v + (2 * h : Nat) := by
      rw [← Int.add_emod_right, Int.emod_eq_of_lt (by omega) (by omega)]
    rw [hmod, Nat.mod_eq_of_lt (by omega), if_neg (by omega)]
    omega
  · rw [Int.emod_eq_of_lt hnonneg (by omega), Nat.mod_eq_of_lt (by omega), if_pos (by omega)]
    omega

/-! ### The checksum -/

theorem crcBit_eq (c : Nat) : crcBit c = if c % 2 = 1 then c / 2 ^^^ 0x82F63B78 else c / 2 := by
  simp only [crcBit, beq_iff_eq]

/-- A byte enters the checksum in eight reflected steps (R304). -/
theorem crcByte_eq_foldl (c : Nat) (b : Byte) :
    crcByte c b = (List.range 8).foldl (fun c _ => if c % 2 = 1 then c / 2 ^^^ 0x82F63B78 else c / 2) (c ^^^ b.toNat) := by
  simp only [crcByte, crcBit_eq]
  rfl

theorem crcBit_lt {c : Nat} (h : c < 2 ^ 32) : crcBit c < 2 ^ 32 := by
  have hhalf : c / 2 < 2 ^ 32 := by omega
  rw [crcBit_eq]
  split
  · exact Nat.xor_lt_two_pow hhalf (by decide)
  · exact hhalf

theorem crcByte_lt {c : Nat} (b : Byte) (h : c < 2 ^ 32) : crcByte c b < 2 ^ 32 := by
  have hin : c ^^^ b.toNat < 2 ^ 32 := Nat.xor_lt_two_pow h (by have := b.isLt; omega)
  exact crcBit_lt (crcBit_lt (crcBit_lt (crcBit_lt (crcBit_lt (crcBit_lt (crcBit_lt (crcBit_lt hin)))))))

theorem foldl_crcByte_lt {c : Nat} (bs : List Byte) (h : c < 2 ^ 32) : bs.foldl crcByte c < 2 ^ 32 := by
  induction bs generalizing c with
  | nil => exact h
  | cons b bs ih => exact ih (crcByte_lt b h)

theorem crc32c_lt (bs : List Byte) : crc32c bs < 2 ^ 32 :=
  Nat.xor_lt_two_pow (foldl_crcByte_lt bs (by decide)) (by decide)

/-! ### The fields of a frame (Table 13.1) -/

/-- The bits that tell the kind of a frame. -/
def FrameKind.code : FrameKind → Nat
  | .reply => 16
  | .notice => 32

/-- What the checksum covers: from VER to the end of the payload (R305). -/
def Frame.body (f : Frame) : List Byte :=
  u8 1 ++ u8 (f.kind.code + f.sess) ++ leBytes 2 f.seq.toNat ++ u16 f.opc ++ [f.flg] ++ u8 f.stat ++ f.payload

theorem Frame.bytes_eq (f : Frame) : f.bytes = [0xCA, 0xFE] ++ u16 (8 + f.payload.length) ++ f.body ++ u32 (crc32c f.body) := rfl

@[simp] theorem Frame.body_length (f : Frame) : f.body.length = 8 + f.payload.length := by
  simp only [Frame.body, List.length_append, u8_length, u16_length, leBytes_length, List.length_singleton]

@[simp] theorem Frame.bytes_length (f : Frame) : f.bytes.length = 16 + f.payload.length := by
  simp only [Frame.bytes_eq, List.length_append, u16_length, u32_length, Frame.body_length, List.length_cons, List.length_nil]
  omega

/-- The fields of a frame in their order. -/
def Frame.fields (f : Frame) : List (List Byte) :=
  [[0xCA, 0xFE], u16 (8 + f.payload.length), u8 1, u8 (f.kind.code + f.sess), leBytes 2 f.seq.toNat, u16 f.opc, [f.flg], u8 f.stat, f.payload, u32 (crc32c f.body)]

theorem Frame.bytes_eq_fields (f : Frame) : f.bytes = f.fields.flatten := by
  simp only [Frame.bytes_eq, Frame.body, Frame.fields, List.append_assoc, List.flatten_cons, List.flatten_nil, List.append_nil]

/-- A field of a frame lies where the fields before it end. -/
theorem Frame.fieldB_eq (f : Frame) {off n : Nat} (i : Nat) {l : List Byte} (h : f.fields[i]? = some l) (hoff : (f.fields.take i).flatten.length = off)
    (hn : l.length = n) : fieldB f.bytes off n = l := by
  rw [f.bytes_eq_fields]
  exact fieldB_flatten h hoff hn

/-- A numeric field of a frame holds its value. -/
theorem Frame.fieldU_eq (f : Frame) {off n v : Nat} (i : Nat) (h : f.fields[i]? = some (leBytes n v)) (hoff : (f.fields.take i).flatten.length = off)
    (hv : v < 2 ^ (8 * n)) : fieldU f.bytes off n = v := by
  rw [Machine.fieldU_eq, f.fieldB_eq i h hoff (leBytes_length ..), leNat_leBytes, Nat.mod_eq_of_lt hv]

theorem Frame.fieldB_body (f : Frame) : fieldB f.bytes 4 (8 + f.payload.length) = f.body := by
  have hparts : f.bytes = [[0xCA, 0xFE] ++ u16 (8 + f.payload.length), f.body, u32 (crc32c f.body)].flatten := by
    simp only [Frame.bytes_eq, List.append_assoc, List.flatten_cons, List.flatten_nil, List.append_nil]
  rw [hparts]
  exact fieldB_flatten (i := 1) rfl rfl f.body_length

theorem Frame.drop_crc (f : Frame) : f.bytes.drop (12 + f.payload.length) = u32 (crc32c f.body) := by
  rw [Frame.bytes_eq]
  refine List.drop_left' ?_
  simp only [List.length_append, u16_length, Frame.body_length, List.length_cons, List.length_nil]
  omega

/-! ### The delimiter (R307) -/

theorem delimit_third {a c : Byte} {rx : List Byte} (b : Byte) : delimit (a :: c :: rx) b =
    if (a :: c :: rx ++ [b]).length < 4 then a :: c :: rx ++ [b]
    else if fieldU (a :: c :: rx ++ [b]) 2 2 < 8 || 4088 < fieldU (a :: c :: rx ++ [b]) 2 2
      || fieldU (a :: c :: rx ++ [b]) 2 2 + 8 ≤ (a :: c :: rx ++ [b]).length then []
    else a :: c :: rx ++ [b] := rfl

theorem fieldU_take {p : List Byte} {k off n : Nat} (h : off + n ≤ k) : fieldU (p.take k) off n = fieldU p off n := by
  rw [fieldU, fieldU, List.drop_take, List.take_take, Nat.min_eq_left (by omega)]

section
variable {f : Frame} (h : f.payload.length ≤ 4080)
include h

theorem Frame.fieldU_len : fieldU f.bytes 2 2 = 8 + f.payload.length := f.fieldU_eq 1 rfl rfl (by omega)

/-- Each byte of a frame joins those before it, and the last one completes the frame. -/
theorem Frame.delimit_take {k : Nat} (hk : k < f.bytes.length) :
    delimit (f.bytes.take k) f.bytes[k] = if k + 1 < f.bytes.length then f.bytes.take (k + 1) else [] := by
  have hlen := f.bytes_length
  match k with
  | 0 => rw [if_pos (by omega)]; rfl
  | 1 => rw [if_pos (by omega)]; rfl
  | k + 2 =>
    obtain ⟨rest, hrest⟩ : ∃ rest, f.bytes = 0xCA :: 0xFE :: rest := ⟨_, rfl⟩
    have hhead : f.bytes.take (k + 2) = 0xCA :: 0xFE :: rest.take k := by rw [hrest]; rfl
    have hnext : f.bytes.take (k + 2) ++ [f.bytes[k + 2]] = f.bytes.take (k + 3) := List.take_append_getElem hk
    rw [hhead, delimit_third, ← hhead, hnext, List.length_take, Nat.min_eq_left hk]
    by_cases hshort : k + 3 < 4
    · rw [if_pos hshort, if_pos (by omega)]
    · rw [if_neg hshort, fieldU_take (by omega), Frame.fieldU_len h]
      by_cases hlast : k + 3 < f.bytes.length
      · rw [if_pos hlast, if_neg (by simp; omega)]
      · rw [if_neg hlast, if_pos (by simp; omega)]

/-- While a frame arrives the buffer holds what has come of it. -/
theorem Frame.foldl_delimit_take {k : Nat} (hk : k < f.bytes.length) : (f.bytes.take k).foldl delimit [] = f.bytes.take k := by
  induction k with
  | zero => rfl
  | succ k ih =>
    have hk' : k < f.bytes.length := Nat.lt_of_succ_lt hk
    rw [← List.take_append_getElem hk', List.foldl_append, ih hk', List.foldl_cons, List.foldl_nil, Frame.delimit_take h hk', if_pos hk,
      List.take_append_getElem]

/-- A whole frame leaves the buffer empty. -/
theorem Frame.foldl_delimit : f.bytes.foldl delimit [] = [] := by
  have hlen := f.bytes_length
  have hk : 15 + f.payload.length < f.bytes.length := by omega
  have hall : f.bytes = f.bytes.take (15 + f.payload.length) ++ [f.bytes[15 + f.payload.length]] := by
    rw [List.take_append_getElem, List.take_of_length_le (by omega)]
  rw [hall, List.foldl_append, Frame.foldl_delimit_take h hk, List.foldl_cons, List.foldl_nil, Frame.delimit_take h hk, if_neg (by omega)]

end

/-- Bytes in which no frame can begin are ignored. -/
theorem foldl_delimit_ignored {bs : List Byte} (h : 0xCA ∉ bs) : bs.foldl delimit [] = [] := by
  induction bs with
  | nil => rfl
  | cons b bs ih =>
    obtain ⟨hb, hbs⟩ := not_or.mp (mt List.mem_cons.mpr h)
    rw [List.foldl_cons, show delimit [] b = [] from if_neg (Ne.symm hb), ih hbs]

end Sys2Proof.Machine

open Sys2Proof Sys2Proof.Machine

/-- Settles O58: the check value is computed; a frame ends with the checksum of its body. -/
theorem frameChecksum : Obligations.FrameChecksum := by
  unfold Obligations.FrameChecksum
  refine ⟨fun bs => ?_, by decide +kernel, crc32c_lt, fun f => ⟨f.bytes_length, ?_, ?_⟩⟩
  · unfold crc32c
    rw [show crcByte = _ from funext fun c => funext fun b => crcByte_eq_foldl c b]
  · rw [f.fieldB_body, fieldU_eq, fieldB, f.drop_crc, List.take_of_length_le (by simp), u32, leNat_leBytes]
    exact Nat.mod_eq_of_lt (crc32c_lt _)
  · rw [f.fieldB_body, f.drop_crc]

/-- Settles O59: each field by its place, and the delimiter by induction on what has arrived. -/
theorem frameLayoutAndDelimiting : Obligations.FrameLayoutAndDelimiting := by
  unfold Obligations.FrameLayoutAndDelimiting
  refine ⟨fun f hsess hopc hstat hlen => ⟨f.fieldU_eq 0 rfl rfl (by decide), Frame.fieldU_len hlen, f.fieldU_eq 2 rfl rfl (by decide), ?_, f.fieldU_eq 4 rfl rfl f.seq.isLt,
    f.fieldU_eq 5 rfl rfl hopc, ?_, f.fieldU_eq 7 rfl rfl hstat, f.fieldB_eq 8 rfl rfl rfl, Frame.foldl_delimit hlen,
    fun k hk => Frame.foldl_delimit_take hlen hk⟩, fun bs => foldl_delimit_ignored, fun n v => toSigned_leBytesI⟩
  · refine f.fieldU_eq 3 ?_ rfl ?_
    · rfl
    · cases f.kind <;> dsimp only <;> omega
  · rw [fieldU_eq, f.fieldB_eq (off := 10) (n := 1) 6 rfl rfl rfl]
    rfl

end

section
/-! PROOFS. The instructions of Torpin that reach no memory but the return stack: ALU, branches, calls, control, special registers and exceptions (R370–R384). -/

namespace Sys2Proof.Machine
open Sys2Proof

/-! ### How an instruction ends -/

section
variable {key : Nat} {body : Body} {x : Fetch} {d : Dec} {s t : State} {pc : Word}

/-- An instruction that completes goes on at its next pc. -/
theorem insn_completes (h : fetches x d s = true) (hk : d.key = key) (hb : body (x.ctx d (s.fetched x d)) (s.fetched x d) = .ok (t, pc)) :
    insn key body x s = .next (t.goto x.core pc) := by
  rw [insn_fetches _ _ _ _ _ h hk, hb]
  rfl

/-- An instruction that has ended in a state keeps what that state holds. -/
theorem insn_halts (h : fetches x d s = true) (hk : d.key = key) (hb : body (x.ctx d (s.fetched x d)) (s.fetched x d) = .error (.halt t)) :
    insn key body x s = .next (t.modCore x.core fun k => { k with stall := none }) := by
  rw [insn_fetches _ _ _ _ _ h hk, hb]
  rfl

end

theorem State.modCore_modCore (s : State) (n : Nat) (f g : Core → Core) : (s.modCore n f).modCore n g = s.modCore n (g ∘ f) := by
  unfold State.modCore
  rw [modAt_modAt]

/-! ### The ALU -/

theorem popc_eq_countP (v : Word) : popc v = BitVec.ofNat 32 ((List.range 32).countP fun i => v.getLsbD i) := by
  rw [popc, List.countP_eq_length_filter]

theorem narrow_overflow {r : Int} (h : r < -2147483648 ∨ 2147483647 < r) : narrow r = none := by
  unfold narrow
  exact if_neg (by omega)

theorem orArith_of_ne {f : Word → Word → Word} {v w : Word} (h : w ≠ 0) : orArith f v w = some (f v w) := if_neg h

theorem orArith_zero {f : Word → Word → Word} {v w : Word} (h : w = 0) : orArith f v w = none := if_pos h

/-! ### The return stack and exceptions -/

/-- A push of four bytes. -/
theorem pushStack_word {c : Ctx} {v : Word} {s : State} {top : Nat} (htop : top = ((s.core c.n).rsp - 4).toNat) (h : (stackJudge s c.n top 4 true).1 = .ok) :
    pushStack c (leBytes 4 v.toNat) s = .ok ((s.memWrite top (leBytes 4 v.toNat)).modCore c.n fun k => { k with rsp := BitVec.ofNat 32 top }) := by
  subst htop
  have hpush := pushStack_ok c (leBytes 4 v.toNat) s
  rw [leBytes_length] at hpush
  exact hpush h

theorem Core.estatus_toNat (k : Core) : k.estatus.toNat = if k.ie then 1 else 0 := by
  unfold Core.estatus
  split
  · rfl
  · rfl

theorem takeException_pushes {c : Ctx} {cause elen a : Nat} {epc eaddr : Word} {s : State} (ha : a = ((s.core c.n).rsp - 8).toNat)
    (h : (stackJudge s c.n a 8 true).1 = .ok) : takeException c cause epc eaddr elen s
      = (s.memWrite a (leBytes 4 epc.toNat ++ leBytes 4 (if (s.core c.n).ie then 1 else 0))).modCore c.n fun k =>
          { k with rsp := BitVec.ofNat 32 a, ecause := BitVec.ofNat 8 cause, eaddr := eaddr, elen := elen % 16, ie := false, ieNext := false
                   mode := .running, pc := k.evb + BitVec.ofNat 32 (32 * cause) } := by
  subst ha
  have hpush := pushStack_ok c (leBytes 4 epc.toNat ++ leBytes 4 (s.core c.n).estatus.toNat) s
  rw [List.length_append, leBytes_length, leBytes_length] at hpush
  unfold takeException
  rw [hpush h, Core.estatus_toNat]
  exact State.modCore_modCore ..

/-! ### Illegal instructions and interrupts -/

theorem execIllegalInstruction_takes {x : Fetch} {s u v : State} {key len : Nat} {pc : Word} (hpc : pc = (s.core x.core).pc) (hready : coreReady s x.core = true)
    (hdue : interruptDue s x.core = false) (hdec : decodeInsn x.core x.bytes = .illegal key len) (hfetch : (fetchJudge s x.core pc len).1 = .ok)
    (hread : s.eccRead x.core pc.toNat len = (v, none)) (hu : u = v.modCore x.core (fun k => { k with ie := k.ie || k.ieNext, ieNext := false, mode := .running }))
    (hv : (v.core x.core).pc = pc) : execIllegalInstruction x s
      = .next (takeException { n := x.core, d := Dec.of 0 len, pc := pc, next := pc + BitVec.ofNat 32 len, x := x } 1 pc (firstWord x.bytes len) len u) := by
  subst hpc hu
  have hrun : runInsn (fun _ => true) (fun c s => .ok (s, c.next)) x s = runDecoded x (.illegal key len) (fun c s => .ok (s, c.next)) v := by
    unfold runInsn
    rcases hj : fetchJudge s x.core (s.core x.core).pc len with ⟨w, a⟩
    rw [hj] at hfetch
    subst hfetch
    simp only [hready, hdue, hdec, Decoded.len, reduceCtorEq, decide_false, Bool.not_true, Bool.or_false, Bool.false_eq_true, if_false, hj, hread]
  unfold execIllegalInstruction
  rw [hdec]
  dsimp only
  rw [hrun, ← hv]
  rfl

theorem execInterruptEntry_takes {core i : Nat} {same : Bool} {s : State} {pc : Word} (hready : coreReady s core = true) (hie : (s.core core).ie = true)
    (hline : s.dueLine core = some i) (hpc : pc = (s.core core).pc) : execInterruptEntry core same s
      = .next (takeException { n := core, d := Dec.of 0 0, pc := pc, next := pc, x := { core := core, bytes := [], sameTick := same, upTo := none, clash := none } }
          (0x10 + i) pc 0 (s.core core).elen s) := by
  subst hpc
  have hdue : interruptDue s core = true := by
    unfold interruptDue
    rw [hie, hline]
    rfl
  unfold execInterruptEntry
  rw [hready, hdue, Bool.and_self, if_pos rfl, hline]

/-! ### Special registers (R381) -/

section
variable {c : Ctx} {s v : State}

theorem opMfs_other (h : c.d.sreg ≠ 3) : opMfs c s = .ok (s.setG c.n c.d.a (sregRead c.n c.d.sreg s), c.next) := if_neg h

theorem topCheck_ok {write : Bool} (h : (s.judgeBanks c.n (s.core c.n).rsp.toNat 4 write).1 = .ok) : topCheck c write s = .ok (s.core c.n).rsp.toNat := by
  unfold topCheck
  rcases hj : s.judgeBanks c.n (s.core c.n).rsp.toNat 4 write with ⟨w, a⟩
  rw [hj] at h
  dsimp only at h
  subst h
  dsimp only
  rw [hj]

/-- MFS of TOPPC reads the word at RSP under the bank rules alone. -/
theorem opMfs_top (h : c.d.sreg = 3) (hj : (s.judgeBanks c.n (s.core c.n).rsp.toNat 4 false).1 = .ok)
    (hread : s.eccRead c.n (s.core c.n).rsp.toNat 4 = (v, none)) :
    opMfs c s = .ok (v.setG c.n c.d.a (BitVec.ofNat 32 (leNat (s.memRead (s.core c.n).rsp.toNat 4))), c.next) := by
  unfold opMfs readTop
  rw [if_pos h, topCheck_ok hj]
  dsimp only
  rw [hread]

theorem opMts_top (h : c.d.sreg = 3) (hj : (s.judgeBanks c.n (s.core c.n).rsp.toNat 4 true).1 = .ok) :
    opMts c s = .ok (s.memWrite (s.core c.n).rsp.toNat (leBytes 4 (s.g c.n c.d.a).toNat), c.next) := by
  unfold opMts
  dsimp only
  rw [if_pos h, topCheck_ok hj]

theorem opMts_other (h : c.d.sreg ≠ 3) : opMts c s = .ok (sregWrite c.n c.d.sreg (s.g c.n c.d.a) s, c.next) := if_neg h

end

end Sys2Proof.Machine

open Sys2Proof Sys2Proof.Machine

/-- Settles O40: each row is an ALU row with its operation. -/
theorem torpinAluRegister : Obligations.TorpinAluRegister := by
  unfold Obligations.TorpinAluRegister
  rintro x d s u h rfl
  have run (key : Nat) (f : Word → Word → Word) := alu_runs key srcReg f x d s h
  exact ⟨run _ _, run _ _, run _ _, run _ _, run _ _, run _ _, run _ _, run _ _, run _ _, run _ _, run _ _, run _ _, run _ _, run _ _, run _ _, run _ _,
    run _ _, run _ _, run _ _, run _ _, run _ _, fun hk => popc_eq_countP _ ▸ run _ _ hk, run _ _, run _ _⟩

/-- Settles O41: each row is an ALU row with its operation and the immediate as source. -/
theorem torpinAluImmediate : Obligations.TorpinAluImmediate := by
  unfold Obligations.TorpinAluImmediate
  rintro x d s u h rfl
  have run (key : Nat) (f : Word → Word → Word) := alu_runs key srcImm f x d s h
  exact ⟨run _ _, run _ _, run _ _, run _ _, run _ _, run _ _, run _ _, run _ _, run _ _, run _ _, run _ _, run _ _⟩

/-- Settles O42: a sum that fits and a divisor that is not 0 give the operation a result. -/
theorem torpinDivideOverflow : Obligations.TorpinDivideOverflow := by
  unfold Obligations.TorpinDivideOverflow
  rintro x d s u a b h rfl rfl rfl
  refine ⟨fun hk hlo hhi => ?_, fun hk hlo hhi => ?_, fun hk hlo hhi => ?_, fun hk hlo hhi => ?_, fun hk hb => ?_, fun hk hb => ?_, fun hk => ?_, fun hk => ?_,
    fun hk hb => ?_, fun hk hb => ?_, fun hk => ?_, fun hk => ?_⟩
  · exact aluTrap_runs _ srcReg _ x d s _ h hk (narrow_add _ _ hlo hhi)
  · exact aluTrap_runs _ srcImm _ x d s _ h hk (narrow_add _ _ hlo hhi)
  · exact aluTrap_runs _ srcReg _ x d s _ h hk (narrow_sub _ _ hlo hhi)
  · exact aluTrap_runs _ srcImm _ x d s _ h hk (narrow_sub _ _ hlo hhi)
  · exact aluTrap_runs _ srcReg _ x d s _ h hk (orArith_of_ne hb)
  · rw [← udiv_ofNat]
    exact aluTrap_runs _ srcReg _ x d s _ h hk (orArith_of_ne hb)
  · exact alu_runs _ srcReg _ x d s h hk
  · rw [← udiv_ofNat]
    exact alu_runs _ srcReg _ x d s h hk
  · exact aluTrap_runs _ srcReg _ x d s _ h hk (orArith_of_ne hb)
  · rw [← umod_ofNat]
    exact aluTrap_runs _ srcReg _ x d s _ h hk (orArith_of_ne hb)
  · exact alu_runs _ srcReg _ x d s h hk
  · rw [← umod_ofNat]
    exact alu_runs _ srcReg _ x d s h hk

/-- Settles O43: a sum that does not fit and a divisor of 0 leave the operation without a result. -/
theorem torpinArithTraps : Obligations.TorpinArithTraps := by
  unfold Obligations.TorpinArithTraps
  rintro x d s u a b h rfl rfl rfl
  have reg (key : Nat) (f : Word → Word → Option Word) := aluTrap_traps key srcReg f x d s h
  have imm (key : Nat) (f : Word → Word → Option Word) := aluTrap_traps key srcImm f x d s h
  exact ⟨fun hk hr => reg _ _ hk (narrow_overflow hr), fun hk hr => imm _ _ hk (narrow_overflow hr), fun hk hr => reg _ _ hk (narrow_overflow hr),
    fun hk hr => imm _ _ hk (narrow_overflow hr), fun hk hb => reg _ _ hk (orArith_zero hb), fun hk hb => reg _ _ hk (orArith_zero hb),
    fun hk hb => reg _ _ hk (orArith_zero hb), fun hk hb => reg _ _ hk (orArith_zero hb)⟩

/-- Settles O44, from the push of the two words. -/
theorem torpinExceptionEntry : Obligations.TorpinExceptionEntry := by
  unfold Obligations.TorpinExceptionEntry
  exact fun c cause elen a epc eaddr s => takeException_pushes

/-- Settles O45: each row is a branch with its condition; JMP, JMPR and DBNZ complete. -/
theorem torpinBranches : Obligations.TorpinBranches := by
  unfold Obligations.TorpinBranches
  rintro x d s u h rfl
  have reg (key : Nat) (f : Word → Word → Bool) (p : Prop) [Decidable p] := branch_runs key byReg f x d s p h
  have imm (key : Nat) (f : Word → Word → Bool) (p : Prop) [Decidable p] := branch_runs key withImm f x d s p h
  have beq (v w : Word) : (v == w) = decide (v = w) := beq_eq_decide ..
  have bne (v w : Word) : (v != w) = decide (v ≠ w) := by rw [bne, beq, ← decide_not]
  exact ⟨fun hk => reg _ _ _ hk (beq ..), fun hk => reg _ _ _ hk (bne ..), fun hk => reg _ _ _ hk rfl, fun hk => reg _ _ _ hk rfl, fun hk => reg _ _ _ hk rfl,
    fun hk => reg _ _ _ hk rfl, fun hk => imm _ _ _ hk (beq ..), fun hk => imm _ _ _ hk (bne ..), fun hk => imm _ _ _ hk rfl, fun hk => imm _ _ _ hk rfl,
    fun hk => imm _ _ _ hk rfl, fun hk => imm _ _ _ hk rfl, fun hk => imm _ _ _ hk rfl, fun hk => imm _ _ _ hk rfl, fun hk => imm _ _ _ hk rfl,
    fun hk => imm _ _ _ hk rfl, fun hk => insn_completes h hk rfl, fun hk => insn_completes h hk rfl, fun hk => insn_completes h hk rfl⟩

/-- Settles O46: a call by its push, a return by its pop, and the rest by what each does. -/
theorem torpinCallsAndStack : Obligations.TorpinCallsAndStack := by
  unfold Obligations.TorpinCallsAndStack
  rintro x d s u top h rfl htop
  refine ⟨fun hk hj => insn_completes h hk ?_, fun hk hj => insn_completes h hk ?_, ?_, ?_, fun hk => insn_completes h hk rfl, fun hk => insn_completes h hk rfl,
    fun hk => insn_completes h hk rfl, fun hk => insn_halts h hk rfl, fun hk => insn_halts h hk rfl⟩
  · unfold opCall
    rw [pushStack_word (c := x.ctx d (s.fetched x d)) htop hj]
    rfl
  · unfold opCall
    rw [pushStack_word (c := x.ctx d (s.fetched x d)) htop hj]
    rfl
  · rintro hk r v rfl hj hread
    refine insn_completes h hk ?_
    unfold opRet
    rw [popStack_ok (x.ctx d (s.fetched x d)) 4 _ v hj hread]
    rfl
  · rintro hk r v rfl hj hread
    refine insn_completes h hk ?_
    unfold opRetI
    rw [popStack_ok (x.ctx d (s.fetched x d)) 8 _ v hj hread]
    rfl

/-- Settles O57: MFS and MTS by the register they name, the other two by what they take. -/
theorem torpinSpecialRegisters : Obligations.TorpinSpecialRegisters := by
  unfold Obligations.TorpinSpecialRegisters
  refine ⟨?_, fun x s u v key len pc hpc hready hdue hdec hfetch hread hu hv => execIllegalInstruction_takes hpc hready hdue hdec hfetch hread hu hv,
    fun core i same s pc => execInterruptEntry_takes⟩
  rintro x d s u k h rfl rfl
  have read (n : Nat) (hk : d.key = 0x80) (hs : d.sreg = n) (hn : n ≠ 3) :
      exec (.mfs x) s = .next ((s.fetched x d).result x d (sregRead x.core n (s.fetched x d))) :=
    hs ▸ insn_completes h hk (opMfs_other (c := x.ctx d (s.fetched x d)) (hs ▸ hn))
  have write (n : Nat) (hk : d.key = 0x81) (hs : d.sreg = n) (hn : n ≠ 3) :
      exec (.mts x) s = .next ((sregWrite x.core n ((s.fetched x d).g x.core d.a) (s.fetched x d)).goto x.core ((s.fetched x d).after x.core d)) :=
    hs ▸ insn_completes h hk (opMts_other (c := x.ctx d (s.fetched x d)) (hs ▸ hn))
  refine ⟨fun hk hs => read 0 hk hs (by decide), fun hk hs => read 1 hk hs (by decide), fun hk hs => read 2 hk hs (by decide), ?_,
    fun hk hs => read 4 hk hs (by decide), fun hk hs => read 5 hk hs (by decide), fun hk hs => read 6 hk hs (by decide), fun hk hs => read 7 hk hs (by decide),
    fun hk hs => read 8 hk hs (by decide), fun hk hs => read 9 hk hs (by decide), fun hk hs => write 0 hk hs (by decide), fun hk hs => write 1 hk hs (by decide),
    fun hk hs => write 6 hk hs (by decide), ?_⟩
  · exact fun hk hs v hj hread => insn_completes h hk (opMfs_top (c := x.ctx d (s.fetched x d)) hs hj hread)
  · exact fun hk hs hj => insn_completes h hk (opMts_top (c := x.ctx d (s.fetched x d)) hs hj)

end

section
/-! PROOFS. The instructions of Torpin that reach memory, and the coprocessors (R370, R375, R376, R386–R389). -/

namespace Sys2Proof.Machine
open Sys2Proof

/-! ### Addresses (R370) -/

section
variable {c : Ctx} (b : Nat) (s : State)

theorem Ctx.ea_mode0 (h : c.d.mode = 0) : c.ea b s = (s.g c.n b).toNat := by
  simp only [Ctx.ea, h]

theorem Ctx.ea_mode1 (h : c.d.mode = 1) : c.ea b s = (s.g c.n b).toNat := by
  simp only [Ctx.ea, h]

theorem Ctx.ea_mode2 (h : c.d.mode = 2) : c.ea b s = (s.g c.n b - BitVec.ofNat 32 c.d.size).toNat := by
  simp only [Ctx.ea, h]

theorem Ctx.ea_plain (h : c.d.mode = 3) (hi : c.d.index = none) : c.ea b s = (s.g c.n b + c.d.disp).toNat := by
  simp only [Ctx.ea, h, hi]
  exact congrArg (fun v => (v + c.d.disp).toNat) (BitVec.add_zero _)

theorem Ctx.ea_indexed (h : c.d.mode = 3) {i k : Nat} (hi : c.d.index = some (i, k)) :
    c.ea b s = (s.g c.n b + s.g c.n i * BitVec.ofNat 32 k + c.d.disp).toNat := by
  simp only [Ctx.ea, h, hi]

theorem Ctx.bump_mode0 (h : c.d.mode = 0) : c.bump b s = s := by
  simp only [Ctx.bump, h]

theorem Ctx.bump_mode1 (h : c.d.mode = 1) : c.bump b s = s.setG c.n b (s.g c.n b + BitVec.ofNat 32 c.d.size) := by
  simp only [Ctx.bump, h]

/-- MODE 2 leaves the address it has used in the base register. -/
theorem Ctx.bump_mode2 (h : c.d.mode = 2) : c.bump b s = s.setG c.n b (BitVec.ofNat 32 (c.ea b s)) := by
  rw [Ctx.ea_mode2 b s h, BitVec.ofNat_toNat, BitVec.setWidth_eq]
  simp only [Ctx.bump, h]

theorem Ctx.bump_mode3 (h : c.d.mode = 3) : c.bump b s = s := by
  simp only [Ctx.bump, h]

end

/-! ### Loads, stores and moves -/

section
variable {c : Ctx} {s v : State} {bs : List Byte}

/-- Without REP an instruction makes one access (R380). -/
theorem Ctx.repeated_once {iter : State → Except Stop State} (h : c.d.rep = false) (hi : iter s = .ok v) : c.repeated iter s = .ok (v, c.next) := by
  unfold Ctx.repeated
  rw [h, if_neg Bool.false_ne_true, hi]

theorem loadIter_ok (ha : granted c .load (c.ea c.d.b s) c.d.size false s = true) (hb : readBytes c (c.ea c.d.b s) c.d.size s = .ok (v, bs)) :
    loadIter c s = .ok ((c.bump c.d.b v).setG c.n c.d.a (extend c.d.sx bs)) := by
  unfold loadIter Ctx.loadOp
  dsimp only
  rw [checkAccess_granted ha]
  dsimp only
  rw [hb]

theorem Ctx.storeOp_ok {w : Word} (ha : granted c .store (c.ea c.d.b s) c.d.size false s = true) :
    c.storeOp w s = .ok (c.bump c.d.b (writeBytes c (c.ea c.d.b s) (leBytes c.d.size w.toNat) s)) := by
  unfold Ctx.storeOp
  dsimp only
  rw [checkAccess_granted ha]

theorem moveIter_ok (hr : granted c .load (c.ea c.d.b s) c.d.size false s = true) (hw : granted c .store (c.ea c.d.a s) c.d.size false s = true)
    (hb : readBytes c (c.ea c.d.b s) c.d.size s = .ok (v, bs)) :
    moveIter c s = .ok (c.bump c.d.a (c.bump c.d.b (writeBytes c (c.ea c.d.a s) bs v))) := by
  unfold moveIter
  dsimp only
  rw [checkAccess_granted hr]
  dsimp only
  rw [checkAccess_granted hw]
  dsimp only
  rw [hb]

end

/-! ### The coprocessors -/

section
variable {c : Ctx} {s v : State} {bs : List Byte}

/-- SUBMIT hands on the block that its 12 loads may read (R388). -/
theorem opSubmit_ok (hrun : checkRun c .load (s.g c.n c.d.a).toNat 4 12 s = .ok ()) (hb : readBytes c (s.g c.n c.d.a).toNat 48 s = .ok (v, bs)) :
    opSubmit c s = .ok ((cipherSubmit (s.g c.n c.d.a).toNat v).1.setG c.n c.d.a (BitVec.ofNat 32 (cipherSubmit (s.g c.n c.d.a).toNat v).2), c.next) := by
  unfold opSubmit
  dsimp only
  rw [hrun]
  dsimp only
  rw [hb]

theorem opFld_ok (ha : granted c .load (s.g c.n c.d.a).toNat 8 false s = true) (hb : readBytes c (s.g c.n c.d.a).toNat 8 s = .ok (v, bs)) :
    opFld c s = .ok (v.setF c.n c.d.b (BitVec.ofNat 64 (leNat bs)), c.next) := by
  unfold opFld
  dsimp only
  rw [checkAccess_granted ha]
  dsimp only
  rw [hb]

theorem opFst_ok (ha : granted c .store (s.g c.n c.d.a).toNat 8 false s = true) :
    opFst c s = .ok (writeBytes c (s.g c.n c.d.a).toNat (leBytes 8 (s.f c.n c.d.b).toNat) s, c.next) := by
  unfold opFst
  dsimp only
  rw [checkAccess_granted ha]

/-- The product with a conjugate, by the parts of the two factors. -/
theorem opCmul_conj (c : Ctx) (s : State) : opCmul true c s = .ok ((s.setG c.n c.d.a
    (sat32s (roundDiv ((s.g c.n c.d.a).toInt * (s.g c.n c.d.b).toInt + (s.g c.n (c.d.a + 1)).toInt * (s.g c.n (c.d.b + 1)).toInt) (2 ^ (c.d.imm.toNat % 32))))).setG
    c.n (c.d.a + 1)
    (sat32s (roundDiv ((s.g c.n (c.d.a + 1)).toInt * (s.g c.n c.d.b).toInt - (s.g c.n c.d.a).toInt * (s.g c.n (c.d.b + 1)).toInt) (2 ^ (c.d.imm.toNat % 32)))),
    c.next) := by
  unfold opCmul State.pair
  dsimp only
  rw [if_pos rfl, Int.mul_neg, Int.mul_neg, Int.sub_neg, neg_add_eq_sub]

/-- What MXRUN does once it has its descriptor (R389). -/
def mxRun (c : Ctx) (m : Mx) (s : State) : Except Stop (State × Word) :=
  match mxLoad c m.a (m.m * m.k) s with
  | .error e => .error e
  | .ok (s, a) => match mxLoad c m.b (m.k * m.n) s with
    | .error e => .error e
    | .ok (s, b) => match (if m.acc then mxLoad c m.c (m.m * m.n) s else .ok (s, [])) with
      | .error e => .error e
      | .ok (s, old) => mxStore c m (mxCompute (BitVec.ofNat 64 (s.openVal 92).2) m a b old) (s.openVal 92).1

theorem opMxrun_eq (hrun : checkRun c .load (s.g c.n c.d.a).toNat 8 4 s = .ok ()) (hb : readBytes c (s.g c.n c.d.a).toNat 32 s = .ok (v, bs)) :
    opMxrun c s = if ([(mxOf bs).m, (mxOf bs).k, (mxOf bs).n].any fun v => v == 0 || decide (64 < v)) = true then .ok (v, c.next) else mxRun c (mxOf bs) v := by
  unfold opMxrun
  dsimp only
  rw [hrun]
  dsimp only
  rw [hb]
  rfl

theorem mxRun_ok {m : Mx} {s1 s2 s3 : State} {a b old : List (BitVec 64)} (ha : mxLoad c m.a (m.m * m.k) s = .ok (s1, a))
    (hb : mxLoad c m.b (m.k * m.n) s1 = .ok (s2, b)) (hacc : m.acc = true → mxLoad c m.c (m.m * m.n) s2 = .ok (s3, old))
    (hnew : m.acc = false → s3 = s2 ∧ old = []) (hrun : checkRun c .store m.c 8 (m.m * m.n) (s3.openVal 92).1 = .ok ())
    {out : List (BitVec 64 × BitVec 7)} (hout : out = mxCompute (BitVec.ofNat 64 (s3.openVal 92).2) m a b old) :
    mxRun c m s = .ok ((writeBytes c m.c (out.flatMap fun e => leBytes 8 e.1.toNat) (s3.openVal 92).1).stick c.n (out.foldl (fun f e => f ||| e.2) 0), c.next) := by
  subst hout
  have hold : (if m.acc then mxLoad c m.c (m.m * m.n) s2 else .ok (s2, [])) = .ok (s3, old) := by
    cases h : m.acc with
    | true => rw [if_pos rfl, hacc h]
    | false =>
      obtain ⟨rfl, rfl⟩ := hnew h
      rw [if_neg Bool.false_ne_true]
  unfold mxRun
  rw [ha]
  dsimp only
  rw [hb]
  dsimp only
  rw [hold]
  dsimp only
  unfold mxStore
  rw [hrun]

end

end Sys2Proof.Machine

open Sys2Proof Sys2Proof.Machine

/-- Settles O50: an address and its base update for each MODE. -/
theorem torpinAddressing : Obligations.TorpinAddressing := by
  unfold Obligations.TorpinAddressing
  exact fun c b s => ⟨fun h => ⟨Ctx.ea_mode0 b s h, Ctx.bump_mode0 b s h⟩, fun h => ⟨Ctx.ea_mode1 b s h, Ctx.bump_mode1 b s h⟩,
    fun h => ⟨Ctx.ea_mode2 b s h, Ctx.bump_mode2 b s h⟩,
    fun h => ⟨Ctx.bump_mode3 b s h, Ctx.ea_plain b s h, fun i k => Ctx.ea_indexed b s h⟩⟩

/-- Settles O47: each form is one iteration, whose accesses are permitted. -/
theorem torpinLoadsAndStores : Obligations.TorpinLoadsAndStores := by
  unfold Obligations.TorpinLoadsAndStores
  rintro x d s u c h rfl rfl hrep
  exact ⟨fun hk v bs ha hb => insn_completes h hk (Ctx.repeated_once hrep (loadIter_ok ha hb)),
    fun hk ha => insn_completes h hk (Ctx.repeated_once hrep (Ctx.storeOp_ok ha)),
    fun hk ha => insn_completes h hk (Ctx.repeated_once hrep (Ctx.storeOp_ok ha)),
    fun hk v bs hr hw hb => insn_completes h hk (Ctx.repeated_once hrep (moveIter_ok hr hw hb)),
    fun hk => insn_completes h hk rfl⟩

/-- Settles O49: the read and the write of one operand, both permitted. -/
theorem torpinReadModifyWrite : Obligations.TorpinReadModifyWrite := by
  unfold Obligations.TorpinReadModifyWrite
  rintro x d s u v c a bs m h rfl rfl rfl hb rfl
  refine ⟨fun hk hr hw => insn_completes h hk (opExchange_ok _ _ v bs hr hw hb), fun hr hw => ?_⟩
  have modify (f : Word → Word → Word) (w : Ctx → State → Word) := opModify_ok f w _ _ v bs hr hw hb
  exact ⟨fun hk => insn_completes h hk (modify _ _), fun hk => insn_completes h hk (modify _ _), fun hk => insn_completes h hk (modify _ _),
    fun hk => insn_completes h hk (modify _ _), fun hk => insn_completes h hk (modify _ _)⟩

/-- Settles O51: SUBMIT by its permitted loads, the others by their equation. -/
theorem torpinTimeAndCipher : Obligations.TorpinTimeAndCipher := by
  unfold Obligations.TorpinTimeAndCipher
  rintro x d s u h rfl
  exact ⟨fun hk => insn_completes h hk rfl, fun hk => insn_completes h hk rfl, fun hk => insn_completes h hk rfl, fun hk => insn_completes h hk rfl,
    fun hk => insn_completes h hk rfl, fun hk => insn_completes h hk rfl, fun hk v bs hrun hb => insn_completes h hk (opSubmit_ok hrun hb)⟩

/-- Settles O52: each operation has its result; FLD and FST by their permitted access. -/
theorem torpinFloat : Obligations.TorpinFloat := by
  unfold Obligations.TorpinFloat
  rintro x d s u a b h rfl rfl rfl
  refine ⟨fun hk => insn_completes h hk rfl, fun hk => insn_completes h hk rfl, fun hk => insn_completes h hk rfl, fun hk => insn_completes h hk rfl,
    fun hk => insn_completes h hk rfl, fun hk => insn_completes h hk rfl, fun hk => insn_completes h hk rfl, ?_, ?_, fun hk => insn_completes h hk rfl,
    fun hk => insn_completes h hk rfl, fun hk => insn_completes h hk rfl, fun hk => insn_completes h hk rfl, fun hk => insn_completes h hk rfl⟩
  · rintro hk p v bs rfl ha hb
    exact insn_completes h hk (opFld_ok ha hb)
  · rintro hk p rfl ha
    exact insn_completes h hk (opFst_ok ha)

/-- Settles O53: the product with a conjugate is that with the sign of its Q part turned. -/
theorem torpinComplex : Obligations.TorpinComplex := by
  unfold Obligations.TorpinComplex
  rintro x d s u i q k r p h rfl rfl rfl rfl rfl rfl
  refine ⟨fun hk => insn_completes h hk rfl, fun hk => ?_, fun hk => insn_completes h hk rfl, fun hk => insn_completes h hk rfl,
    fun hk => insn_completes h hk rfl, fun hk => insn_completes h hk rfl⟩
  exact insn_completes h hk (opCmul_conj ..)

/-- Settles O54: the descriptor's sizes decide between the two ends. -/
theorem torpinMatrix : Obligations.TorpinMatrix := by
  unfold Obligations.TorpinMatrix
  rintro x d s u w c at_ desc m h rfl rfl hk rfl hrun hb rfl
  have heq := opMxrun_eq (c := x.ctx d (s.fetched x d)) hrun hb
  refine ⟨fun hsize => insn_completes h hk (heq.trans (if_pos hsize)), fun hsize w1 w2 w3 a b old ha hb' hacc hnew hstore out hout => ?_⟩
  refine insn_completes h hk (heq.trans ?_)
  rw [hsize, if_neg Bool.false_ne_true]
  exact mxRun_ok ha hb' hacc hnew hstore hout

end

section
/-! PROOFS. The bytes of managed memory: what a store writes and what it leaves (R336–R338). -/

namespace Sys2Proof.Machine
open Sys2Proof

/-- A store changes the listed cells alone. -/
theorem MemSys.write_cells (m : MemSys) (a : Nat) (bs : List Byte) : ∃ cs, m.write a bs = { m with cells := cs } := by
  induction bs generalizing m a with
  | nil => exact ⟨_, rfl⟩
  | cons b bs ih =>
    obtain ⟨cs, h⟩ := ih (m.setByte a b) (a + 1)
    exact ⟨cs, h⟩

/-- Addresses of a store that all lie in managed memory. -/
theorem inMem_tail {a : Nat} {b : Byte} {bs : List Byte} (h : ∀ i < (b :: bs).length, inMem (a + i) = true) : ∀ i < bs.length, inMem (a + 1 + i) = true := by
  intro i hi
  rw [Nat.add_right_comm]
  exact h (i + 1) (Nat.succ_lt_succ hi)

/-- Two addresses of managed memory that differ have cells of their own. -/
theorem MemSys.byte_setByte_ne {m : MemSys} {a b : Nat} {v : Byte} (ha : inMem a = true) (hb : inMem b = true) (h : b ≠ a) : (m.setByte a v).byte b = m.byte b :=
  MemSys.byte_setByte_other _ _ _ _ fun hl => h (MemSys.loc_injective m b a hb ha hl)

theorem MemSys.byte_write_outside {bs : List Byte} {m : MemSys} {a b : Nat} (ha : ∀ i < bs.length, inMem (a + i) = true) (hb : inMem b = true)
    (h : b < a ∨ a + bs.length ≤ b) : (m.write a bs).byte b = m.byte b := by
  induction bs generalizing m a with
  | nil => rfl
  | cons v bs ih =>
    rw [List.length_cons] at h
    have hne : b ≠ a := by omega
    exact (ih (inMem_tail ha) (by omega)).trans (MemSys.byte_setByte_ne (ha 0 (Nat.succ_pos _)) hb hne)

theorem MemSys.byte_write_inside {bs : List Byte} {m : MemSys} {a : Nat} (hwf : Memory.wf m = true) (ha : ∀ i < bs.length, inMem (a + i) = true)
    {i : Nat} (hi : i < bs.length) : (m.write a bs).byte (a + i) = bs[i] := by
  induction bs generalizing m a i with
  | nil => exact absurd hi (Nat.not_lt_zero i)
  | cons v bs ih =>
    cases i with
    | zero => exact (MemSys.byte_write_outside (inMem_tail ha) (ha 0 hi) (.inl (Nat.lt_succ_self a))).trans (MemSys.byte_setByte m a v hwf)
    | succ i =>
      have hstep := ih (Memory.wf_setByte m a v hwf) (inMem_tail ha) (Nat.lt_of_succ_lt_succ hi)
      rwa [Nat.add_right_comm] at hstep

/-- A store to managed memory reads back. -/
theorem MemSys.read_write {bs : List Byte} {m : MemSys} {a : Nat} (hwf : Memory.wf m = true) (ha : ∀ i < bs.length, inMem (a + i) = true) :
    (m.write a bs).read a bs.length = bs := by
  refine List.ext_getElem (by simp [MemSys.read]) fun i hi _ => ?_
  simp only [MemSys.read, List.getElem_map, List.getElem_range]
  exact MemSys.byte_write_inside hwf ha _

end Sys2Proof.Machine

open Sys2Proof Sys2Proof.Machine

/-- Settles O16: read after write byte by byte, over cells that no two addresses share. -/
theorem memoryReadAfterWrite : Obligations.MemoryReadAfterWrite := by
  unfold Obligations.MemoryReadAfterWrite
  refine ⟨fun s a bs hwf ha => ⟨MemSys.read_write hwf ha, fun b hb hout => MemSys.byte_write_outside ha hb hout, Memory.wf_memWrite s a bs hwf, ?_⟩,
    MemSys.loc_injective, Memory.wf_reset, rfl⟩
  obtain ⟨cs, h⟩ := MemSys.write_cells s.mem a bs
  unfold State.memWrite
  rw [h]
  exact ⟨_, rfl, rfl, rfl, rfl⟩

end

section
/-! PROOFS. Banks, DMA channels and the registers that UC writes: their commands and events (R338–R364). -/

namespace Sys2Proof.Machine
open Sys2Proof

/-! ### A bank's power and owner -/

theorem Bank.request_goal {b : Bank} {p : BankPower} (h : p = b.goal) : b.request p = b := if_pos h

theorem Bank.request_moving {b : Bank} {p : BankPower} (h : p ≠ b.goal) (hm : b.moving ≠ none) : b.request p = { b with power := p, held := some p } :=
  (if_neg h).trans (if_pos (Option.isSome_iff_ne_none.mpr hm))

theorem Bank.request_still {b : Bank} {p : BankPower} (h : p ≠ b.goal) (hm : b.moving = none) : b.request p = { b with power := p, moving := some p } :=
  (if_neg h).trans (if_neg (by simp [hm]))

theorem Bank.give_other {b : Bank} {o : Nat} (u : BankUse) (h : o ≠ b.ownerA) : b.give o u = { b with ownerA := o, drainA := some b.ownerA, use := u } :=
  if_neg (Ne.symm h)

theorem State.bankDone_moving {s : State} {n : Nat} {p : BankPower} (h : (s.bank n).moving = some p) :
    s.bankDone n = ({ s with mem := (if p = .off ∨ (s.bank n).state = .off then s.mem.clearBank n 0 else s.mem).modBank n fun k =>
      { k with state := p, moving := (s.bank n).held.filter fun h => decide (h ≠ p), held := none } } : State).mbEvent n 1 p.code := by
  simp only [State.bankDone, h]

/-- Only the handover of port A of the bank is pending: it is the one reported. -/
theorem State.drained_portA {s : State} {n : Nat} (ha : (s.bank n).drainA ≠ none) (hb : (s.bank n).drainB = none) :
    s.drained n = (s.modBank n fun b => { b with drainA := none, drainB := none }).mbEvent n 2 (s.bank n).ownerA := by
  simp only [State.drained, Option.isSome_iff_ne_none.mpr ha, hb, if_true, Option.isSome_none, Bool.false_eq_true, if_false]

/-! ### Host memory access -/

section
variable {q : Qcp} {s t : State} {o : Option Nat}

theorem memReadCmd_effect_good (h : s.eccRead 0x14 (q.u 0 4) (q.u 4 2) = (t, none)) :
    memReadCmd.effect q s = (t, .ok (s.memRead (q.u 0 4) (q.u 4 2))) := by
  simp only [memReadCmd, h]

theorem memReadCmd_effect_bad (h : s.eccRead 0x14 (q.u 0 4) (q.u 4 2) = (t, o)) (ho : o ≠ none) : memReadCmd.effect q s = (t, ⟨stFault, []⟩) := by
  obtain ⟨x, rfl⟩ := Option.ne_none_iff_exists'.mp ho
  simp only [memReadCmd, h]

end

/-! ### The patrol scrubber -/

/-- What the scrubber does at one word: its upset decides (R348). -/
def scrubWord (w : Nat) (s : State) : State :=
  match s.mem.upsets.find? (fun u => u.1 == s.mem.loc (memBase + 8 * w) / 8) with
  | none => s
  | some (_, false) =>
    ({ s with mem := { s.mem with upsets := s.mem.upsets.filter fun u => u.1 != s.mem.loc (memBase + 8 * w) / 8 } } : State).logEcc
      (memBase + 8 * w) (s.mem.locate (memBase + 8 * w)).1 3 0xFF
  | some (_, true) => s.logEcc (memBase + 8 * w) (s.mem.locate (memBase + 8 * w)).1 4 0xFF

theorem scrubWord_clean {s : State} {w : Nat} (h : s.mem.upsets.find? (fun u => u.1 == s.mem.loc (memBase + 8 * w) / 8) = none) : scrubWord w s = s := by
  simp only [scrubWord, h]

theorem scrubWord_single {s : State} {w l : Nat} (hl : l = s.mem.loc (memBase + 8 * w) / 8) (h : s.mem.upsets.find? (fun u => u.1 == l) = some (l, false)) :
    scrubWord w s = ({ s with mem := { s.mem with upsets := s.mem.upsets.filter fun u => u.1 != l } } : State).logEcc
      (memBase + 8 * w) (s.mem.locate (memBase + 8 * w)).1 3 0xFF := by
  subst hl
  simp only [scrubWord, h]

theorem scrubWord_double {s : State} {w l : Nat} (hl : l = s.mem.loc (memBase + 8 * w) / 8) (h : s.mem.upsets.find? (fun u => u.1 == l) = some (l, true)) :
    scrubWord w s = s.logEcc (memBase + 8 * w) (s.mem.locate (memBase + 8 * w)).1 4 0xFF := by
  subst hl
  simp only [scrubWord, h]

theorem execPatrolScrub_word {s : State} {w : Nat} (hl : s.live = true) (hw : nextScrub s.mem 400 s.mem.scrub = some w) (u : State)
    (hu : scrubWord w s = u) : execPatrolScrub none s = .next { u with mem := { u.mem with scrub := (w + 1) % 8388608 } } := by
  subst hu
  simp only [execPatrolScrub, hl, if_true, hw]
  rfl

/-! ### DMA -/

theorem execDmaBurst_next {s : State} {f : Bool} {clash : Option Clash} {n : Nat} (hl : s.live = true) (h : nextDma s = some n) :
    execDmaBurst f clash s = .next (dmaBurst n f clash { s with mem := { s.mem with lastDma := n } }) := by
  simp only [execDmaBurst, hl, if_true, h]

theorem ioBurstOk_memory {a : Nat} (n : Nat) (h : inIo a = false) : ioBurstOk a n = true := by
  simp only [ioBurstOk, h, Bool.not_false, Bool.true_or]

/-- A burst between two ranges outside the I/O space that the checks let through. -/
theorem dmaBurst_memory {u v : State} {n : Nat} {f : Bool} {clash : Option Clash} {c : DmaChan} {d : DmaDesc} (hc : c = u.dmaChan n) (hd : c.run = some d)
    (hfs : bitOf d.ctrl 3 = false) (hfd : bitOf d.ctrl 4 = false) (his : inIo c.source = false) (hid : inIo c.dest = false)
    (hjs : (judgeDma u n c.source c.burst .load).1 = .ok) (hjd : (judgeDma u n c.dest c.burst .store).1 = .ok)
    (hecc : u.eccRead 0x12 c.source c.burst = (v, none)) :
    dmaBurst n f clash u = (fun w => if c.moved + c.burst = d.length then dmaDone n f w else w)
      ((storeAs clash (dmaMaster n c) c.dest (v.memRead c.source c.burst) v).modDma n fun x => { x with moved := x.moved + c.burst }) := by
  subst hc
  obtain ⟨xs, hxs⟩ : ∃ x, judgeDma u n (u.dmaChan n).source (u.dmaChan n).burst .load = (.ok, x) := ⟨_, Prod.ext hjs rfl⟩
  obtain ⟨xd, hxd⟩ : ∃ x, judgeDma u n (u.dmaChan n).dest (u.dmaChan n).burst .store = (.ok, x) := ⟨_, Prod.ext hjd rfl⟩
  simp only [dmaBurst, hd, hfs, hfd, his, hid, ioBurstOk_memory, hxs, hxd, hecc, if_true, Bool.false_eq_true, if_false]

theorem startDma_ready {s : State} {n : Nat} (h : (s.dmaChan n).state = .idle ∨ (s.dmaChan n).state = .stopped ∨ (s.dmaChan n).state = .aborted) :
    startDma n s = loadDesc n false (s.modDma n fun c =>
      { c with state := .running, cur := c.desc, run := none, moved := 0, skipped := 0, waitBeat := none, stopReq := false }) := by
  rcases h with h | h | h <;> simp only [startDma, h]

theorem startDma_busy {s : State} {n : Nat} (h : (s.dmaChan n).state = .running ∨ (s.dmaChan n).state = .waiting ∨ (s.dmaChan n).state = .frozen) :
    startDma n s = s := by
  rcases h with h | h | h <;> simp only [startDma, h]

/-- What STOP does to a channel (Table 15.16). -/
theorem stopDma_eq (n : Nat) (s : State) : stopDma n s = s.modDma n fun c =>
    if c.state = .running ∨ c.state = .waiting then { c with state := .stopped, waitBeat := none } else if c.state = .frozen then { c with stopReq := true } else c := by
  unfold stopDma
  congr 1
  funext c
  cases c.state <;> rfl

theorem loadDesc_read {s v : State} {n : Nat} {f : Bool} (hj : (judgeDma s n (s.dmaChan n).cur 32 .load).1 = .ok) (hio : inIo (s.dmaChan n).cur = false)
    (hecc : s.eccRead 0x12 (s.dmaChan n).cur 32 = (v, none)) :
    loadDesc n f s = if descOk n (descOf (s.memRead (s.dmaChan n).cur 32)) then
      v.modDma n fun c => { c with run := some (descOf (s.memRead (s.dmaChan n).cur 32)), moved := 0, skipped := 0
                                   waitBeat := if bitOf (descOf (s.memRead (s.dmaChan n).cur 32)).ctrl 5 then some v.time.beat else none }
      else abortDma n v := by
  obtain ⟨x, hx⟩ : ∃ x, judgeDma s n (s.dmaChan n).cur 32 .load = (.ok, x) := ⟨_, Prod.ext hj rfl⟩
  simp only [loadDesc, hx, hio, hecc, Bool.false_eq_true, if_false]

/-! ### MB_CTRL.POWER and THAW -/

theorem ctrlPower_owner {s : State} {n v : Nat} {p : BankPower} (hp : bankPowerOf v = some p) (ho : (s.bank n).ownerA = 7) (hs : (s.bank n).shadowed = false)
    (hc : (s.bank n).crit = false ∨ p ≠ .off) : ctrlPower n v s = s.modBank n fun b => b.request p := by
  simp only [ctrlPower, hp]
  refine if_pos ⟨ho, by simp [hs], fun ⟨hcrit, hoff, _⟩ => ?_⟩
  rcases hc with hc | hc
  · simp [hc] at hcrit
  · exact hc hoff

/-- RETRY and SKIP of a core (Table 15.13). -/
theorem thaw_core {s : State} {n sub opt : Nat} (hn : n ≤ 6) (hopt : opt ≤ 1) :
    thaw n sub opt s = (thawRecord n 0 (opt + 1) s).modCore n fun c => { c with mode := .running, pc := if opt = 1 then c.skipTo else c.pc } := by
  have hdma : n ≠ 0x12 := by omega
  have hopt2 : opt ≠ 2 := by omega
  have huc : n ≠ 7 := by omega
  simp only [thaw, hdma, hopt2, huc, if_false, resumeCore, beq_iff_eq]

end Sys2Proof.Machine

open Sys2Proof Sys2Proof.Machine

/-- Settles O17: the pipeline's reply to each command's effect; a bank's request and its gift by the cases of their definitions. -/
theorem memoryCommands : Obligations.MemoryCommands := by
  unfold Obligations.MemoryCommands
  refine ⟨fun b p => ⟨Bank.request_goal, Bank.request_moving, Bank.request_still⟩, fun b o u => Bank.give_other u, fun q s => ?_⟩
  refine ⟨fun h => runHost_effect h rfl, fun h => runHost_effect h rfl, fun h => runHost_effect h rfl, fun h => runHost_effect h rfl, ?protSet,
    fun h => runHost_effect h rfl, fun h => runHost_effect h rfl, fun h => runHost_effect h rfl, fun h => runHost_effect h rfl,
    fun h => runHost_effect h rfl, ?memRead, fun h => runHost_effect h rfl⟩
  case protSet =>
    rintro h w rfl
    exact runHost_effect h rfl
  case memRead =>
    refine fun h t o he => ⟨fun ho => ?_, fun ho => runHost_effect h (memReadCmd_effect_bad he ho)⟩
    subst ho
    exact runHost_effect h (memReadCmd_effect_good he)

/-- Settles O19: each event by the branch of its definition that the premises select. -/
theorem bankAndDmaEvents : Obligations.BankAndDmaEvents := by
  unfold Obligations.BankAndDmaEvents
  intro s hl
  have live {a b : State} : (if s.live = true then a else b) = a := if_pos hl
  refine ⟨?powerDone, ?drain, ?drained, ?clean, ?upset, ?burst, ?channel, ?load, ?coll, ?power, ?register, ?thaw⟩
  case powerDone =>
    rintro n p m hp rfl
    exact congrArg Host.Outcome.next (live.trans (State.bankDone_moving hp))
  case drain => exact fun n => congrArg Host.Outcome.next live
  case drained =>
    rintro n u ha hb rfl
    exact State.drained_portA ha hb
  case clean =>
    rintro w t hw rfl hu
    exact execPatrolScrub_word hl hw s (scrubWord_clean hu)
  case upset =>
    intro w l u hw hl'
    exact ⟨fun hu hv => execPatrolScrub_word hl hw u ((scrubWord_single hl' hu).trans hv.symm),
      fun hu hv => execPatrolScrub_word hl hw u ((scrubWord_double hl' hu).trans hv.symm)⟩
  case burst =>
    rintro f clash n c d u v w hn rfl rfl hd hfs hfd his hid hjs hjd hecc rfl
    exact (execDmaBurst_next hl hn).trans (congrArg Host.Outcome.next (dmaBurst_memory rfl hd hfs hfd his hid hjs hjd hecc))
  case channel =>
    intro n hn
    refine ⟨fun h => ?_, fun h => ?_, ?_, fun v => ?_⟩
    · exact congrArg Host.Outcome.next ((if_pos ⟨hl, hn⟩).trans (startDma_ready h))
    · exact congrArg Host.Outcome.next ((if_pos ⟨hl, hn⟩).trans (startDma_busy h))
    · exact congrArg Host.Outcome.next ((if_pos ⟨hl, hn⟩).trans (stopDma_eq n s))
    · exact congrArg Host.Outcome.next (if_pos ⟨hl, hn⟩)
  case load =>
    rintro n u a v d rfl hj hio hecc rfl rfl
    exact loadDesc_read hj hio hecc
  case coll => exact fun m n hlo hhi hm => congrArg Host.Outcome.next (live.trans (if_pos ⟨hlo, hhi, hm⟩))
  case power => exact fun n v p hp ho hs hc => congrArg Host.Outcome.next (live.trans (ctrlPower_owner hp ho hs hc))
  case register => exact fun a v hlo hhi hal => congrArg Host.Outcome.next (if_pos ⟨hl, decide_eq_true ⟨hlo, hhi⟩, hal⟩)
  case thaw =>
    rintro q n h rfl hn hopt
    exact runHost_effect h (Prod.ext (thaw_core hn hopt) rfl)

end

section
/-! PROOFS. Start-up, firmware and diagnostics, and the debug port (R476–R482, R500–R502). -/

namespace Sys2Proof.Machine
open Sys2Proof

/-! ### Commands -/

section
variable {q : Qcp} {s : State}

theorem faultLogCmd_effect_trips (h : q.u 0 1 = 1) :
    faultLogCmd.effect q s = (s, .ok (u32 s.tripLog.length ++ logSlice TripRec.bytes 16 s.tripLog (q.u 2 2) (q.u 1 1))) := by
  simp only [faultLogCmd, h, if_true]

theorem faultLogCmd_effect_faults (h : q.u 0 1 = 0) :
    faultLogCmd.effect q s = (s, .ok (u32 s.faultLog.length ++ logSlice FaultRec.bytes 16 s.faultLog (q.u 2 2) (q.u 1 1))) := by
  simp only [faultLogCmd, h, Nat.zero_ne_one, if_false]

/-- ACTION 0: the slot goes on trial. -/
theorem fwActivateCmd_effect_trial (h : q.u 1 1 = 0) :
    fwActivateCmd.effect q s = ({ s with nv := { s.nv with bootSel := s.nv.bootSel.try_ (q.u 0 1) } }, .ok []) := if_pos h

/-- ACTION 1: the trial is committed. -/
theorem fwActivateCmd_effect_commit (h : q.u 1 1 = 1) :
    fwActivateCmd.effect q s = (({ s with
      nv := { s.nv with bootSel := { s.nv.bootSel with trial := false }, rollback := max s.nv.rollback s.boot.level }
      boot := { s.boot with trial := false } } : State).fwEvent 3 none (some (q.u 0 1)) none, .ok []) :=
  if_neg (by omega)

end

/-! ### Ends of verifications, swaps and self-tests -/

section
variable {s : State}

theorem execFwVerifyComplete_live (image : ImageRead) (hl : s.live = true) : execFwVerifyComplete image s = .next (verifyDone image s) :=
  congrArg Host.Outcome.next (if_pos hl)

theorem verifyDone_unreadable {image : ImageRead} {slot : Nat} {o : Origin} {stale : Bool} {rest : List (Nat × Origin × Bool)}
    (h : s.boot.verifying = (slot, o, stale) :: rest) (hi : image.readable = false) :
    verifyDone image s = (s.modBoot fun b => { b with verifying := rest }).complete o stTimeout [] := by
  simp only [verifyDone, h, hi, Bool.not_false, if_true]

theorem verifyDone_readable {image : ImageRead} {slot : Nat} {o : Origin} {stale : Bool} {rest : List (Nat × Origin × Bool)}
    (h : s.boot.verifying = (slot, o, stale) :: rest) (hi : image.readable = true) :
    verifyDone image s = ({ s with
      nv := { s.nv with verified := modAt s.nv.verified slot fun _ => image.status s.nv.rollback == 0 && !stale }
      boot := { s.boot with verifying := rest
                            versions := s.boot.versions.take (3 * slot) ++ image.versions ++ s.boot.versions.drop (3 * slot + 3) } } : State).complete
      o stOk (u8 (image.status s.nv.rollback) ++ rsv 3 ++ (image.versions.map u32).flatten) := by
  simp only [verifyDone, h, hi, Bool.not_true, Bool.false_eq_true, if_false]
  rfl

/-- The groups of a loop core come back at the first boundary after it went out (R479, step 4). -/
theorem execLoopSwapComplete_due {core b : Nat} {w : LoopSwap} (hl : s.live = true) (hon : s.on 8 = true) (ht : s.time.tick = 0)
    (hw : (s.boot.loopSwaps.find? fun w => w.core == core) = some w) (hb : w.outBeat = some b) (hlt : b < s.time.beat) :
    execLoopSwapComplete core s = .next (loopReturn w s) := by
  simp only [execLoopSwapComplete, hw, hl, hon, ht, hb, hlt, beq_self_eq_true, decide_true, Bool.and_self, if_true]

theorem execNavSwapComplete_ready {w : NavSwap} (hl : s.live = true) (hon : s.on 9 = true) (hw : s.boot.navSwap = some w) (hr : w.ready = true) :
    execNavSwapComplete s = .next (navSwapDone w s) := by
  simp only [execNavSwapComplete, hw, hl, hon, hr, Bool.and_self, if_true]

/-- The oldest self-test ends: its completion, and a notice where a test failed (R482). -/
theorem execSelftestComplete_oldest {failed : Nat} {codes : List Nat} {tests at_ : Nat} {o : Origin} {rest : List (Nat × Origin × Nat)} (hl : s.live = true)
    (h : s.boot.selftests = (tests, o, at_) :: rest) :
    execSelftestComplete failed codes s = .next ((fun u => if tests &&& failed = 0 then u else u.diagEvent 2 none)
      (({ s with boot := { s.boot with selftests := rest } } : State).complete o stOk (u8 (tests - (tests &&& failed)) ++ u8 (tests &&& failed) ++ rsv 2
        ++ u32 (sat32 ((s.now - at_) / 64000)) ++ ((List.range 6).map fun i => u32 (((codes[i]?).getD 0) % 2 ^ 32)).flatten))) := by
  simp only [execSelftestComplete, hl, h, Bool.not_true, Bool.false_eq_true, if_false]
  rfl

/-! ### The debug port -/

variable {key : BitVec 256} {check : Word}

/-- An Update-DR of PROVISION while nothing is programmed. -/
theorem execProvisionUpdate_taken (hon : s.on 2 = true) (hp : s.tap.prov ≠ 1) {v : Nat} (hv : provisionState key check s = v) :
    execProvisionUpdate key check s = .next { s with tap := { ir := 0xA0, prov := v, key := if v = 1 then key else s.tap.key } } := by
  subst hv
  refine congrArg Host.Outcome.next (if_neg ?_)
  simp [hon, hp]

theorem provisionState_installed (h : s.installed = true) : provisionState key check s = 4 := if_pos h

theorem provisionState_done (hi : s.installed = false) (h : s.nv.rk1Done = true) : provisionState key check s = 3 := by
  simp only [provisionState, hi, h, Bool.false_eq_true, if_false, if_true]

section
variable (hi : s.installed = false) (hd : s.nv.rk1Done = false)
include hi hd

theorem provisionState_badCrc (h : crc32c (leBytes 32 key.toNat) ≠ check.toNat) : provisionState key check s = 5 := by
  simp only [provisionState, hi, hd, Bool.false_eq_true, if_false]
  exact if_pos h

theorem provisionState_goodCrc (h : crc32c (leBytes 32 key.toNat) = check.toNat) :
    provisionState key check s = if s.nv.rk1Open ∧ s.nv.rk1 &&& ~~~key ≠ 0 then 7 else 1 := by
  simp only [provisionState, hi, hd, Bool.false_eq_true, if_false]
  exact if_neg (not_not_intro h)

end

theorem execProvisionDone_programming (blown : Bool) (hon : s.on 2 = true) (hp : s.tap.prov = 1) :
    execProvisionDone blown s = .next (if blown then
      { s with nv := { s.nv with rk1 := s.tap.key, rk1Done := true, rk1Open := false }, tap := { s.tap with prov := 2 } }
      else (cutProvision s).modTap fun t => { t with prov := 6 }) := by
  refine congrArg Host.Outcome.next (if_neg ?_)
  simp [hon, hp]

end

end Sys2Proof.Machine

open Sys2Proof Sys2Proof.Machine

/-- Settles O20: the pipeline's reply to each command's effect; FAULT_LOG and FW_ACTIVATE by the field that selects their case. -/
theorem firmwareAndDiagnosticCommands : Obligations.FirmwareAndDiagnosticCommands := by
  unfold Obligations.FirmwareAndDiagnosticCommands
  intro q s
  refine ⟨fun h => runHost_effect h rfl, fun h => runHost_effect h rfl, ?faultLog, fun h => runHost_effect h rfl, ?counters,
    fun h => runHost_effect h rfl, fun done h => runHost_effect h rfl, fun h => runHost_effect h rfl, ?activate,
    fun image h => runHost_effect h rfl, ?navSwap, fun h => runHost_effect h rfl⟩
  case faultLog =>
    exact fun h => ⟨fun h1 => runHost_effect h (faultLogCmd_effect_trips h1), fun h0 => runHost_effect h (faultLogCmd_effect_faults h0)⟩
  case counters =>
    rintro h cs rfl
    exact runHost_effect h rfl
  case activate =>
    exact fun h => ⟨fun h0 => runHost_effect h (fwActivateCmd_effect_trial h0), fun h1 => runHost_effect h (fwActivateCmd_effect_commit h1)⟩
  case navSwap =>
    rintro image u h rfl
    exact runHost_effect h rfl

/-- Settles O21: each event by the branch of its definition that the premises select; `cutProvision_blows` gives the bits of an interrupted RK1. -/
theorem firmwareEventsAndDebugPort : Obligations.FirmwareEventsAndDebugPort := by
  unfold Obligations.FirmwareEventsAndDebugPort
  intro s
  refine ⟨?verify, ?loopSwap, fun w hl hon hw hr => execNavSwapComplete_ready hl hon hw hr, ?selftest,
    fun hon => congrArg Host.Outcome.next (if_pos hon), ?provision, ?done⟩
  case verify =>
    rintro image slot o stale rest st hl hv rfl
    exact ⟨fun hi => (execFwVerifyComplete_live image hl).trans (congrArg _ (verifyDone_unreadable hv hi)),
      fun hi => (execFwVerifyComplete_live image hl).trans (congrArg _ (verifyDone_readable hv hi))⟩
  case loopSwap => exact fun core w b hl hon ht hw hb hlt => execLoopSwapComplete_due hl hon ht hw hb hlt
  case selftest =>
    rintro failed codes tests o at_ rest u hl h rfl
    exact execSelftestComplete_oldest hl h
  case provision =>
    intro key check hon hp
    refine ⟨fun hi => execProvisionUpdate_taken hon hp (provisionState_installed hi),
      fun hi hd => execProvisionUpdate_taken hon hp (provisionState_done hi hd),
      fun hi hd hc => execProvisionUpdate_taken hon hp (provisionState_badCrc hi hd hc), fun hi hd hc => ⟨fun ho hk => ?_, fun h => ?_⟩⟩
    · exact execProvisionUpdate_taken hon hp ((provisionState_goodCrc hi hd hc).trans (if_pos ⟨ho, hk⟩))
    · refine execProvisionUpdate_taken hon hp ((provisionState_goodCrc hi hd hc).trans (if_neg fun ⟨ho, hk⟩ => ?_))
      rcases h with h | h
      · simp [h] at ho
      · exact hk h
  case done =>
    intro hon hp
    refine ⟨execProvisionDone_programming true hon hp, ?_⟩
    obtain ⟨m, n, hcut⟩ := cutProvision_blows s hp
    refine ⟨m, n, (execProvisionDone_programming false hon hp).trans ?_⟩
    rw [hcut]
    rfl

end

section
/-! PROOFS. Power, the Percolator and its ticks (R451–R470). -/

namespace Sys2Proof.Machine
open Sys2Proof

/-! ### POWER_STATE and DOMAIN_SET -/

section
variable {q : Qcp} {s : State} {d : BitVec 16}

/-- The lanes that stay on after a change to a set carry the admitted total (R116). -/
def lanesKept (d : BitVec 16) (s : State) : Prop :=
  ((goingOff s.power.domains d).any fun n => n == 5 || n == 6) = false ∨ lanesFit d s = true

theorem orBudget_kept (f : State → State × Reply) (h : lanesKept d s) : orBudget d f s = f s := by
  refine if_neg ?_
  rcases h with h | h <;> simp only [h, Bool.false_and, Bool.not_true, Bool.and_false, Bool.false_eq_true, not_false_eq_true]

theorem orBudget_short (f : State → State × Reply) (h : ¬lanesKept d s) :
    ∃ n, orBudget d f s = ({ s with freeCtr := s.freeCtr + 1 }, .budget s.admitted (limitFor (d.getLsbD 5) (d.getLsbD 6)) n) := by
  have hshort : (((goingOff s.power.domains d).any fun n => n == 5 || n == 6) && !lanesFit d s) = true := by
    unfold lanesKept at h
    push Not at h
    obtain ⟨hany, hfit⟩ := h
    rw [Bool.eq_true_of_not_eq_false hany, Bool.eq_false_of_not_eq_true hfit]
    rfl
  exact ⟨_, (if_pos hshort).trans rfl⟩

/-- RUN or WATCH before a descent: the blocks are stopped first where FORCE asks for it. -/
def forced (q : Qcp) (s : State) : State := if q.u 1 1 = 1 ∧ s.power.state = .run then descent s else s

/-- POWER_STATE to RUN: the domains switch, or WATCH is left. -/
def powerRun (d : BitVec 16) (s : State) : State × Reply :=
  if s.power.state = .watch then (enterRun d .command 0xFF s, .ok [])
  else (enterState .run .command 0xFF { applyDomains d s with power := { (applyDomains d s).power with runSet := d } }, .ok [])

/-- POWER_STATE to WATCH or PARKED. -/
def powerDown (q : Qcp) (s : State) : State × Reply :=
  if q.u 0 1 = 1 then (enterWatch (retOf q) (forced q s), .ok [])
  else ({ loseCarafe (forced q s) with power := { (loseCarafe (forced q s)).power with parking := true } }, .ok [])

theorem powerRun_watch (h : s.power.state = .watch) : powerRun d s = (enterRun d .command 0xFF s, .ok []) := by
  unfold powerRun
  rw [if_pos h]

theorem powerRun_awake (h : s.power.state ≠ .watch) :
    powerRun d s = (enterState .run .command 0xFF { applyDomains d s with power := { (applyDomains d s).power with runSet := d } }, .ok []) := by
  unfold powerRun
  rw [if_neg h]

theorem powerDown_watch (h : q.u 0 1 = 1) : powerDown q s = (enterWatch (retOf q) (forced q s), .ok []) := by
  unfold powerDown
  rw [if_pos h]

theorem powerDown_parked {u : State} (h : q.u 0 1 ≠ 1) (hu : forced q s = u) :
    powerDown q s = ({ loseCarafe u with power := { (loseCarafe u).power with parking := true } }, .ok []) := by
  subst hu
  unfold powerDown
  rw [if_neg h]

theorem powerState_run (h : q.u 0 1 = 0) : powerState q s = orBudget (targetSet q s) (powerRun (targetSet q s)) s := if_pos h

theorem powerState_down (h : q.u 0 1 ≠ 0) :
    powerState q s = if q.u 1 1 = 1 then powerDown q s else orBudget (targetSet q s) (powerDown q) s := by
  unfold powerState
  extract_lets force d go
  have hgo : go = powerDown q := by
    funext u
    unfold go powerDown forced
    congr
  rw [if_neg h, hgo]

theorem powerState_down_kept (h : q.u 0 1 ≠ 0) (hk : q.u 1 1 = 1 ∨ lanesKept (targetSet q s) s) : powerState q s = powerDown q s := by
  rw [powerState_down h]
  split
  next => rfl
  next hf => exact orBudget_kept _ (hk.resolve_left hf)

theorem powerState_short (hk : ¬lanesKept (targetSet q s) s) (hf : q.u 1 1 ≠ 1) :
    ∃ n, powerState q s = ({ s with freeCtr := s.freeCtr + 1 },
      .budget s.admitted (limitFor ((targetSet q s).getLsbD 5) ((targetSet q s).getLsbD 6)) n) := by
  by_cases h : q.u 0 1 = 0
  · rw [powerState_run h]
    exact orBudget_short _ hk
  · rw [powerState_down h, if_neg hf]
    exact orBudget_short _ hk

theorem execPowerState_admits (save : SaveEnd) (h : admits powerStateCmd q s = true) :
    execPowerState q save s = .next (if (powerStateCmd.answer q (powerState q s).1 (powerState q s).2).power.parking
      then park save (powerStateCmd.answer q (powerState q s).1 (powerState q s).2)
      else powerStateCmd.answer q (powerState q s).1 (powerState q s).2) := by
  have heffect : powerStateCmd.effect q s = ((powerState q s).1, (powerState q s).2) := rfl
  unfold execPowerState
  rw [runHost_effect h heffect]

theorem domainSetCmd_effect_kept (hk : lanesKept (domainsAfter q s) s) :
    domainSetCmd.effect q s = (enterState .run .command 0xFF
      { applyDomains (domainsAfter q s) s with power := { (applyDomains (domainsAfter q s) s).power with runSet := domainsAfter q s } }, .ok []) := by
  unfold domainSetCmd
  dsimp only
  rw [orBudget_kept _ hk]

end

theorem park_power (save : SaveEnd) (s : State) :
    (park save s).power.phase = .parked ∧ (park save s).power.state = .parked ∧ (park save s).power.domains = 0x0001 := by
  obtain ⟨hstate, _⟩ := enterState_power .parked .command 0xFF (captureRef s)
  unfold park
  generalize enterState .parked .command 0xFF (captureRef s) = u at hstate ⊢
  have hdown := goDown_power .parked (decant 2 save u)
  rw [decant_power] at hdown
  dsimp only
  generalize goDown .parked (decant 2 save u) = v at hdown ⊢
  show v.power.phase = .parked ∧ v.power.state = .parked ∧ v.power.domains = 0x0001
  rw [hdown]
  exact ⟨rfl, hstate, rfl⟩

/-! ### A Percolator tick -/

/-- What every tick does: the clock counts 32 periods, and the supply and the temperature are read. -/
def tickStart (x : PercIn) (s : State) : State :=
  { s with
    perc := { s.perc with rtc := s.perc.rtc + 32 }
    power := { s.power with vbat := x.vbat, temp := x.temp, tempMin := min s.power.tempMin x.temp, tempMax := max s.power.tempMax x.temp } }

/-- The wake that the rules of a tick ask for, at its end. -/
def endTick : State × Option (Nat × Nat) → State
  | (s, some (n, t)) => wakeUp n t s
  | (s, none) => s

/-- The rules of a tick, over the state in which its sources have been read. -/
def tickRules (x : PercIn) (a : State) : State × Option (Nat × Nat) :=
  (List.range 32).foldl (evalRule (percSources x a) x.sameTick) ({ a with perc := { a.perc with filtered := percSources x a } }, none)

theorem percTick_off {x : PercIn} {s : State} (h : s.perc.cfg.enable = false ∨ s.perc.halted = true) : percTick x s = tickStart x s := by
  have hoff : (!(tickStart x s).perc.cfg.enable || (tickStart x s).perc.halted) = true := by
    show (!s.perc.cfg.enable || s.perc.halted) = true
    rcases h with h | h <;> simp only [h, Bool.not_false, Bool.true_or, Bool.or_true]
  unfold percTick
  extract_lets u v
  exact if_pos hoff

theorem percTick_on {x : PercIn} {s a : State} (he : s.perc.cfg.enable = true) (hh : s.perc.halted = false)
    (ha : a = readAcc x.acc { tickStart x s with perc := { (tickStart x s).perc with ticks := sat32 ((tickStart x s).perc.ticks + 1) } }) :
    percTick x s = endTick (tickRules x a) := by
  have hon : ¬(!(tickStart x s).perc.cfg.enable || (tickStart x s).perc.halted) = true := by
    show ¬(!s.perc.cfg.enable || s.perc.halted) = true
    simp only [he, hh, Bool.not_true, Bool.or_self, Bool.false_eq_true, not_false_eq_true]
  unfold percTick
  extract_lets u v b src c
  refine (if_neg hon).trans ?_
  have hrun : (List.range 32).foldl (evalRule src x.sameTick) (c, none) = tickRules x a := by
    rw [ha]
    rfl
  rw [hrun]
  rcases tickRules x a with ⟨t, _ | ⟨n, m⟩⟩
  · rfl
  · rfl

/-! ### The evaluation of a rule (R466) -/

/-- A filter keeps the count and the arming of its rule. -/
theorem filterStep_count {r : PercRule} {k k' : RuleRun} {x y : Int} (h : filterStep r k x = (k', y)) : k'.cnt = k.cnt ∧ k'.armed = k.armed := by
  have hk : (filterStep r k x).1 = k' := congrArg Prod.fst h
  subst hk
  exact ⟨rfl, rfl⟩

section
variable {src : List Int} {b : Bool} {s : State} {w : Option (Nat × Nat)} {n : Nat} {r : PercRule} {k k' : RuleRun} {y : Int}

/-- The run of a rule takes its count and arming, and its source the filtered value. -/
def ruleRun (s : State) (n : Nat) (r : PercRule) (k : RuleRun) (y : Int) (c : Nat) (m : Bool) : State :=
  { s with perc := { s.perc with
      runs := modAt s.perc.runs n fun _ => { k with cnt := c, armed := m }, filtered := modAt s.perc.filtered r.src fun _ => y / 65536 } }

/-- What a firing rule leaves (R467), and the wake it adds. -/
def ruleFired (n : Nat) (r : PercRule) (y : Int) (b : Bool) (s : State) : State :=
  if r.does 5 then { fireRule n r y b s with perc := { (fireRule n r y b s).perc with rules := modAt (fireRule n r y b s).perc.rules n fun r => { r with enable := false } } }
  else fireRule n r y b s

section
variable (hr : s.perc.rules[n]? = some r) (hk : s.perc.runs[n]? = some k)
include hr hk

theorem evalRule_inactive (h : ¬(r.enable = true ∧ r.activeIn s.power.state = true)) : evalRule src b (s, w) n = (s, w) := by
  simp only [evalRule, hr, hk]
  refine if_pos ?_
  rw [Bool.not_eq_true', Bool.eq_false_iff, ne_eq, Bool.and_eq_true]
  exact h

variable (hf : filterStep r k ((src[r.src]?).getD 0) = (k', y)) (he : r.enable = true) (ha : r.activeIn s.power.state = true)
include hf he ha

theorem evalRule_fails (hcount : 1 ≤ r.count) (h : r.holds y = false) : evalRule src b (s, w) n = (ruleRun s n r k' y 0 true, w) := by
  have hlow : ¬r.count ≤ 0 := by omega
  simp [evalRule, hr, hk, he, ha, hf, h, hlow, ruleRun, State.modPerc]

/-- The condition holds, but the rule is not due or not armed. -/
theorem evalRule_waits (h : r.holds y = true) (hw : min (k.cnt + 1) 255 < r.count ∨ k.armed = false) :
    evalRule src b (s, w) n = (ruleRun s n r k' y (min (k.cnt + 1) 255) k.armed, w) := by
  obtain ⟨hcnt, harmed⟩ := filterStep_count hf
  have hquiet : (decide (r.count ≤ min (k.cnt + 1) 255) && k.armed) = false := by
    rcases hw with hw | hw
    · rw [decide_eq_false (by omega), Bool.false_and]
    · rw [hw, Bool.and_false]
  simp only [evalRule, hr, hk, he, ha, hf, h, hcnt, harmed, hquiet, Bool.and_self, Bool.not_true, Bool.not_false, Bool.and_true, Bool.false_eq_true, if_false, if_true]
  rfl

theorem evalRule_fires (h : r.holds y = true) (hc : r.count ≤ min (k.cnt + 1) 255) (harm : k.armed = true) :
    (evalRule src b (s, w) n).1 = ruleFired n r y b (ruleRun s n r k' y (min (k.cnt + 1) 255) false)
    ∧ (r.does 0 = true → w = none → (evalRule src b (s, w) n).2 = some (n, r.target)) := by
  obtain ⟨hcnt, harmed⟩ := filterStep_count hf
  have hdue : (decide (r.count ≤ min (k.cnt + 1) 255) && k.armed) = true := by
    rw [decide_eq_true hc, harm, Bool.and_self]
  simp only [evalRule, hr, hk, he, ha, hf, h, hcnt, harmed, hdue, Bool.and_self, Bool.not_true, Bool.and_false, Bool.false_eq_true, if_false, if_true]
  refine ⟨rfl, fun hwake hnone => ?_⟩
  rw [if_pos hwake, hnone]

end

end

/-! ### A wake, and a rule's 8 bytes -/

section
variable {n t : Nat} {s : State}

theorem wakeUp_parked (h : s.power.phase = .parked) : wakeUp n t s = { captureRef s with power := { (captureRef s).power with
    phase := .supplyWait .rule (if t = 0 then .run else .watch), rule := n, wake := true, wakeUntilRun := true } } := if_pos h

theorem wakeUp_live (hl : s.live = true) :
    wakeUp n t s = if s.power.state = .watch ∧ t = 0 then enterRun s.power.runSet .rule n s else s := by
  have hphase : s.power.phase = .on := of_decide_eq_true hl
  have hup : ¬s.power.phase = .parked := by simp [hphase]
  unfold wakeUp
  rw [if_neg hup, hl]
  simp only [Bool.true_and, Bool.and_eq_true, beq_iff_eq]

end

theorem leNat_u8 {v : Nat} (h : v < 256) : leNat (u8 v) = v := by
  unfold u8
  rw [leNat_leBytes]
  exact Nat.mod_eq_of_lt h

/-- A rule whose fields fit their places reads back from its bytes (Table 20.7). -/
theorem ruleOf_bytes {r : PercRule} (hfilter : r.filter ≤ 4) (hsrc : r.src < 16) (hshift : r.shift < 16) (hcmp : r.cmp < 4) (hlo : -32768 ≤ r.thresh)
    (hhi : r.thresh < 32768) (hcount : r.count < 256) (htarget : r.target < 4) (hcounter : r.counter < 4) : ruleOf r.bytes = r := by
  have h0 : fieldU r.bytes 0 1 = (if r.enable then 128 else 0) + 16 * r.filter + r.src := leNat_u8 (by split <;> omega)
  have h1 : fieldU r.bytes 1 1 = 16 * r.shift + r.cmp := leNat_u8 (by omega)
  have h2 : fieldI r.bytes 2 2 = r.thresh := toSigned_leBytesI (by omega) hlo hhi
  have h4 : fieldU r.bytes 4 1 = r.count := leNat_u8 hcount
  have h5 : fieldU r.bytes 5 1 = r.action.toNat := leNat_u8 r.action.isLt
  have h6 : fieldU r.bytes 6 1 = 4 * r.counter + r.target := leNat_u8 (by omega)
  have h7 : fieldU r.bytes 7 1 = r.states.toNat := leNat_u8 r.states.isLt
  have henable : bitOf ((if r.enable then 128 else 0) + 16 * r.filter + r.src) 7 = r.enable := by
    unfold bitOf
    cases r.enable
    · simp only [Bool.false_eq_true, if_false, beq_eq_false_iff_ne]
      omega
    · simp only [if_true, beq_iff_eq]
      omega
  have hmid : bitsOf ((if r.enable then 128 else 0) + 16 * r.filter + r.src) 6 4 = r.filter := by
    unfold bitsOf
    split <;> omega
  have hlow : ((if r.enable then 128 else 0) + 16 * r.filter + r.src) % 16 = r.src := by split <;> omega
  have hcnt : bitsOf (4 * r.counter + r.target) 3 2 = r.counter := by
    unfold bitsOf
    omega
  unfold ruleOf
  dsimp only
  rw [h0, h1, h2, h4, h5, h6, h7, henable, hmid, hlow, hcnt, show (16 * r.shift + r.cmp) / 16 = r.shift by omega,
    show (16 * r.shift + r.cmp) % 8 = r.cmp by omega, show (4 * r.counter + r.target) % 4 = r.target by omega, BitVec.ofNat_toNat,
    BitVec.ofNat_toNat, BitVec.setWidth_eq, BitVec.setWidth_eq]

end Sys2Proof.Machine

open Sys2Proof Sys2Proof.Machine

/-- Settles O12: the pipeline's reply to each command's effect; `powerState` by its target and by whether the lanes that stay suffice. -/
theorem powerCommands : Obligations.PowerCommands := by
  unfold Obligations.PowerCommands
  intro q s
  refine ⟨?powerState, ?effect, ?entered, fun save => park_power save s, fun h => runHost_effect h rfl, ?domainSet, fun h => runHost_effect h rfl,
    ?rules, fun h => runHost_effect h rfl, fun h => runHost_effect h rfl, fun h => runHost_effect h rfl⟩
  case powerState =>
    rintro save t h rfl
    exact execPowerState_admits save h
  case effect =>
    refine ⟨fun h0 hk hw => ?_, fun h0 hk hw => ?_, fun h1 hk => ?_, fun h2 hk => ?_, fun hk hf => powerState_short hk hf⟩
    · exact ((powerState_run h0).trans (orBudget_kept _ hk)).trans (powerRun_watch hw)
    · exact ((powerState_run h0).trans (orBudget_kept _ hk)).trans (powerRun_awake hw)
    · exact (powerState_down_kept (by omega) hk).trans (powerDown_watch h1)
    · exact (powerState_down_kept (by omega) hk).trans (powerDown_parked (by omega) rfl)
  case entered =>
    intro st c r
    obtain ⟨hstate, hprev, hrule, htrans, hdt, hdom, _⟩ := enterState_power st c r s
    exact ⟨hstate, hprev, hrule, htrans, hdt, hdom⟩
  case domainSet =>
    rintro d h rfl hk
    exact runHost_effect h (domainSetCmd_effect_kept hk)
  case rules =>
    rintro rs h rfl
    exact runHost_effect h rfl

/-- Settles O15: a tick by whether the Percolator runs, a rule by the cases of R466, and its bytes field by field. -/
theorem percolatorTick : Obligations.PercolatorTick := by
  unfold Obligations.PercolatorTick
  refine ⟨?tick, ?rule, fun n t s => ⟨wakeUp_parked, fun hl hw ht => ?_, fun hl hr => ?_⟩, ?bytes, by decide⟩
  case tick =>
    intro x s u a src v w hu ha hsrc hv
    subst hu hsrc
    have hrun : tickRules x a = (v, w) := hv.symm
    refine ⟨fun h => congrArg Host.Outcome.next (percTick_off h), fun he hh => ?_⟩
    have hon := percTick_on he hh ha
    rw [hrun] at hon
    refine ⟨fun hw => ?_, fun n t hw => ?_⟩
    · subst hw
      exact congrArg Host.Outcome.next hon
    · subst hw
      exact congrArg Host.Outcome.next hon
  case rule =>
    intro src b s w n r k k' y hr hk hf hcount
    refine ⟨fun h => evalRule_inactive hr hk h, fun he ha upd hupd => ?_⟩
    subst hupd
    exact ⟨fun h => evalRule_fails hr hk hf he ha hcount h, fun h hw => evalRule_waits hr hk hf he ha h hw,
      fun h hc harm f hfire => hfire ▸ evalRule_fires hr hk hf he ha h hc harm⟩
  · exact (wakeUp_live hl).trans (if_pos ⟨hw, ht⟩)
  · exact (wakeUp_live hl).trans (if_neg fun h => by simp [hr] at h)
  case bytes =>
    exact fun r h1 h2 h3 h4 h5 h6 h7 h8 h9 => ⟨rfl, ruleOf_bytes h1 h2 h3 h4 h5 h6 h7 h8 h9⟩

end

section
/-! PROOFS. The customer core: its commands, timers, FIFOs, watchdog and swap (R394–R403). -/

namespace Sys2Proof.Machine
open Sys2Proof

/-! ### A timer counts (R395) -/

section
variable {t : UcTimer} {a b : Nat}

theorem UcTimer.ticks_stopped (h : t.en = false ∨ t.armed = true) : UcTimer.ticks a t = t := by
  refine if_pos ?_
  rcases h with h | h <;> simp only [h, Bool.not_false, Bool.true_or, Bool.or_true]

section
variable (he : t.en = true) (ha : t.armed = false)
include he ha

/-- Before its count runs out a timer counts down. -/
theorem UcTimer.ticks_counting (h : a < max 1 t.count) : UcTimer.ticks a t = { t with count := t.count - a } := by
  simp only [UcTimer.ticks, he, ha, Bool.not_true, Bool.or_self, Bool.false_eq_true, if_false, h, if_true]

theorem UcTimer.ticks_oneShot (h : max 1 t.count ≤ a) (hp : t.periodic = false) : UcTimer.ticks a t = { t with count := 0, pend := true, en := false } := by
  simp only [UcTimer.ticks, he, ha, hp, Bool.not_true, Bool.or_self, Bool.false_eq_true, if_false, Nat.not_lt.mpr h]

theorem UcTimer.ticks_periodic (h : max 1 t.count ≤ a) (hp : t.periodic = true) :
    UcTimer.ticks a t = { t with count := max 1 t.load - (a - max 1 t.count) % max 1 t.load, pend := true } := by
  simp only [UcTimer.ticks, he, ha, hp, Bool.not_true, Bool.or_self, Bool.false_eq_true, if_false, if_true, Nat.not_lt.mpr h]

/-- The tick in which the count runs out is the timer's expiry. -/
theorem UcTimer.ticks_one_expire (hc : t.count ≤ 1) (hl : 1 ≤ t.load) : UcTimer.ticks 1 t = t.expire := by
  have hleft : max 1 t.count = 1 := by omega
  have hload : max 1 t.load = t.load := by omega
  cases hp : t.periodic
  · rw [UcTimer.ticks_oneShot he ha (by omega) hp]
    exact (if_neg (by simp [hp])).symm
  · rw [UcTimer.ticks_periodic he ha (by omega) hp, hleft, hload, Nat.sub_self, Nat.zero_mod, Nat.sub_zero]
    exact (if_pos hp).symm

end

/-- Counting a ticks and then b ticks of a period is counting a + b of them. -/
theorem reload_add {p k b : Nat} (hp : 1 ≤ p) :
    (b < p - k % p → p - (k + b) % p = p - k % p - b) ∧ (p - k % p ≤ b → (b - (p - k % p)) % p = (k + b) % p) := by
  have hk : k % p < p := Nat.mod_lt k hp
  have hsplit : (k + b) % p = (k % p + b) % p := (Nat.mod_add_mod k p b).symm
  refine ⟨fun h => ?_, fun h => ?_⟩
  · rw [hsplit, Nat.mod_eq_of_lt (by omega)]
    omega
  · rw [hsplit, ← Nat.sub_add_cancel (show p ≤ k % p + b by omega), Nat.add_mod_right]
    congr 1
    omega

section
variable (b) (he : t.en = true) (ha : t.armed = false)
include he ha

theorem UcTimer.ticks_add_of_counting (h : a < max 1 t.count) : UcTimer.ticks (a + b) t = UcTimer.ticks b (UcTimer.ticks a t) := by
  have hleft : max 1 (t.count - a) = max 1 t.count - a := by omega
  rw [UcTimer.ticks_counting he ha h]
  rcases Nat.lt_or_ge (a + b) (max 1 t.count) with hab | hab
  · rw [UcTimer.ticks_counting he ha hab, UcTimer.ticks_counting (t := { t with count := t.count - a }) he ha (show b < max 1 (t.count - a) by omega),
      Nat.sub_sub]
  · have hb : max 1 (t.count - a) ≤ b := by omega
    rcases Bool.eq_false_or_eq_true t.periodic with hp | hp
    · rw [UcTimer.ticks_periodic he ha hab hp, UcTimer.ticks_periodic (t := { t with count := t.count - a }) he ha hb hp, hleft,
        show a + b - max 1 t.count = b - (max 1 t.count - a) by omega]
    · rw [UcTimer.ticks_oneShot he ha hab hp, UcTimer.ticks_oneShot (t := { t with count := t.count - a }) he ha hb hp]

theorem UcTimer.ticks_add_of_expired (h : max 1 t.count ≤ a) : UcTimer.ticks (a + b) t = UcTimer.ticks b (UcTimer.ticks a t) := by
  rcases Bool.eq_false_or_eq_true t.periodic with hp | hp
  · obtain ⟨hcount, hreload⟩ := reload_add (p := max 1 t.load) (k := a - max 1 t.count) (b := b) (by omega)
    have hk := Nat.mod_lt (a - max 1 t.count) (show 0 < max 1 t.load by omega)
    rw [show a - max 1 t.count + b = a + b - max 1 t.count by omega] at hcount hreload
    rw [UcTimer.ticks_periodic he ha h hp, UcTimer.ticks_periodic he ha (by omega) hp]
    set c := max 1 t.load - (a - max 1 t.count) % max 1 t.load with hc
    have hpos : max 1 c = c := by omega
    rcases Nat.lt_or_ge b c with hb | hb
    · rw [UcTimer.ticks_counting (t := { t with count := c, pend := true }) he ha (show b < max 1 c by omega), hcount hb]
    · rw [UcTimer.ticks_periodic (t := { t with count := c, pend := true }) he ha (show max 1 c ≤ b by omega) hp, hpos, hreload hb]
  · rw [UcTimer.ticks_oneShot he ha h hp, UcTimer.ticks_oneShot he ha (by omega) hp]
    exact (UcTimer.ticks_stopped (.inl rfl)).symm

end

theorem UcTimer.ticks_add (t : UcTimer) (a b : Nat) : UcTimer.ticks (a + b) t = UcTimer.ticks b (UcTimer.ticks a t) := by
  by_cases hstop : t.en = false ∨ t.armed = true
  · rw [UcTimer.ticks_stopped hstop, UcTimer.ticks_stopped hstop, UcTimer.ticks_stopped hstop]
  · rw [not_or, Bool.not_eq_false, Bool.not_eq_true] at hstop
    obtain ⟨he, ha⟩ := hstop
    rcases Nat.lt_or_ge a (max 1 t.count) with h | h
    · exact UcTimer.ticks_add_of_counting b he ha h
    · exact UcTimer.ticks_add_of_expired b he ha h

end

/-! ### The watchdog and the swap -/

section
variable {s : State} {w : UcSwap}

theorem execSwapForced_idle (h : s.live = false ∨ s.uc.swap = none ∨ s.uc.state ≠ .suspending) : execSwapForced s = .next s := by
  unfold execSwapForced
  split
  next w hw =>
    refine congrArg Host.Outcome.next (if_neg fun ⟨hl, hstate, _⟩ => ?_)
    simp [hl, hstate, hw] at h
  next => rfl

theorem execSwapForced_swap (hw : s.uc.swap = some w) :
    execSwapForced s = .next (if s.live ∧ s.uc.state = .suspending ∧ w.handed = none ∧ w.graceEnd ≤ s.now then swapProgram 0 true s else s) := by
  simp only [execSwapForced, hw]

theorem swapResume_none (h : s.uc.swap = none) : swapResume s = s := by
  simp only [swapResume, h]

theorem swapResume_waits (hw : s.uc.swap = some w) (h : w.handed = none ∨ s.time.beat ≤ w.handBeat) : swapResume s = s := by
  simp only [swapResume, hw]
  cases hh : w.handed with
  | none => rfl
  | some x => exact if_neg (by simpa [hh] using h)

theorem swapResume_handed {word : Word} {forced : Bool} (hw : s.uc.swap = some w) (hh : w.handed = some (word, forced)) (hb : w.handBeat < s.time.beat) :
    swapResume s = ((((s.modCore 7 fun c => { c with mode := .running }).modUc fun u =>
      { u with state := .running, swap := none, swaps := sat32 (u.swaps + 1), wdogLeft := u.wdog * 26000 }).ucEvent 5 none).complete w.origin stOk
        (ub forced ++ rsv 3 ++ u32 (sat32 ((s.now - w.start) / 64000)))) := by
  simp only [swapResume, hw, hh]
  exact if_pos hb

theorem execUcSwapResume_idle (h : s.live = false ∨ s.time.tick ≠ 0 ∨ swapResume s = s) : execUcSwapResume s = .next s := by
  unfold execUcSwapResume
  split
  next hc =>
    obtain ⟨hl, ht⟩ := hc
    rcases h with h | h | h
    · simp [hl] at h
    · exact absurd ht h
    · rw [h]
  next => rfl

end

/-! ### Commands -/

theorem ucStop_state {q : Qcp} {s : State} (h : admits ucStopCmd q s = true) : s.uc.state = .running ∨ s.uc.state = .suspending := by
  obtain ⟨_, hstate, _⟩ := admits_checks _ q s h
  simpa [ucStopCmd] using hstate

theorem ucStart_state {q : Qcp} {s : State} (h : admits ucStartCmd q s = true) : s.uc.state = .stopped := by
  obtain ⟨_, hstate, _⟩ := admits_checks _ q s h
  simpa [ucStartCmd] using hstate

theorem ucSwap_state {q : Qcp} {s : State} (h : admits ucSwapCmd q s = true) : s.uc.state = .running := by
  obtain ⟨_, hstate, _⟩ := admits_checks _ q s h
  simpa [ucSwapCmd] using hstate

end Sys2Proof.Machine

open Sys2Proof Sys2Proof.Machine

/-- Settles O39: commands by the pipeline's reply, events by the branch of their definitions, and a timer's ticks by whether its count runs out. -/
theorem customerCoreCommandsAndBlocks : Obligations.CustomerCoreCommandsAndBlocks := by
  unfold Obligations.CustomerCoreCommandsAndBlocks
  refine ⟨fun q s => ?commands, fun n v s => ?events, fun t a b => ?timer⟩
  case commands =>
    refine ⟨fun h => runHost_effect h rfl, fun h => runHost_effect h rfl, fun h => runHost_effect h rfl, ?start,
      fun h => ⟨ucStop_state h, runHost_effect h rfl⟩, ?swap⟩
    case start =>
      rintro h entry c u rfl rfl rfl
      exact ⟨ucStart_state h, runHost_effect h rfl⟩
    case swap =>
      rintro h w rfl
      exact ⟨ucSwap_state h, runHost_effect h rfl⟩
  case events =>
    refine ⟨fun hoff => ?off, fun hl hon => ?on, ?forced, execSwapForced_idle, ?graceOpen, ?resume, ?waits,
      fun hw => execUcSwapResume_idle (.inr (.inr (swapResume_none hw)))⟩
    case off =>
      have off {P : Prop} [Decidable P] {a : State} (hP : P → s.live = true ∧ s.on 10 = true) : Host.Outcome.next (φ := Fault) (ρ := Refusal) (if P then a else s) = .next s :=
        congrArg Host.Outcome.next (if_neg fun h => hoff (hP h))
      exact ⟨off id, off fun ⟨hl, hon, _⟩ => ⟨hl, hon⟩, off id, off id, off id, off fun ⟨hl, hon, _⟩ => ⟨hl, hon⟩⟩
    case on =>
      have on {a : State} : Host.Outcome.next (φ := Fault) (ρ := Refusal) (if s.live = true ∧ s.on 10 = true then a else s) = .next a :=
        congrArg Host.Outcome.next (if_pos ⟨hl, hon⟩)
      refine ⟨on, fun hn => congrArg Host.Outcome.next (if_neg fun ⟨_, _, h⟩ => by omega), fun hn => congrArg Host.Outcome.next (if_pos ⟨hl, hon, hn⟩),
        fun hv => on.trans (congrArg Host.Outcome.next (if_pos hv)), fun hv => on.trans (congrArg Host.Outcome.next (if_neg (by simp [hv]))),
        fun hroom => on.trans ?_, fun hfull => on.trans ?_, on, fun hr hw hz => congrArg Host.Outcome.next (if_pos ⟨hl, hon, hr, hw, hz⟩), fun hidle => ?_⟩
      · simp only [s15Write, State.modUc, Nat.not_lt.mpr hroom, if_false]
      · simp only [s15Write, State.modUc, hfull, if_true]
      · refine congrArg Host.Outcome.next (if_neg fun ⟨_, _, hr, hw, hz⟩ => ?_)
        rcases hidle with h | h | h
        · exact h hr
        · exact hw h
        · exact h hz
    case forced => exact fun w hw hl hstate hh hg => (execSwapForced_swap hw).trans (congrArg Host.Outcome.next (if_pos ⟨hl, hstate, hh, hg⟩))
    case graceOpen =>
      intro w hw h
      refine (execSwapForced_swap hw).trans (congrArg Host.Outcome.next (if_neg fun ⟨_, _, hh, hg⟩ => ?_))
      rcases h with h | h
      · exact h hh
      · omega
    case resume =>
      rintro w word forced u hw hh hb hl ht rfl
      exact (congrArg Host.Outcome.next (if_pos ⟨hl, ht⟩)).trans (congrArg Host.Outcome.next (swapResume_handed hw hh hb))
    case waits =>
      intro w hw h
      refine execUcSwapResume_idle ?_
      rcases h with h | h | h
      · exact .inl h
      · exact .inr (.inl h)
      · exact .inr (.inr (swapResume_waits hw h))
  case timer =>
    refine ⟨UcTimer.ticks_add t a b, UcTimer.ticks_stopped, fun he ha hc => UcTimer.ticks_counting he ha (by omega),
      fun he ha hc hl => UcTimer.ticks_one_expire he ha hc hl⟩

end

section
/-! PROOFS. Sealed fix records: their counter, their log and their commands (R421–R427). -/

namespace Sys2Proof.Machine
open Sys2Proof

/-! ### Commands -/

section
variable {q : Qcp} {s : State}

/-- The state after SEAL_CFG has taken its fields. -/
def sealTaken (q : Qcp) (s : State) : State :=
  s.modSeal fun v => { v with cfg := sealCfgOf q s.sealing.cfg, count := if (sealCfgOf q s.sealing.cfg).enable && !s.sealing.cfg.enable then 0 else v.count }

theorem sealCfgCmd_effect (q : Qcp) (s : State) : sealCfgCmd.effect q s =
    if !(sealCfgOf q s.sealing.cfg).enable || sealKeyHeld (sealCfgOf q s.sealing.cfg) (sealTaken q s) then (sealTaken q s, .ok [])
    else if (sealTaken q s).cipher.trngFail.isSome then trngFault (sealTaken q s)
    else (deriveSeal (sealCfgOf q s.sealing.cfg) (sealTaken q s), .ok []) := rfl

theorem sealCfgCmd_effect_held (h : (sealCfgOf q s.sealing.cfg).enable = false ∨ sealKeyHeld (sealCfgOf q s.sealing.cfg) (sealTaken q s) = true) :
    sealCfgCmd.effect q s = (sealTaken q s, .ok []) := by
  rw [sealCfgCmd_effect]
  refine if_pos ?_
  rcases h with h | h <;> simp only [h, Bool.not_false, Bool.true_or, Bool.or_true]

section
variable (he : (sealCfgOf q s.sealing.cfg).enable = true) (hk : sealKeyHeld (sealCfgOf q s.sealing.cfg) (sealTaken q s) = false)
include he hk

theorem sealCfgCmd_effect_fault {t : Nat} (h : s.cipher.trngFail = some t) :
    sealCfgCmd.effect q s = ((sealTaken q s).cuFault ((sealTaken q s).deviceUnit.getD 0xFF) 4 0, ⟨stFault, []⟩) := by
  have hfail : (sealTaken q s).cipher.trngFail.isSome = true := by
    show s.cipher.trngFail.isSome = true
    rw [h, Option.isSome_some]
  rw [sealCfgCmd_effect, he, hk, hfail]
  rfl

theorem sealCfgCmd_effect_derive (h : s.cipher.trngFail = none) :
    sealCfgCmd.effect q s = (deriveSeal (sealCfgOf q s.sealing.cfg) (sealTaken q s), .ok []) := by
  have hpass : (sealTaken q s).cipher.trngFail.isSome = false := by
    show s.cipher.trngFail.isSome = false
    rw [h, Option.isSome_none]
  rw [sealCfgCmd_effect, he, hk, hpass]
  rfl

end

theorem sealNow_record (h : admits sealNowCmd q s = true) : ∃ r, s.nav.record (q.u 0 1) = some r := by
  obtain ⟨_, hstate, _⟩ := admits_checks _ q s h
  have hrec : (s.nav.record (q.u 0 1)).isSome = true := hstate _ (.tail _ (.head _))
  exact Option.isSome_iff_exists.mp hrec

section
variable {r : NavRec} {v : State} {ctr : Nat} (hr : s.nav.record (q.u 0 1) = some r) (hv : assignSeal r false (completeSeals s) = (v, ctr))
include hr hv

theorem sealNowCmd_effect_sealed (h : v.cipher.trngFail = none) : sealNowCmd.effect q s =
    (completeSeal false v, .ok (sealBody r false ctr ++ sealTag (completeSeal false v) (sealBody r false ctr))) := by
  simp only [sealNowCmd, hr, hv, h, Option.isSome_none, Bool.false_eq_true, if_false]

theorem sealNowCmd_effect_fault {t : Nat} (h : v.cipher.trngFail = some t) :
    sealNowCmd.effect q s = (completeSeal true (v.cuFault (v.deviceUnit.getD 0xFF) 4 0), ⟨stFault, []⟩) := by
  simp only [sealNowCmd, hr, hv, h, Option.isSome_some, if_true, trngFault]

end

theorem sealVerifyCmd_effect_fault {t : Nat} (h : s.cipher.trngFail = some t) :
    sealVerifyCmd.effect q s = (s.cuFault (s.deviceUnit.getD 0xFF) 4 0, ⟨stFault, []⟩) := by
  simp only [sealVerifyCmd, h, Option.isSome_some, if_true, trngFault]

theorem sealVerifyCmd_effect_pass (h : s.cipher.trngFail = none) : sealVerifyCmd.effect q s =
    if sealTag (deviceOp s) (q.payload.take 48) ≠ q.payload.drop 48 then (deviceOp s, ⟨stTagFail, []⟩)
    else (deviceOp s, .ok (ub (q.u 24 4 == (deviceOp s).nv.epoch.toNat) ++ ub ((deviceOp s).sealing.any && decide (q.u 16 8 ≤ (deviceOp s).sealing.last)) ++ rsv 2)) := by
  simp only [sealVerifyCmd, h, Option.isSome_none, Bool.false_eq_true, if_false]

theorem deviceOp_epoch (s : State) : (deviceOp s).nv.epoch = s.nv.epoch := by
  unfold deviceOp
  split
  · rfl
  · rfl

end

/-! ### The counter (R423) -/

/-- The reservation ceiling lies above every value assigned, and never falls. -/
theorem assignSeal_counter {r : NavRec} {b : Bool} {s t : State} {v : Nat} (hn : s.sealing.next < 0xFFFFFFFFFFFFFFFF) (ht : (t, v) = assignSeal r b s) :
    v = s.sealing.next ∧ t.sealing.next = v + 1 ∧ v < t.nv.ceil ∧ s.nv.ceil ≤ t.nv.ceil ∧ t.sealing.jobs = s.sealing.jobs ++ [⟨v, sealBody r b v⟩] := by
  unfold assignSeal at ht
  extract_lets n ceiling u at ht
  obtain ⟨rfl, rfl⟩ := Prod.mk.inj ht
  have hceil : n < u.nv.ceil ∧ s.nv.ceil ≤ u.nv.ceil := by
    unfold u
    split
    next hle =>
      show n < min (n + 1024) 0xFFFFFFFFFFFFFFFF ∧ s.nv.ceil ≤ min (n + 1024) 0xFFFFFFFFFFFFFFFF
      have : n < 0xFFFFFFFFFFFFFFFF := hn
      omega
    next hlt => exact ⟨Nat.lt_of_not_le hlt, Nat.le_refl _⟩
  have hjobs : u.sealing = s.sealing := by
    unfold u
    split
    · rfl
    · rfl
  refine ⟨rfl, rfl, hceil.1, hceil.2, ?_⟩
  rw [← hjobs]
  rfl

theorem sealBody_length (r : NavRec) (b : Bool) (n : Nat) : (sealBody r b n).length = 48 := rfl

/-! ### A seal completes (R424, R425) -/

/-- A log at its cap keeps its size, and ends with the newest record. -/
theorem pushCap_full {α : Type} {l : List α} {x : α} (h : l.length ≤ 256) : (pushCap 256 l x).length ≤ 256 ∧ (pushCap 256 l x).getLast? = some x := by
  unfold pushCap
  refine ⟨?_, ?_⟩
  · rw [List.length_drop, List.length_append, List.length_singleton]
    omega
  · rw [List.getLast?_drop, List.length_append, List.length_singleton, if_neg (by omega), List.getLast?_concat]

section
variable {f : Bool} {s u : State} {j : SealJob} {js : List SealJob}

theorem completeSeal_none (h : s.sealing.jobs = []) : completeSeal f s = s := by
  simp only [completeSeal, h]

section
variable (h : s.sealing.jobs = j :: js) (hu : u = s.modSeal fun k => { k with jobs := js })
include h hu

theorem completeSeal_fails (hf : f = true ∨ sealSlotActive u = false) :
    completeSeal f s = u.keyEvent u.sealing.cfg.slot 7 (some (j.ctr % 2 ^ 32)) := by
  subst hu
  simp only [completeSeal, h]
  refine if_pos ?_
  rcases hf with hf | hf <;> simp only [hf, Bool.not_false, Bool.true_or, Bool.or_true]

theorem completeSeal_sealed (hf : f = false) (ha : sealSlotActive u = true) :
    completeSeal f s = ((deviceOp u).modSeal fun k => { k with log := pushCap 256 k.log (j.ctr, j.body ++ sealTag u j.body) }).notify 0x8C10
      (j.body ++ sealTag u j.body) := by
  subst hu
  simp only [completeSeal, h]
  exact if_neg (by simp [hf, ha])

end

end

end Sys2Proof.Machine

open Sys2Proof Sys2Proof.Machine

/-- Settles O36: each command by the branch of its effect, a seal by whether its key is active, the counter by the ceiling written ahead. -/
theorem sealsAndTheirCounter : Obligations.SealsAndTheirCounter := by
  unfold Obligations.SealsAndTheirCounter
  refine ⟨fun q s => ⟨?cfg, ?now, fun h => runHost_effect h rfl, ?verify⟩, fun r b s hn _ t v ht => assignSeal_counter hn ht, sealBody_length,
    fun f s => ⟨?idle, ?complete⟩, ?log⟩
  case cfg =>
    rintro h c u rfl rfl
    exact ⟨fun hk => runHost_effect h (sealCfgCmd_effect_held hk), fun t he hk ht => runHost_effect h (sealCfgCmd_effect_fault he hk ht),
      fun he hk ht => runHost_effect h (sealCfgCmd_effect_derive he hk ht)⟩
  case now =>
    intro h
    obtain ⟨r, hr⟩ := sealNow_record h
    refine ⟨r, hr, fun v ctr hv => ⟨fun ht w hw => ?_, fun t ht => runHost_effect h (sealNowCmd_effect_fault hr hv.symm ht)⟩⟩
    subst hw
    exact runHost_effect h (sealNowCmd_effect_sealed hr hv.symm ht)
  case verify =>
    refine fun h => ⟨fun t ht => runHost_effect h (sealVerifyCmd_effect_fault ht), fun ht u hu => ?_⟩
    subst hu
    refine ⟨fun hne => runHost_effect h ((sealVerifyCmd_effect_pass ht).trans (if_pos hne)), fun heq => runHost_effect h ?_⟩
    rw [sealVerifyCmd_effect_pass ht, if_neg (not_not_intro heq), deviceOp_epoch]
  case idle =>
    rintro (hoff | hnone)
    · exact congrArg Host.Outcome.next (if_neg (by simp [hoff]))
    · exact congrArg Host.Outcome.next (ite_eq_right_iff.mpr fun _ => completeSeal_none hnone)
  case complete =>
    refine fun j js u hon hj hu => ⟨fun hf => ?_, fun hf ha x hx => ?_⟩
    · exact congrArg Host.Outcome.next ((if_pos hon).trans (completeSeal_fails hj hu hf))
    · subst hx
      exact congrArg Host.Outcome.next ((if_pos hon).trans (completeSeal_sealed hj hu hf ha))
  case log => exact fun l x hl => pushCap_full hl

end

section
/-! PROOFS. Cipher units, leases, requests and key slots (R404–R420). -/

namespace Sys2Proof.Machine
open Sys2Proof

/-! ### Commands -/

section
variable {q : Qcp} {s : State}

theorem keyDeriveCmd_effect_fault {t : Nat} (h : s.cipher.trngFail = some t) :
    keyDeriveCmd.effect q s = (s.cuFault (s.deviceUnit.getD 0xFF) 4 0, ⟨stFault, []⟩) := by
  simp only [keyDeriveCmd, h, Option.isSome_some, if_true, trngFault]

theorem keyDerive_root (h : admits keyDeriveCmd q s = true) : ∃ root, s.rootKey (q.u 1 1) = some root := by
  obtain ⟨_, hstate, _⟩ := admits_checks _ q s h
  have hroot : (s.rootKey (q.u 1 1)).isSome = true := hstate _ (.tail _ (.head _))
  exact Option.isSome_iff_exists.mp hroot

/-- The key that KEY_DERIVE puts into its slot. -/
def derivedKey (q : Qcp) (root : List Nat) : SlotKey :=
  { key := (deriveKey root ((fieldB q.payload 24 (q.u 20 1)).map (·.toNat)) (q.u 2 2 % 8192)).map (BitVec.ofNat 8)
    policy := BitVec.ofNat 16 (q.u 2 2 % 8192), root := q.u 1 1, labelLen := q.u 20 1, labelCrc := crc32c (fieldB q.payload 24 (q.u 20 1))
    masters := BitVec.ofNat 32 (q.u 4 4), uses := if q.u 8 4 = 0 then 0xFFFFFFFF else q.u 8 4, expiry := BitVec.ofNat 64 (q.u 12 8) }

theorem keyDeriveCmd_effect_derive {root : List Nat} (h : s.cipher.trngFail = none) (hroot : s.rootKey (q.u 1 1) = some root) :
    keyDeriveCmd.effect q s = (installKey (q.u 0 1) (derivedKey q root) (deviceOp s), .ok []) := by
  simp only [keyDeriveCmd, h, hroot, Option.isSome_none, Bool.false_eq_true, if_false, Option.getD_some, derivedKey]

/-- A CIPHER_RUN that the pipeline admits has a unit that takes it. -/
theorem cipherRun_placed (h : admits cipherRunCmd q s = true) :
    ∃ n, placeReq s (reqOf q.payload 0x14 (some (q.origin 0x0C20)) 0 s.now) = .inl n := by
  obtain ⟨_, _, hlate⟩ := admits_checks _ q s h
  simp only [cipherRunCmd] at hlate
  cases hp : placeReq s (reqOf q.payload 0x14 (some (q.origin 0x0C20)) 0 s.now) with
  | inl n => exact ⟨n, rfl⟩
  | inr e => simp [hp] at hlate

theorem cipherRunCmd_effect_placed {n : Nat} (h : placeReq s (reqOf q.payload 0x14 (some (q.origin 0x0C20)) 0 s.now) = .inl n) :
    cipherRunCmd.effect q s = (acceptOn n (reqOf q.payload 0x14 (some (q.origin 0x0C20)) 0 s.now) s, ⟨stAccepted, []⟩) := by
  simp only [cipherRunCmd, h]

theorem keyEraseCmd_effect_now (after : Nat → State → State) (h : q.u 1 1 = 1) (hs : (s.slot (q.u 0 1)).state ≠ .empty) :
    (keyEraseCmd after).effect q s = (after (q.u 0 1) (eraseNow (q.u 0 1) s), .ok []) := by
  simp only [keyEraseCmd, h, if_true, hs, if_false]

theorem keyEraseCmd_effect_drain (after : Nat → State → State) (h : q.u 1 1 = 0) (hs : (s.slot (q.u 0 1)).state = .active) :
    (keyEraseCmd after).effect q s =
      (drainSlot (q.u 0 1) (s.modSlot (q.u 0 1) fun k => { k with state := .erasePending, erase := true }), .ok []) := by
  simp only [keyEraseCmd, h, Nat.zero_ne_one, if_false, hs]

theorem keyEraseCmd_effect_empty (after : Nat → State → State) (hs : (s.slot (q.u 0 1)).state = .empty) : (keyEraseCmd after).effect q s = (s, .ok []) := by
  simp only [keyEraseCmd, hs, if_true, ite_self]

theorem keyEraseCmd_effect_pending (after : Nat → State → State) (h : q.u 1 1 = 0) (hs : (s.slot (q.u 0 1)).state = .erasePending) :
    (keyEraseCmd after).effect q s = (s, .ok []) := by
  simp only [keyEraseCmd, h, Nat.zero_ne_one, if_false, hs]

end

/-! ### Leases (R408) -/

section
variable {s : State} {n : Nat}

theorem cuLockWrite_device (v : Nat) (h : 7 ≤ n) : cuLockWrite n v s = s := if_pos h

/-- ACQUIRE alone: the length is stored, and a unit that nobody holds is leased. -/
theorem cuLockWrite_acquire (lease : Nat) (h : n < 7) : cuLockWrite n (lease % 256 * 256 + 1) s =
    (fun u : State => if u.holder n = 0xFF then takeLease u n 7 else u) (s.modUnit n fun u => { u with lease := lease % 256 }) := by
  have hlen : bitsOf (lease % 256 * 256 + 1) 15 8 = lease % 256 := by
    unfold bitsOf
    omega
  have hacquire : bitOf (lease % 256 * 256 + 1) 0 = true := by
    rw [bitOf, beq_iff_eq]
    omega
  have hrelease : bitOf (lease % 256 * 256 + 1) 1 = false := by
    rw [bitOf, beq_eq_false_iff_ne]
    omega
  simp only [cuLockWrite, Nat.not_le.mpr h, if_false, hlen, hacquire, hrelease, Bool.false_and, Bool.true_and, Bool.false_eq_true, beq_iff_eq]

/-- RELEASE alone: the length is stored, and UC's own lease ends once its operations have. -/
theorem cuLockWrite_release (lease : Nat) (h : n < 7) : cuLockWrite n (lease % 256 * 256 + 2) s =
    (fun u : State => if u.holder n = 7 then settleRelease n (u.modUnit n fun u => { u with releasing := true }) else u)
      (s.modUnit n fun u => { u with lease := lease % 256 }) := by
  have hlen : bitsOf (lease % 256 * 256 + 2) 15 8 = lease % 256 := by
    unfold bitsOf
    omega
  have hacquire : bitOf (lease % 256 * 256 + 2) 0 = false := by
    rw [bitOf, beq_eq_false_iff_ne]
    omega
  have hrelease : bitOf (lease % 256 * 256 + 2) 1 = true := by
    rw [bitOf, beq_iff_eq]
    omega
  simp only [cuLockWrite, Nat.not_le.mpr h, if_false, hlen, hacquire, hrelease, Bool.false_and, Bool.true_and, Bool.false_eq_true, beq_iff_eq]

/-! ### Key slots (R419, R420) -/

theorem drainSlot_keeps (h : (s.slot n).inUse ≠ 0 ∨ (s.slot n).state = .active ∨ (s.slot n).state = .empty) : drainSlot n s = s := by
  unfold drainSlot
  rcases h with h | h | h
  · exact if_pos h
  · simp only [h, ite_self]
  · simp only [h, ite_self]

theorem drainSlot_erase (h0 : (s.slot n).inUse = 0) (h : (s.slot n).state = .erasePending) :
    drainSlot n s = if (s.slot n).erase then (s.modSlot n fun _ => KeySlot.reset).keyEvent n 3 none else s.modSlot n fun _ => KeySlot.reset := by
  simp only [drainSlot, h0, ne_eq, not_true_eq_false, if_false, h]
  rfl

theorem drainSlot_rewrite (h0 : (s.slot n).inUse = 0) (h : (s.slot n).state = .rewritePending) : drainSlot n s =
    expireSlot n ((s.modSlot n fun v => { v with state := .active, cur := v.shadow.getD SlotKey.reset, shadow := none }).keyEvent n 2 none) := by
  simp only [drainSlot, h0, ne_eq, not_true_eq_false, if_false, h]

section
variable (ha : (s.slot n).state = .active) (he : (s.slot n).cur.expired s.time.dt = true)
include ha he

theorem expireSlot_idle (h0 : (s.slot n).inUse = 0) : expireSlot n s = (s.modSlot n fun _ => KeySlot.reset).keyEvent n 4 none := by
  simp only [expireSlot, ha, he, true_and, if_true, endKey, h0, emptySlot]

theorem expireSlot_inUse (h0 : (s.slot n).inUse ≠ 0) : expireSlot n s = (s.modSlot n fun k => { k with state := .erasePending }).keyEvent n 4 none := by
  simp only [expireSlot, ha, he, true_and, if_true, endKey, h0, if_false]

end

theorem installKey_now (k : SlotKey) (h : (s.slot n).state ≠ .active ∨ (s.slot n).inUse = 0) :
    installKey n k s = (s.modSlot n fun _ => ⟨.active, k, none, 0, false⟩).keyEvent n 1 none := by
  refine if_neg fun ⟨ha, h0⟩ => ?_
  rcases h with h | h
  · exact h ha
  · exact h0 h

theorem installKey_later (k : SlotKey) (ha : (s.slot n).state = .active) (h0 : (s.slot n).inUse ≠ 0) :
    installKey n k s = (s.modSlot n fun v => { v with state := .rewritePending, shadow := some k }).keyEvent n 1 none := if_pos ⟨ha, h0⟩

/-! ### The end of an operation (R407, R409, R413–R416) -/

section
variable {how : CipherEnd} {r : CipherReq}

theorem completeOp_noRequest (put : Nat → Nat → State → State) (h : (s.unit n).running = none) : completeOp put n how s = s := by
  simp only [completeOp, h]

section
variable (put : Nat → Nat → State → State) (hr : (s.unit n).running = some r) (hm : how.mismatches = [])
include hr hm

/-- A block that mismatches a second time fails the operation; the third mismatch in a second disables the unit (R415). -/
theorem completeOp_failed {b : Nat} {u : State} (hf : how.failed = some b)
    (hu : u = (s.modUnit n fun u => { u with mismatches := s.now :: u.mismatches }).cuFault n 1 b) : completeOp put n how s =
    if 3 ≤ recentMismatches u n then failOp n r stFault how.progress (disableUnit n u) else failOp n r stFault how.progress u := by
  simp only [completeOp, hr, hm, hf, List.foldl_nil, ← hu, Option.isSome_some, if_true]

theorem completeOp_sound (hf : how.failed = none) (h3 : recentMismatches s n < 3) : completeOp put n how s = endOp put n how r s := by
  simp only [completeOp, hr, hm, hf, List.foldl_nil, Nat.not_le.mpr h3, if_false, Option.isSome_none, Bool.false_eq_true]

end

variable (put : Nat → Nat → State → State)

theorem endOp_aborted {st : Nat} (hp : ¬(r.length ≤ how.progress ∧ r.length ≠ 0)) (h : r.abort = some st) :
    endOp put n how r s = failOp n r st how.progress s := by
  unfold endOp
  rw [if_neg hp, h]

section
variable {u : State} {bad : Option Nat} (hp : (r.length ≤ how.progress ∧ r.length ≠ 0) ∨ r.abort = none)
  (hu : (u, bad) = if r.length = 0 then (s, none) else s.eccRead r.master r.src r.length)
include hp

/-- An operation that has finished its blocks, or that nothing aborts, ends by its accesses. -/
theorem endOp_notAborted : (if r.length ≤ how.progress ∧ r.length ≠ 0 then none else r.abort) = none := by
  rcases hp with hp | hp
  · exact if_pos hp
  · rw [hp, ite_self]

include hu

theorem endOp_badAccess {a : Nat} (h : (runtimeBad u r).or bad = some a) : endOp put n how r s = failOp n r stFault how.progress (u.cuFault n 3 a) := by
  simp only [endOp, endOp_notAborted hp, ← hu, h]

theorem endOp_finished (h : (runtimeBad u r).or bad = none) : endOp put n how r s = finishOp put n how r u := by
  simp only [endOp, endOp_notAborted hp, ← hu, h]

end

end

/-- An operation without a mismatch ends: its outputs are written, a failing tag of a single pass is scrubbed, and the unit is free. -/
theorem finishOp_clean {how : CipherEnd} {r : CipherReq} {v w : State} {o : CipherOut} (put : Nat → Nat → State → State) (hm : how.mismatches = [])
    (ho : o = compute (r.key.map (·.toNat)) (memNat s r.src r.length) (r.iv.map (·.toNat)) (if r.aead then memNat s r.aad r.aadLen else [])
      (if r.tagged then memNat s r.tag r.tagLen else []) r)
    (hv : v = o.writes.foldl (fun s w => putOut put w s) s) (hw : w = freeUnit n r (if o.status = stTagFail ∧ r.single = true then scrub r r.length v else v)) :
    finishOp put n how r s = leaveSlot r (reportReq n r o.status o.outLen (if o.badPad then 1 else 0) o.blocks o.ivOut w) := by
  unfold finishOp
  rw [hm, ← ho]
  dsimp only
  rw [← hv, ← hw]
  rfl

/-- The TRNG has failed for 10 ms while an operation runs (R416). -/
theorem execTrngStallTimeout_running {r : CipherReq} {t : Nat} (progress : Nat) (ht : s.cipher.trngFail = some t) (hr : (s.unit n).running = some r) :
    execTrngStallTimeout n progress s = if s.cipherOn = true ∧ s.passedMs (max t r.accepted) 10 = true
      then .next (failOp n r stFault progress (s.cuFault n 4 (progress / 16))) else .next s := by
  simp only [execTrngStallTimeout, ht, hr]

theorem execTrngStallTimeout_idle (progress : Nat) (h : s.cipher.trngFail = none ∨ (s.unit n).running = none) : execTrngStallTimeout n progress s = .next s := by
  unfold execTrngStallTimeout
  split
  next t r ht hr => simp [ht, hr] at h
  next => rfl

end

end Sys2Proof.Machine

open Sys2Proof Sys2Proof.Machine

/-- Settles O35: commands by the pipeline's reply, leases, slots and ends of operations by the branches of their definitions. -/
theorem cipherUnitsAndKeySlots : Obligations.CipherUnitsAndKeySlots := by
  unfold Obligations.CipherUnitsAndKeySlots
  refine ⟨fun q s => ?commands, fun n lease s => ?slots, fun n how s => ?ends⟩
  case commands =>
    refine ⟨fun h => runHost_effect h rfl, ?derive, fun h => runHost_effect h rfl, ?run, ?erase⟩
    case derive =>
      refine fun h => ⟨fun t ht => runHost_effect h (keyDeriveCmd_effect_fault ht), fun ht => ?_⟩
      obtain ⟨root, hroot⟩ := keyDerive_root h
      refine ⟨root, hroot, ?_⟩
      rintro label pol k rfl rfl rfl
      exact runHost_effect h (keyDeriveCmd_effect_derive ht hroot)
    case run =>
      rintro h r rfl
      obtain ⟨n, hn⟩ := cipherRun_placed h
      exact ⟨n, hn, runHost_effect h (cipherRunCmd_effect_placed hn)⟩
    case erase =>
      rintro h n rfl
      refine ⟨fun h1 hs => runHost_effect h (keyEraseCmd_effect_now _ h1 hs), fun h0 hs => runHost_effect h (keyEraseCmd_effect_drain _ h0 hs), ?_⟩
      rintro (hs | ⟨h0, hs⟩)
      · exact runHost_effect h (keyEraseCmd_effect_empty _ hs)
      · exact runHost_effect h (keyEraseCmd_effect_pending _ h0 hs)
  case slots =>
    refine ⟨fun hoff => ?off, fun hon => ?on, drainSlot_keeps, drainSlot_erase, fun k h0 h _ => drainSlot_rewrite h0 h, fun h => if_neg h,
      expireSlot_idle, expireSlot_inUse, installKey_now, installKey_later⟩
    case off =>
      have off {P : Prop} [Decidable P] {a : State} (hP : P → s.cipherOn = true) :
          Host.Outcome.next (φ := Fault) (ρ := Refusal) (if P then a else s) = .next s :=
        congrArg Host.Outcome.next (if_neg fun h => by simp [hoff] at hP; exact hP h)
      exact ⟨off id, off id, off And.left, off id, off id, off id, off And.left, off id, off And.left⟩
    case on =>
      have on {a : State} : Host.Outcome.next (φ := Fault) (ρ := Refusal) (if s.cipherOn = true then a else s) = .next a :=
        congrArg Host.Outcome.next (if_pos hon)
      refine ⟨on, on, fun ht => ?_, fun t ht => ?_, ?_, ?_, fun h => ?_, ?_, ?_, ?_, on, on⟩
      · exact congrArg Host.Outcome.next (if_pos ⟨hon, by simp [ht]⟩)
      · exact congrArg Host.Outcome.next (if_neg fun ⟨_, h⟩ => by simp [ht] at h)
      · rintro u hn rfl
        exact ⟨on.trans (congrArg _ (cuLockWrite_acquire lease hn)), on.trans (congrArg _ (cuLockWrite_release lease hn))⟩
      · exact fun hn => ⟨on.trans (congrArg _ (cuLockWrite_device _ hn)), on.trans (congrArg _ (cuLockWrite_device _ hn))⟩
      · exact congrArg Host.Outcome.next (if_neg fun hc => h hc.2)
      · exact fun hn hl => congrArg Host.Outcome.next (if_pos ⟨hon, hn, hl⟩)
      · exact fun hn => congrArg Host.Outcome.next (if_neg fun hc => by omega)
      · exact fun hn => congrArg Host.Outcome.next (if_pos ⟨hon, hn⟩)
  case ends =>
    refine ⟨?idle, fun r hon hr hm => ⟨?failed, fun hf h3 => ?sound⟩, ?stall, fun progress => execTrngStallTimeout_idle progress⟩
    case idle =>
      rintro (hoff | hnone)
      · exact congrArg Host.Outcome.next (if_neg (by simp [hoff]))
      · exact congrArg Host.Outcome.next (ite_eq_right_iff.mpr fun _ => completeOp_noRequest ioWrite hnone)
    case failed =>
      exact fun b u hf hu => congrArg Host.Outcome.next ((if_pos hon).trans (completeOp_failed ioWrite hr hm hf hu))
    case sound =>
      have hend : exec (.cipherOpComplete n how) s = .next (endOp ioWrite n how r s) :=
        congrArg Host.Outcome.next ((if_pos hon).trans (completeOp_sound ioWrite hr hm hf h3))
      refine ⟨fun st hp ha => hend.trans (congrArg _ (endOp_aborted ioWrite hp ha)), fun u bad hp hu => ⟨fun a h => ?_, ?_⟩⟩
      · exact hend.trans (congrArg _ (endOp_badAccess ioWrite hp hu h))
      · intro h o v w ho hv hw
        exact hend.trans (congrArg _ ((endOp_finished ioWrite hp hu h).trans (finishOp_clean ioWrite hm ho hv hw)))
    case stall =>
      refine fun progress r t ht hr => ⟨fun hon hp => ?_, fun h => ?_⟩
      · exact (execTrngStallTimeout_running progress ht hr).trans (if_pos ⟨hon, hp⟩)
      · refine (execTrngStallTimeout_running progress ht hr).trans (if_neg fun ⟨hon, hp⟩ => ?_)
        simp [hon, hp] at h

end

section
/-! PROOFS. UARTs, their characters, and the card protocol (R431–R438). -/

namespace Sys2Proof.Machine
open Sys2Proof

/-! ### The bits of a byte in the other order -/

theorem boolBits_testBit (bs : List Bool) (i : Nat) : (boolBits bs).testBit i = (bs[i]?).getD false := by
  induction bs generalizing i with
  | nil => simp [boolBits]
  | cons b bs ih =>
    have hbit : boolBits (b :: bs) = Nat.bit b (boolBits bs) := by
      rw [Nat.bit_val, Nat.add_comm, boolBits]
      cases b <;> rfl
    rw [hbit]
    cases i with
    | zero => rw [Nat.testBit_bit_zero, List.getElem?_cons_zero, Option.getD_some]
    | succ i => rw [Nat.testBit_bit_succ, ih, List.getElem?_cons_succ]

theorem revByte_getLsbD (b : Byte) {i : Nat} (h : i < 8) : (revByte b).getLsbD i = b.getLsbD (7 - i) := by
  unfold revByte
  rw [BitVec.getLsbD_ofNat, boolBits_testBit, decide_eq_true h, Bool.true_and, List.getElem?_map, List.getElem?_range h, Option.map_some, Option.getD_some]

theorem revByte_revByte (b : Byte) : revByte (revByte b) = b := by
  refine BitVec.eq_of_getLsbD_eq fun i hi => ?_
  rw [revByte_getLsbD _ hi, revByte_getLsbD _ (by omega), show 7 - (7 - i) = i by omega]

/-! ### Commands -/

section
variable {q : Qcp} {s : State} {n : Nat}

/-- What UART_CFG does to a UART: on its own line the change waits for the end of the reply. -/
def Uart.configure (own : Bool) (owner : Nat) (f : UartFraming) (u : Uart) : Uart :=
  if own then { u with owner := owner, tx := u.tx.commit f, rx := u.rx.commit f, afterReply := true }
  else { u with owner := owner, tx := if u.shift.isNone then (u.tx.commit f).latch else u.tx.commit f, rx := u.rx.commit f }

section
variable {f : UartFraming} {u : State} (hf : f = ⟨q.u 2 1, q.u 4 4⟩) (hu : s.modUart (q.u 0 1) (Uart.configure (q.transport == q.u 0 1 + 2) (q.u 1 1) f) = u)
include hf hu

theorem uartCfgCmd_effect : uartCfgCmd.effect q s =
    (if q.u 1 1 = 0 then { u with nv := { u.nv with uarts := modAt u.nv.uarts (q.u 0 1) fun _ => (f.frame, f.div) } } else u, .ok []) := by
  have hconf : Uart.configure (q.transport == q.u 0 1 + 2) (q.u 1 1) f = fun u =>
      let u : Uart := { u with owner := q.u 1 1, tx := u.tx.commit f, rx := u.rx.commit f }
      if q.transport == q.u 0 1 + 2 then { u with afterReply := true } else if u.shift.isNone then { u with tx := u.tx.latch } else u := by
    funext u
    unfold Uart.configure
    split
    · rfl
    · dsimp only
      split <;> rfl
  rw [hconf] at hu
  subst hf hu
  rfl

theorem uartCfgCmd_effect_uc (h : q.u 1 1 ≠ 0) : uartCfgCmd.effect q s = (u, .ok []) := by
  rw [uartCfgCmd_effect hf hu, if_neg h]

theorem uartCfgCmd_effect_transport (h : q.u 1 1 = 0) :
    uartCfgCmd.effect q s = ({ u with nv := { u.nv with uarts := modAt u.nv.uarts (q.u 0 1) fun _ => (f.frame, f.div) } }, .ok []) := by
  rw [uartCfgCmd_effect hf hu, if_pos h]

end

theorem cardResetCmd_effect_off (atr : Option CardAtr) (h : q.u 1 1 = 2) : (cardResetCmd atr).effect q s = (deactivate (q.u 0 1) s, .ok (rsv 4)) := if_pos h

/-- The card's reset is released and its clock runs. -/
def cardWoken (n : Nat) (s : State) : State :=
  s.modUart n fun u => u.modCard fun k => { k with rst := true, clken := true, active := false }.setCh fun h => { h with card := true }

/-- What an answer to reset leaves in the card's UART. -/
def cardAnswered (n : Nat) (r : AtrResult) (s : State) : State :=
  (s.modUart n fun u => u.modCard fun k => { k with active := true, running := r.protocol }.setCh fun h =>
    { h with t1 := r.protocol == 1, conv := r.inverse, etu := r.etu, guard := (r.guard).getD h.guard }).cardEvent n 1

theorem cardResetCmd_effect_mute (h : q.u 1 1 ≠ 2) : (cardResetCmd none).effect q s = (deactivate (q.u 0 1) (cardWoken (q.u 0 1) s), ⟨stTimeout, []⟩) := if_neg h

theorem cardResetCmd_effect_answer {a : CardAtr} {r : AtrResult} {v : State} (h : q.u 1 1 ≠ 2)
    (hr : r = parseAtr ((cardWoken (q.u 0 1) s).uart (q.u 0 1)).card a) (hv : v = cardAnswered (q.u 0 1) r (cardWoken (q.u 0 1) s)) :
    (cardResetCmd (some a)).effect q s = (if r.pps then v.cardEvent (q.u 0 1) 2 else v,
      .ok (u8 (if r.inverse then 2 else 1) ++ u8 r.protocol ++ u8 a.bytes.length ++ u8 (boolBits [r.pps, r.tck])
        ++ (if r.inverse then 0x3F else 0x3B) :: a.bytes.drop 1)) := by
  rw [hv, hr]
  exact if_neg h

end

/-! ### Transmission (R435, R437) -/

section
variable {x : Uart} (c : Byte)

theorem Uart.putTx_full (h : x.hold.isSome = true) : x.putTx c = { x with status := x.status ||| 0x1000#32 } := if_pos h

theorem Uart.putTx_waits (h : x.hold = none) (hw : x.txen = false ∨ x.shift.isSome = true) : x.putTx c = { x with hold := some c } := by
  have hempty : ¬x.hold.isSome = true := by simp [h]
  unfold Uart.putTx
  rw [if_neg hempty]
  rcases hw with hw | hw
  · exact if_neg (by simp [hw])
  · obtain ⟨y, hy⟩ := Option.isSome_iff_exists.mp hw
    refine ite_eq_right_iff.mpr fun _ => ?_
    simp only [Uart.load, hy]

theorem Uart.putTx_starts (h : x.hold = none) (ht : x.txen = true) (hs : x.shift = none) :
    (x.putTx c).shift = some c ∧ (x.putTx c).hold = none ∧ (x.putTx c).status = x.status := by
  simp [Uart.putTx, Uart.load, h, ht, hs]

end

section
variable {n : Nat} {low : Bool} {s : State}

theorem execUartCharSent_on (hon : s.periphOn = true) (hn : n ≤ 5) : execUartCharSent n low s = .next (charSent n low s) :=
  congrArg Host.Outcome.next (if_pos ⟨hon, hn⟩)

theorem charSent_empty (h : (s.uart n).shift = none) : charSent n low s = s := by
  unfold charSent
  exact if_pos (by simp [h])

section
variable (hs : (s.uart n).shift.isSome = true)
include hs

theorem charSent_repeats (hc : (s.uart n).ch.card = true) (ht : (s.uart n).ch.t1 = false) (hlow : low = true)
    (hr : (s.uart n).card.txReps < min 4 (s.uart n).ch.repeats) :
    charSent n low s = s.modUart n fun u => u.modCard fun k => { k with txReps := k.txReps + 1 } := by
  have hfull : ¬(s.uart n).shift.isNone = true := by simpa using Option.isSome_iff_ne_none.mp hs
  unfold charSent
  rw [if_neg hfull]
  exact if_pos (by simp [hc, ht, hlow, hr])

theorem charSent_plain (hc : (s.uart n).ch.card = false) : charSent n low s = feedUart n (s.modUart n fun u =>
    let u := { u with shift := none, status := u.status ||| 0#32 }.modCard fun k => { k with txReps := 0 }
    if u.owner == 0 || u.txen then u.load else u) := by
  have hfull : ¬(s.uart n).shift.isNone = true := by simpa using Option.isSome_iff_ne_none.mp hs
  simp only [charSent, hfull, hc, Bool.false_and, Bool.false_eq_true, if_false]

end

end

/-! ### Reception (R433, R437) -/

/-- What a completed character does, before the next one's settings latch. -/
def uartTaken (n : Nat) (l : RxLine) (v : State) : State :=
  if (v.uart n).owner = 0 then
    if v.transportUp (n + 2) then
      { uartErrors n (framedChar (v.uart n).rx.inForce.frame l) false v with
        transports := modAt v.transports (n + 2) fun t => { t with rx := delimit t.rx (framedChar (v.uart n).rx.inForce.frame l).data } }
    else v
  else if (v.uart n).owner = 1 then
    if !(v.uart n).rxen then v
    else if (v.uart n).ch.card then cardReceive n l v
    else deliver n (framedChar (v.uart n).rx.inForce.frame l) v
  else uartErrors n (cardChar (v.uart n).ch.conv l) false v

theorem uartReceive_eq {n : Nat} {l : RxLine} {s v : State} (hv : v = if l.held || (s.uart n).afterReply then s else s.modUart n Uart.latchRx) :
    uartReceive n l s = if ((uartTaken n l v).uart n).afterReply then uartTaken n l v else (uartTaken n l v).modUart n Uart.latchRx := by
  subst hv
  rfl

theorem deliver_full {n : Nat} {s : State} (c : UartChar) (h : (s.uart n).rxHold.isSome = true) :
    deliver n c s = uartErrors n { c with ferr := false, perr := false, brk := false } true s := if_pos h

theorem deliver_empty {n : Nat} {s : State} (c : UartChar) (h : (s.uart n).rxHold = none) :
    deliver n c s = (uartErrors n c false s).modUart n fun u => { u with rxHold := some c } := if_neg (by simp [h])

theorem framedChar_plain (l : RxLine) : framedChar 0 l = ⟨l.data, l.data == 0#8 && !l.stop, !l.stop, false⟩ := by
  simp [framedChar, bitOf, bitsOf]

theorem framedChar_msbFirst (l : RxLine) : (framedChar 16 l).data = revByte l.data := by
  simp [framedChar, bitOf]

/-! ### The end of a card exchange -/

section
variable {n : Nat} {how : CardEnd} {s : State}

theorem cardApduEnd_none (h : (s.uart n).card.apdu = none) : cardApduEnd n how s = s := by
  simp only [cardApduEnd, h]

/-- How a card exchange is reported. -/
def cardReport (n : Nat) (o : Origin) (how : CardEnd) (u : State) : State :=
  match how with
  | .response bs => u.complete o stOk bs
  | .repeatFail => (u.cardEvent n 3).complete o stTimeout []
  | .waitTimeout => (u.cardEvent n 4).complete o stTimeout []
  | .resynch => (u.cardEvent n 5).complete o stTimeout []

theorem cardApduEnd_some {o : Origin} (h : (s.uart n).card.apdu = some o) :
    cardApduEnd n how s = cardReport n o how (s.modUart n fun u => u.modCard fun k => { k with apdu := none }) := by
  simp only [cardApduEnd, h]
  cases how <;> rfl

theorem cardWait_iff : (s.periphOn && (n == 4 || n == 5) && (s.uart n).ch.card && (s.uart n).card.wt != 0) = true ↔
    s.periphOn = true ∧ (n = 4 ∨ n = 5) ∧ (s.uart n).ch.card = true ∧ (s.uart n).card.wt ≠ 0 := by
  simp [and_assoc]

end

end Sys2Proof.Machine

open Sys2Proof Sys2Proof.Machine

/-- Settles O37: commands by the pipeline's reply; a character by the owner of its UART, the card's exchange by how it ends. -/
theorem uartsAndCards : Obligations.UartsAndCards := by
  unfold Obligations.UartsAndCards
  refine ⟨?commands, ?registers, ?receive, ?sent, ?card⟩
  case commands =>
    rintro q s n rfl
    refine ⟨?cfg, fun h => runHost_effect h rfl, fun h => runHost_effect h rfl, ?reset, fun h => runHost_effect h rfl⟩
    case cfg =>
      intro h f u hf hown hother
      have hu : s.modUart (q.u 0 1) (Uart.configure (q.transport == q.u 0 1 + 2) (q.u 1 1) f) = u := by
        by_cases ht : q.transport = q.u 0 1 + 2
        · rw [hown ht, beq_iff_eq.mpr ht]
          rfl
        · rw [hother ht, beq_eq_false_iff_ne.mpr ht]
          rfl
      exact ⟨fun h1 => runHost_effect h (uartCfgCmd_effect_uc hf hu h1), fun h0 => runHost_effect h (uartCfgCmd_effect_transport hf hu h0)⟩
    case reset =>
      rintro atr h u rfl
      refine ⟨fun h2 => runHost_effect h (cardResetCmd_effect_off atr h2), fun h2 ha => ?_, fun a r v h2 ha hr hv => ?_⟩
      · subst ha
        exact runHost_effect h (cardResetCmd_effect_mute h2)
      · subst ha
        exact runHost_effect h (cardResetCmd_effect_answer h2 hr hv)
  case registers =>
    rintro n w s u rfl
    refine ⟨fun hoff => ⟨?_, ?_⟩, fun hon => ⟨?_, ?_⟩, fun x c => ⟨Uart.putTx_full c, Uart.putTx_waits c, Uart.putTx_starts c⟩⟩
    · exact congrArg Host.Outcome.next (if_neg (by simp [hoff]))
    · exact congrArg Host.Outcome.next (if_neg (by simp [hoff]))
    · exact congrArg Host.Outcome.next (if_pos hon)
    · exact congrArg Host.Outcome.next (if_pos hon)
  case receive =>
    intro n l s v hv
    refine ⟨fun h => congrArg Host.Outcome.next (if_neg h), fun w hon hn h0 h0' h1 h2 h3 h4 => ?_, deliver_full, deliver_empty,
      framedChar_plain l, framedChar_msbFirst l, revByte_revByte l.data⟩
    have hw : w = uartTaken n l v := by
      rcases howner : (v.uart n).owner with _ | _ | k
      case zero =>
        cases hup : v.transportUp (n + 2) with
        | true => simp only [h0 howner hup, uartTaken, howner, hup, if_true]
        | false => simp only [h0' howner hup, uartTaken, howner, hup, if_true, Bool.false_eq_true, if_false]
      case succ.zero =>
        cases hrx : (v.uart n).rxen with
        | false => simp only [h1 howner hrx, uartTaken, howner, hrx, Nat.zero_add, Nat.one_ne_zero, Bool.not_false, if_true, if_false]
        | true =>
          cases hc : (v.uart n).ch.card with
          | false => simp only [h2 howner hrx hc, uartTaken, howner, hrx, hc, Nat.zero_add, Nat.one_ne_zero, Bool.not_true, Bool.false_eq_true, if_true, if_false]
          | true => simp only [h3 howner hrx hc, uartTaken, howner, hrx, hc, Nat.zero_add, Nat.one_ne_zero, Bool.not_true, Bool.false_eq_true, if_true, if_false]
      case succ.succ =>
        rw [h4 (by omega), uartTaken, if_neg (by omega), if_neg (by omega)]
    rw [hw]
    exact congrArg Host.Outcome.next ((if_pos ⟨hon, hn⟩).trans (uartReceive_eq hv))
  case sent =>
    rintro n low s u rfl
    refine ⟨?_, fun hon hn hs hc ht hlow hr => (execUartCharSent_on hon hn).trans (congrArg _ (charSent_repeats hs hc ht hlow hr)),
      fun hon hn hs hc => (execUartCharSent_on hon hn).trans (congrArg _ (charSent_plain hs hc))⟩
    rintro (hoff | hnone)
    · exact congrArg Host.Outcome.next (if_neg hoff)
    · exact congrArg Host.Outcome.next (ite_eq_right_iff.mpr fun _ => charSent_empty hnone)
  case card =>
    intro n how s
    refine ⟨?idle, fun o u hon ho hu => ?ends, fun hon hn hc hw => ?_, fun h => ?_⟩
    case idle =>
      rintro (hoff | hnone)
      · exact congrArg Host.Outcome.next (if_neg (by simp [hoff]))
      · exact congrArg Host.Outcome.next (ite_eq_right_iff.mpr fun _ => cardApduEnd_none hnone)
    case ends =>
      have hend : exec (.cardApduComplete n how) s = .next (cardReport n o how u) :=
        congrArg Host.Outcome.next ((if_pos hon).trans ((cardApduEnd_some ho).trans (congrArg _ hu.symm)))
      exact ⟨fun bs h => hend.trans (by rw [h]; rfl), fun h => hend.trans (by rw [h]; rfl), fun h => hend.trans (by rw [h]; rfl),
        fun h => hend.trans (by rw [h]; rfl)⟩
    · exact congrArg Host.Outcome.next (if_pos (cardWait_iff.mpr ⟨hon, hn, hc, hw⟩))
    · exact congrArg Host.Outcome.next (if_neg fun hc => h (cardWait_iff.mp hc))

end

section
/-! PROOFS. The SPI, I2C and CAN controllers, wheel ticks and general-purpose pins (R440–R446). -/

namespace Sys2Proof.Machine
open Sys2Proof

/-! ### CAN (R442, R443) -/

section
variable {s : State} {n : Nat}

theorem State.can_modCan {f : CanPort → CanPort} (h : n < s.periph.cans.length) : (s.modCan n f).can n = f (s.can n) := by
  show ((s.periph.cans.modify n f)[n]?).getD CanPort.reset = f ((s.periph.cans[n]?).getD CanPort.reset)
  rw [List.getElem?_modify_eq, List.getElem?_eq_getElem h]
  rfl

theorem State.can_periphCheck (block check value : Nat) : (s.periphCheck block check value).can n = s.can n := by
  obtain ⟨ss, ts, h⟩ := State.notify_only s 0x8D01 (s.beatBytes ++ u8 block ++ u8 check ++ rsv 2 ++ u32 value)
  unfold State.periphCheck
  rw [h]
  rfl

/-- The state that the error counters ask for (ISO 11898-1); bus-off stays. -/
def CanPort.settled (c : CanPort) : Nat := if c.state = 2 then 2 else if 255 < c.tec then 2 else if 127 < c.tec ∨ 127 < c.recv then 1 else 0

theorem canSettle_can (h : n < s.periph.cans.length) : (canSettle n s).can n = { s.can n with state := (s.can n).settled } := by
  unfold canSettle
  extract_lets c st0 st t
  have ht : t.can n = { s.can n with state := (s.can n).settled } := State.can_modCan h
  split
  · exact ht
  · rw [State.can_periphCheck, ht]

theorem canSettle_state (h : n < s.periph.cans.length) :
    ∃ st, (canSettle n s).can n = { s.can n with state := st } ∧ ((s.can n).state = 2 → st = 2)
      ∧ ((s.can n).state ≠ 2 → (s.can n).tec ≤ 127 → (s.can n).recv ≤ 127 → st = 0) ∧ (255 < (s.can n).tec → st = 2) := by
  refine ⟨_, canSettle_can h, fun hoff => if_pos hoff, fun hon ht hr => ?_, fun ht => ?_⟩
  · rw [CanPort.settled, if_neg hon, if_neg (by omega), if_neg (by omega)]
  · rw [CanPort.settled, if_pos ht, ite_self]

end

/-- A frame received: the counters of its errors settle, then those of its success; then its signals and the host take it. -/
theorem canReceive_counted {f : CanFrame} {b : Bool} {s v w x : State} {n u : Nat} (hn : n = f.port) (huv : s.openVal 91 = (v, u))
    (hw : w = canSettle n (v.modCan n fun c => { c with recv := min 255 (c.recv + f.errors), err := sat32 (c.err + f.errors) }))
    (hx : x = (List.range 64).foldl (fun s i => canSignal f i s) (canSettle n (w.modCan n fun c => { c with recv := recvAfter u c.recv, rxOk := sat32 (c.rxOk + 1) }))) :
    canReceive f b s = if (x.can n).cfg.rxNotify && canPasses (x.can n).cfg f then x.notify 0x8D40 (canRxBytes f b x) else x := by
  subst hn
  unfold canReceive
  rw [huv]
  dsimp only
  rw [← hw, ← hx]

theorem signalBits_length (motorola : Bool) (start len : Nat) : (signalBits motorola start len).length = len := by
  cases motorola
  · simp [signalBits]
  · simp [signalBits]

theorem recvAfter_passive (o : Nat) {k : Nat} (h : 127 < k) : 119 ≤ recvAfter o k ∧ recvAfter o k ≤ 127 := by
  unfold recvAfter
  rw [if_pos h]
  omega

theorem recvAfter_active (o : Nat) {k : Nat} (h : k ≤ 127) : recvAfter o k = k - 1 := if_neg (by omega)

/-! ### Wheel ticks (R445) -/

theorem WheelIn.fast_iff (w : WheelIn) (pin : Nat) : w.fast pin = true ↔ ∃ t, w.last = some t ∧ pin < t + wheelGap := by
  unfold WheelIn.fast
  cases w.last with
  | none => simp
  | some t => simp

section
variable {n pin : Nat} {r : Bool} {s u : State} {mode : Nat} (hm : mode = (s.periph.wtCfg.mode[n]?).getD 0) (hu : u = s.modWheel n fun w => { w with level := r })
include hm hu

/-- An edge that the mode of its input does not count. -/
theorem wheelTick_other (h : mode = 2 ∨ (mode = 0 ∧ r = false)) : wheelTick n r pin s = u := by
  subst hm hu
  exact if_pos (by simpa using h)

theorem wheelTick_counted (h : ¬(mode = 2 ∨ (mode = 0 ∧ r = false))) (hf : (s.wheel n).fast pin = false) :
    wheelTick n r pin s = wheelInput n pin (wheelDir u n) (u.modWheel n fun w => { w with last := some pin, count := (w.count + 1) % 2 ^ 32 }) := by
  subst hm hu
  exact (if_neg (by simpa using h)).trans (if_neg (by simp [hf]))

/-- An edge too soon after the last one: it is dropped, and reported once in a second. -/
theorem wheelTick_fast {v : State} (h : ¬(mode = 2 ∨ (mode = 0 ∧ r = false))) (hf : (s.wheel n).fast pin = true)
    (hv : v = { u with periph := { u.periph with wtFast := sat32 (u.periph.wtFast + 1) } }) :
    wheelTick n r pin s = if (s.wheel n).fastSecond = some v.second then v.modWheel n fun w => { w with fastSince := w.fastSince + 1 }
      else (v.modWheel n fun w => { w with fastSecond := some v.second, fastSince := 0 }).periphCheck (16 + n) 7 ((s.wheel n).fastSince + 1) := by
  subst hm hu hv
  exact (if_neg (by simpa using h)).trans (if_pos hf)

end

/-! ### Pins (R446) -/

section
variable {n : Nat} {r b : Bool} {s u v : State} (hu : u = s.modGpio n fun g => { g with level := r })
include hu

theorem gpioEdge_unselected (h : bitOf (s.gpio n).edge (if r then 0 else 1) = false) : gpioEdge n r b s = u := by
  subst hu
  exact if_pos (by simp [h])

section
variable (he : bitOf (s.gpio n).edge (if r then 0 else 1) = true) (hv : v = u.modGpio n fun g => { g with evt := true })
include he hv

theorem gpioEdge_silent (h : (s.gpio n).owner ≠ 0 ∨ (s.gpio n).notify = false) : gpioEdge n r b s = v := by
  subst hv hu
  refine (if_neg (by simp [he])).trans (if_pos ?_)
  rcases h with h | h
  · simp [h]
  · simp [h]

theorem gpioEdge_notified (ho : (s.gpio n).owner = 0) (hn : (s.gpio n).notify = true) :
    gpioEdge n r b s = (v.modGpio n fun g => { g with seq := (g.seq + 1) % 2 ^ 32 }).notifyF 0x8D60 b
      (v.dtBytes ++ u8 n ++ ub r ++ u8 (if b then 1 else 0) ++ rsv 1 ++ u32 (s.gpio n).seq) := by
  subst hv hu
  exact (if_neg (by simp [he])).trans (if_neg (by simp [ho, hn]))

end

end

/-- A pin as UC's set and clear registers leave it. -/
def GpioPin.driven (mask : Word) (v : Bool) (n : Nat) (g : GpioPin) : GpioPin := if mask.getLsbD n && g.owner == 1 then { g with out := v } else g

/-- One pin of a set or clear. -/
def drivePin (mask : Word) (v : Bool) (s : State) (n : Nat) : State :=
  if mask.getLsbD n && (s.gpio n).owner == 1 then s.modGpio n fun g => { g with out := v } else s

theorem gpioDrive_on {mask : Word} {v : Bool} {s : State} (h : s.periphOn = true) :
    gpioDrive mask (fun _ => v) s = (List.range 8).foldl (drivePin mask v) s := if_pos h

section
variable (mask : Word) (v : Bool)

/-- Setting one pin changes that pin's output bit alone. -/
theorem drivePin_only (s : State) (n : Nat) : ∃ g, drivePin mask v s n = { s with periph := { s.periph with gpio := g } } ∧ g.length = s.periph.gpio.length := by
  unfold drivePin
  split
  · exact ⟨modAt s.periph.gpio n _, rfl, List.length_modify ..⟩
  · exact ⟨s.periph.gpio, rfl, rfl⟩

theorem drivePin_gpio (s : State) {n : Nat} (k : Nat) (h : n < s.periph.gpio.length) :
    (drivePin mask v s n).gpio k = if n = k then (s.gpio k).driven mask v k else s.gpio k := by
  by_cases hk : n = k
  · subst hk
    rw [if_pos rfl]
    unfold drivePin GpioPin.driven
    split
    · show ((s.periph.gpio.modify n _)[n]?).getD GpioPin.reset = _
      rw [List.getElem?_modify_eq]
      show _ = ({ (s.periph.gpio[n]?).getD GpioPin.reset with out := v } : GpioPin)
      rw [List.getElem?_eq_getElem h]
      rfl
    · rfl
  · rw [if_neg hk]
    unfold drivePin
    split
    · show ((s.periph.gpio.modify n _)[k]?).getD GpioPin.reset = (s.periph.gpio[k]?).getD GpioPin.reset
      rw [List.getElem?_modify_ne _ _ hk]
    · rfl

theorem drivePins_only (l : List Nat) (s : State) :
    ∃ g, l.foldl (drivePin mask v) s = { s with periph := { s.periph with gpio := g } } ∧ g.length = s.periph.gpio.length := by
  induction l generalizing s with
  | nil => exact ⟨s.periph.gpio, rfl, rfl⟩
  | cons n l ih =>
    obtain ⟨g, hg, hlen⟩ := drivePin_only mask v s n
    obtain ⟨g', hg', hlen'⟩ := ih (drivePin mask v s n)
    rw [List.foldl_cons, hg']
    rw [hg] at hlen' ⊢
    exact ⟨g', rfl, hlen'.trans hlen⟩

theorem drivePins_gpio {l : List Nat} (hl : l.Nodup) (s : State) (h : ∀ n ∈ l, n < s.periph.gpio.length) (k : Nat) :
    (l.foldl (drivePin mask v) s).gpio k = if k ∈ l then (s.gpio k).driven mask v k else s.gpio k := by
  induction l generalizing s with
  | nil => rfl
  | cons n l ih =>
    obtain ⟨hn, hnodup⟩ := List.nodup_cons.mp hl
    obtain ⟨g, hg, hlen⟩ := drivePin_only mask v s n
    have hlength : (drivePin mask v s n).periph.gpio.length = s.periph.gpio.length := by
      rw [hg]
      exact hlen
    rw [List.foldl_cons, ih hnodup _ (fun m hm => hlength.symm ▸ h m (.tail _ hm)), drivePin_gpio mask v s k (h n (.head _))]
    by_cases hk : n = k
    · subst hk
      rw [if_pos rfl, if_neg hn, if_pos (.head _)]
    · have hmem : k ∈ n :: l ↔ k ∈ l := by
        rw [List.mem_cons]
        exact ⟨fun hc => hc.resolve_left (Ne.symm hk), .inr⟩
      simp only [hk, if_false, hmem]

end

/-- What UC's set and clear registers leave of the pins, and of everything else. -/
theorem gpioDrive_pins (mask : Word) (v : Bool) {s : State} (hon : s.periphOn = true) (hlen : s.periph.gpio.length = 8) :
    gpioDrive mask (fun _ => v) s = { s with periph := { s.periph with gpio := (gpioDrive mask (fun _ => v) s).periph.gpio } }
    ∧ ∀ n < 8, (gpioDrive mask (fun _ => v) s).gpio n = (s.gpio n).driven mask v n := by
  rw [gpioDrive_on hon]
  refine ⟨?_, fun n hn => ?_⟩
  · obtain ⟨g, hg, _⟩ := drivePins_only mask v (List.range 8) s
    rw [hg]
  · rw [drivePins_gpio mask v List.nodup_range s (fun m hm => hlen.symm ▸ List.mem_range.mp hm), if_pos (List.mem_range.mpr hn)]

end Sys2Proof.Machine

open Sys2Proof Sys2Proof.Machine

/-- Settles O38: commands by the pipeline's reply, frames, ticks and edges by the branch of their definitions, UC's pins by induction over the pins. -/
theorem busesWheelsAndPins : Obligations.BusesWheelsAndPins := by
  unfold Obligations.BusesWheelsAndPins
  refine ⟨fun q s => ?commands, ?can, rfl, WheelIn.fast_iff, ?wheel, ?edge, fun w s => ⟨fun hoff => ⟨?_, ?_⟩, fun hon hlen => ?drive⟩⟩
  case commands =>
    refine ⟨fun h => runHost_effect h rfl, fun bs h => runHost_effect h rfl, fun h => runHost_effect h rfl, ?i2c, fun h => runHost_effect h rfl,
      fun h => runHost_effect h rfl, ?tx, fun h => runHost_effect h rfl, fun h => runHost_effect h rfl, fun h => runHost_effect h rfl,
      fun h => runHost_effect h rfl⟩
    case i2c =>
      intro how h
      refine ⟨fun bs hh => ?_, fun hh => ?_, fun hh => ?_, fun hh => ?_⟩
      · subst hh
        exact runHost_effect h rfl
      · subst hh
        exact runHost_effect h rfl
      · subst hh
        exact runHost_effect h rfl
      · subst hh
        exact runHost_effect h rfl
    case tx =>
      rintro how u h rfl
      exact runHost_effect h rfl
  case can =>
    rintro f b s n rfl
    refine ⟨fun h => ⟨congrArg Host.Outcome.next (if_neg h), fun t k => congrArg Host.Outcome.next (if_neg h)⟩, fun hon hn he hst => ?active,
      fun hon hst => congrArg Host.Outcome.next (if_pos ⟨hon, hst⟩), fun h => congrArg Host.Outcome.next (if_neg fun ⟨hon, hst⟩ => ?idle),
      canSettle_state, signalBits_length, fun o k => recvAfter_passive o, fun o k => recvAfter_active o⟩
    case active =>
      refine ⟨fun v u huv w x hw hx => ?_, fun k => ?_, fun k => ?_⟩
      · exact congrArg Host.Outcome.next ((if_pos ⟨hon, hn, he, hst⟩).trans (canReceive_counted rfl huv hw hx))
      · exact congrArg Host.Outcome.next (if_pos ⟨hon, hn, he, hst⟩)
      · exact congrArg Host.Outcome.next (if_pos ⟨hon, hn, he, hst⟩)
    case idle =>
      rcases h with h | h
      · simp [hon] at h
      · exact h hst
  case wheel =>
    refine fun n r pin s => ⟨fun h => congrArg Host.Outcome.next (if_neg h), fun hon hn he mode u hm hu => ?_⟩
    have htick : exec (.wheelTick n r pin) s = .next (wheelTick n r pin s) := congrArg Host.Outcome.next (if_pos ⟨hon, hn, he⟩)
    refine ⟨fun h => htick.trans (congrArg _ (wheelTick_other hm hu h)), fun h hf => htick.trans (congrArg _ (wheelTick_counted hm hu h hf)),
      fun v h hf hv => ⟨fun hs => ?_, fun hs => ?_⟩⟩
    · exact htick.trans (congrArg _ ((wheelTick_fast hm hu h hf hv).trans (if_pos hs)))
    · exact htick.trans (congrArg _ ((wheelTick_fast hm hu h hf hv).trans (if_neg hs)))
  case edge =>
    rintro n r b s g u rfl hu
    refine ⟨fun h => congrArg Host.Outcome.next (if_neg h), fun hon hn => ?_⟩
    have hedge : exec (.gpioEdge n r b) s = .next (gpioEdge n r b s) := congrArg Host.Outcome.next (if_pos ⟨hon, hn⟩)
    exact ⟨fun h => hedge.trans (congrArg _ (gpioEdge_unselected hu h)), fun v he hv => ⟨fun h => hedge.trans (congrArg _ (gpioEdge_silent hu he hv h)),
      fun ho hnot => hedge.trans (congrArg _ (gpioEdge_notified hu he hv ho hnot))⟩⟩
  · exact congrArg Host.Outcome.next (if_neg (by simp [hoff]))
  · exact congrArg Host.Outcome.next (if_neg (by simp [hoff]))
  case drive =>
    obtain ⟨hset, hsetPin⟩ := gpioDrive_pins w true hon hlen
    obtain ⟨hclr, hclrPin⟩ := gpioDrive_pins w false hon hlen
    exact ⟨_, _, rfl, rfl, hset, hclr, fun n hn => ⟨hsetPin n hn, hclrPin n hn⟩⟩

end
